-- ==== Sys2Proof/Word.lean ====
section
/-! DEFINITION. Words of the machine: bytes, 32-bit register words, digests, tagged words, sparse maps by number. -/
namespace Sys2Proof

/-- One byte. -/
abbrev Byte := BitVec 8

/-- A register word (R73). -/
abbrev Word32 := BitVec 32

/-- A SHA-256 digest. -/
abbrev Digest := BitVec 256

/-- A sparse table keyed by number: pairs with strictly rising keys. -/
abbrev Map (α : Type) := List (Nat × α)

/-- A tagged word of 72 bits: an 8-bit tag and a 64-bit payload (R176). -/
structure TWord where
  tag : BitVec 8
  val : BitVec 64
deriving DecidableEq, Repr

end Sys2Proof
end

