-- ==== Sys2Proof/Syntax.lean ====
section
/-! DEFINITION. The commands of the block. The block has no instruction decoder of a processor's kind: each
constructor of Instr is one row of the specification's table of operations and events, with the facts of that
operation or event as its operands. -/
namespace Sys2Proof

/-- A received AWP frame: what the MAC and the headers give, and the verdict of its AES-GCM tag (Table 1.1, R377).
`age` is the number of TCLK ticks since the MAC detected its first byte and `var` its codeword-position delay in 1/16 ns
(R369), `poison` the physical address of its session-table entry where that reads as POISON (R602), `backlog` the bytes that its lane's ingress buffer already holds (R396), `cached` whether the session cache holds
its session (15.3). `payload` is the plaintext, which counts only where `tagOk`. -/
structure Frame where
  lane : Nat
  age : Nat
  var : Nat
  cached : Bool
  poison : Option Nat
  backlog : Nat
  fcsOk : Bool
  hdrOk : Bool
  v6 : Bool
  src : BitVec 128
  dst : BitVec 128
  sport : Nat
  dport : Nat
  smac : BitVec 48
  vlan : Option (BitVec 16)
  udpLen : Nat
  ver : Nat
  tenant : Nat
  rsv : Nat
  book : Nat
  plen : Nat
  terminal : Nat
  session : Nat
  counter : Nat
  tagOk : Bool
  payload : List Byte
deriving DecidableEq, Repr

/-- The key import envelope of R391: its clear fields, the key it yields, and what its checks find. -/
structure Envelope where
  target : Nat
  kind : Nat
  version : Nat
  session : Nat
  tsalt : BitVec 32
  dsalt : BitVec 32
  key : BitVec 256
  sealOk : Bool
  opKey : Digest
  sigOk : Bool
  len : Nat
deriving DecidableEq, Repr

/-- An instant as a line writes it (Table 22.2): whether `Z` follows, the second of its label counted in days of 86,400 s, whether the
label's second is 60, the fraction in ns. -/
structure Instant where
  utc : Bool
  sec : Nat
  sec60 : Bool
  ns : Nat
deriving DecidableEq, Repr

/-- A received PTP message (R140): lane, ticks since the MAC detected it and its VAR_rx in 1/16 ns (R369), transport code of TIM.GM, domain, source clockIdentity, sequence number,
whether it is two-step, and its timestamp in ns where it carries one. -/
structure PtpMsg where
  lane : Nat
  age : Nat
  var : Nat
  transport : Nat
  domain : Nat
  ident : BitVec 64
  seqId : Nat
  twoStep : Bool
  logSync : Int
  stamp : Int
deriving DecidableEq, Repr

/-- A console line that has passed stage 4 of Table 22.3: console, body as received without tag and CRC, client tag. -/
structure ConLine where
  con : Nat
  text : List Byte
  tag : List Byte
deriving DecidableEq, Repr

/-- Fields of an R-format instruction (Table 8.2). -/
structure RF where
  rd : BitVec 5
  ra : BitVec 5
  rb : BitVec 5
  rd2 : BitVec 5
deriving DecidableEq, Repr

/-- Fields of an I-format instruction. -/
structure IF where
  rd : BitVec 5
  ra : BitVec 5
  imm : BitVec 16
deriving DecidableEq, Repr

/-- Fields of a B-format instruction. -/
structure BF where
  ra : BitVec 5
  rb : BitVec 5
  off : BitVec 16
deriving DecidableEq, Repr

/-- Fields of a C-format instruction beside its unit and op. -/
structure CF where
  rd : BitVec 5
  ra : BitVec 5
  rb : BitVec 5
deriving DecidableEq, Repr

/-- How a coprocessor operation that has started ends (R338, R341): it completes; a pure one is squashed with the speculative
path it stands on; the unit ends it with an error. -/
inductive CopEnd where
  | completes
  | cancelled
  | unitError
deriving DecidableEq, Repr

/-- What the memory system does while a core's access runs (chapter 11, R291, R307, R308, R249): cache misses and hits,
prefetches, declines and directory evictions that are counted; corrected errors (`cacheCe`, `dramCe` with channel and
device); uncorrectable errors of a clean or a dirty cache line (with the affected physical word address), of a DRAM line
(its physical address); a parity error of the register file, of TLB entry n, or of a cache tag; a memory target that does
not respond. -/
inductive MemEv where
  | l1dMiss
  | l1iMiss
  | l2Hit
  | l2Miss
  | pfIssue
  | pfUse
  | l3Quota
  | l3Threshold
  | dirEvict
  | cacheCe
  | cacheUeClean
  | cacheUeDirty (addr : Nat)
  | dramCe (channel device : Nat)
  | dramUe (addr : Nat)
  | regParity
  | tlbParity (entry : Nat)
  | tagParity
  | noResp
  | microCe
  | microUe
  | redirect (m : Nat)
deriving DecidableEq, Repr

/-- A grain header (Table 17.1) without its sequence number. -/
structure Hdr where
  stream : Nat
  typ : Nat
  kind : Nat
  flags : Nat
  tlen : Nat
  tai : Nat
  u : Nat
  terminal : Nat
  session : Nat
  counter : Nat
  book : Nat
  lane : Nat
  rule : Nat
  cjn : Nat
deriving DecidableEq, Repr

/-- The route of a request, by which its reply leaves (R376). -/
structure Route where
  lane : Nat
  v6 : Bool
  src : BitVec 128
  dst : BitVec 128
  sport : Nat
  dport : Nat
  smac : BitVec 48
  vlan : Option (BitVec 16)
deriving DecidableEq, Repr

/-- An effect entry (R522): unit, op, operand digest (the first 8 bytes of a SHA-256) and result words. -/
structure Effect where
  unit : Nat
  op : Nat
  dig : BitVec 64
  res : List TWord
deriving DecidableEq, Repr

/-- A sequenced input in the retained-input store (R22, Table 15.8), with its route and what its evaluation has logged
(R26): the cores that an abandonment excludes (R28, R349), the log, abandonments by core faults (R597) and by pair faults (R349),
whether it awaits a re-run (R28), whether it was re-run (R523), whether an evaluation holds it, whether it runs on a single
core (R350), and where a record gave it (R408, R539) that record's UNPAIRED flag. -/
structure Input where
  tenant : Nat
  seq : Nat
  typ : Nat
  tai : Nat
  u : Nat
  book : Nat
  terminal : Nat
  session : Nat
  counter : Nat
  route : Route
  payload : List Byte
  avoid : List Nat
  log : List Effect
  abandons : Nat
  pairFaults : Nat
  rerun : Bool
  reran : Bool
  bound : Bool
  single : Bool
  recorded : Option Bool
deriving DecidableEq, Repr

/-- A grain of an imported set (R530 to R533): the grain, its recorded digest, and for a WAGER or CANCEL its INPUT item. -/
structure ImpGrain where
  seq : Nat
  hdr : Hdr
  body : List Byte
  digest : Digest
  input : Option Input
deriving DecidableEq, Repr

/-- An accepted import set (R533): epoch, grain range, segments, grains in order, MEAS items (grain number, BM, TM_t), the
digest before its first grain, the hash of its attestation key. -/
structure ImpSet where
  epoch : Nat
  first : Nat
  last : Nat
  segs : Nat
  grains : List ImpGrain
  meas : List (Nat × Digest × Digest)
  prev : Digest
  att : Digest
deriving DecidableEq, Repr

/-- A firmware image in a boot slot (R113): version, rollback index, whether each signature verifies and every component
digest matches, the digest of the M firmware; the microcode patch, if it carries one, by its digest (MS2), identifier, counts and words
as the PR space holds them, and whether what the words alone do not show meets Table 12.5 (MAGIC, FORMAT, UROM and the length; dispatches through ROM
nano-words); the runtime digests by tenant, and the hash of its JPUB. -/
structure Image where
  ver : Nat
  rollback : Nat
  fOk : Bool
  jOk : Bool
  compsOk : Bool
  fw : Digest
  patch : Option Digest
  patchOk : Bool
  patchId : Nat
  patchMicro : Nat
  patchNano : Nat
  patchMatch : Nat
  patchWords : List Word32
  tenants : Map Digest
  jpub : Digest
deriving DecidableEq, Repr

/-- What a SEALED step finds (Table 4.2). S1: the usable 10 MHz inputs, bit i. S2: the populated and trained channels, the speed bin,
the DIMM capacity in 16 GiB (R303, R304). S3: whether some copy of slot A and of slot B reads. S5: dies per channel (0 where the
channels differ), media profile (0 where a die matches none), unique IDs by die index, dies that do not respond with their reason of R460,
dies' temperatures, factory bad blocks (die × 8,192 + block), whether a channel fails training, a stream with a
grain that does not chain, the segments of the import and replay areas. S7, in µV and mV: the three windows, the voltage before and the
lowest in step 3, whether step 5 completes in time (R486). -/
structure BootFacts where
  usable : Nat
  pop : Nat
  speed : Nat
  dimm : Nat
  slotA : Bool
  slotB : Bool
  dpc : Nat
  prof : Nat
  ids : List Nat
  deadDies : List (Nat × Nat)
  dieTemps : List Int
  badBlocks : List Nat
  trainFail : Bool
  tailFail : Option Nat
  areaSegs : Nat
  v0 : Nat
  va : Nat
  vb : Nat
  vc : Nat
  low : Nat
  recharged : Bool
deriving DecidableEq, Repr

/-- A received witness frame of a tag (Tables 20.4, 20.5): source address, frame counter, whether its MIC verifies under that
tag's key, STATUS, EDGES, EDGESEQ, AGE, BATT, the slot that received it, its signal strength as the tag table holds it. -/
structure WitFrame where
  src : Nat
  fctr : Nat
  micOk : Bool
  status : Nat
  edges : Nat
  edgeSeq : Nat
  age : Nat
  batt : Nat
  slot : Nat
  rssi : Nat
deriving DecidableEq, Repr

/-- Bits that flip in the three copies of a voted field: block, offset, the book's key where the block is PRT, and the flips of
each copy. -/
structure Upset where
  blk : Nat
  off : Nat
  key : Nat
  x0 : Nat
  x1 : Nat
  x2 : Nat
deriving DecidableEq, Repr

/-- A read of a flash page and how it decodes (R457a, R459): block (die × 8,192 + block), the level that succeeds (0 to 15 hard, 16
soft, 17 outer, 18 none), the measured RBER in ppm, and the grains, as stream and number, that a member lost to level 18
leaves unreadable. -/
structure FlashRead where
  blk : Nat
  level : Nat
  rber : Nat
  lost : List (Nat × Nat)
deriving DecidableEq, Repr

/-- The commands of the block: one constructor per row of the table of operations and events. -/
inductive Instr where
  /-- OFFER (R14). An OFFER frame arrives at a MAC and goes through checks A1 to A9; if it passes, the tenant's sequencer numbers it and places it on the run queue. -/
  | offer (f : Frame)
  /-- CANCEL (R14). A CANCEL frame arrives and goes through checks A1 to A9; if it passes, it is sequenced like an OFFER. -/
  | cancel (f : Frame)
  /-- QUERY (R388). A QUERY frame that passes A5 is answered at once with an ANSWER of state DURABLE, PENDING, NONE or EXPIRED, or with a REJECT. -/
  | query (f : Frame) (reads : List FlashRead)
  /-- HEARTBEAT (R386). A HEARTBEAT frame that passes A5 is answered at once with the mode, time, uncertainty and time quality. -/
  | heartbeat (f : Frame)
  /-- KEYIMP (R391). A KEYIMP management message imports a tenant KEK from a signed envelope and is answered with a MACK. -/
  | keyimp (f : Frame) (e : Envelope)
  /-- SESSLOAD (R390). A SESSLOAD message unwraps a session key under the tenant KEK and enters the session in the session table. -/
  | sessload (f : Frame) (key : Option (BitVec 256))
  /-- SESSDROP (R381). A SESSDROP message puts a session into CLOSING. -/
  | sessdrop (f : Frame) (tenant session : Nat)
  /-- EXPREQ (R529). An EXPREQ message freezes or continues an export and sends up to 64 EXPDATA parts. -/
  | expreq (f : Frame)
  /-- IMPDATA (R532). An IMPDATA part of an export image is accepted in order on a LAB device. -/
  | impdata (f : Frame)
  /-- IMPORT_VERIFY (R533). After the last part arrives, the import set is verified and the MACK of the last part reports the result. -/
  | importVerify (set : Option ImpSet) (reason seg : Nat)
  /-- EXPORT_IDLE_TIMEOUT (R531). An export that has received no EXPREQ for 60 s is closed. -/
  | exportIdleTimeout (reqid : Nat)
  /-- ARP_REQUEST (R375). An ARP request for an enabled address is answered on the port that holds the address. -/
  | arpRequest (lane : Nat) (target : BitVec 128)
  /-- NEIGHBOUR_SOLICITATION (R375). An IPv6 neighbour solicitation for an enabled address is answered. -/
  | neighbourSolicitation (lane : Nat) (target : BitVec 128)
  /-- ECHO_REQUEST (R375). An ICMP echo request is answered when AWP.CFG.PING is set. -/
  | echoRequest (lane : Nat) (v6 : Bool) (dst src : BitVec 128)
  /-- PAUSE_FRAME (R361). A PAUSE or priority-flow-control frame is counted in PAUSERX and otherwise ignored. -/
  | pauseFrame (lane : Nat)
  /-- SYNC (R140). A PTP Sync message from a configured grandmaster is timestamped and contributes to that reference's sample. -/
  | sync (m : PtpMsg)
  /-- FOLLOW_UP (R140). A PTP Follow_Up message completes a two-step Sync. -/
  | followUp (m : PtpMsg)
  /-- DELAY_RESP (R140). A PTP Delay_Resp message completes an E2E delay measurement and forms a sample. -/
  | delayResp (m : PtpMsg) (sent : Int) (var : Nat)
  /-- PDELAY_REQ (R140). A PTP Pdelay_Req message from a peer is answered with a one-step Pdelay_Resp. -/
  | pdelayReq (m : PtpMsg)
  /-- ANNOUNCE (R141). A PTP Announce message is checked for timescale, and its currentUtcOffset is compared with the leap-second table. -/
  | announce (m : PtpMsg) (ptpScale : Bool) (offset : Int)
  /-- PTP_SAMPLE_TIMEOUT (R137). Three sync intervals pass without a valid sample, so the grandmaster reference is lost. -/
  | ptpSampleTimeout (gm : Nat)
  /-- PPS_EDGE (R136). A rising edge on PPSA or PPSB is timestamped on TCLK. -/
  | ppsEdge (r : Nat)
  /-- TOD_LINE (R136). A time-of-day line completes the second's PPS sample, which is judged for qualification, loss and the breach test. -/
  | todLine (r sec : Nat) (locked crcOk : Bool)
  /-- PPS_MISSING (R137). An expected PPS edge does not arrive, which counts as a missing sample toward loss of the reference. -/
  | ppsMissing (r : Nat)
  /-- U_RECOMPUTE (R147). Every 1,024 TCLK ticks, u is recomputed and the time quality is re-evaluated, which can enter STARVED. -/
  | uRecompute
  /-- SLEW_END (R152). The remaining correction reaches zero and SLEW clears. -/
  | slewEnd
  /-- PPS_OUT_EDGE (R156). PPS_OUT rises at each second boundary of the time base, with its phase limited to 100 ns of movement per edge. -/
  | ppsOutEdge
  /-- ACQ_WAIT_EXPIRE (R143). The S8 wait for further references after the first one ends, and time acquisition completes. -/
  | acqWaitExpire
  /-- REF_INPUT_LOSS (R133). The selected 10 MHz input becomes unusable and the root PLL switches to the next usable input, or holds its frequency with no input. -/
  | refInputLoss (inp : Nat)
  /-- REF_INPUT_RETURN (R133). A higher-priority input has been usable for 60 s and the PLL returns to it. -/
  | refInputReturn (inp : Nat)
  /-- CLOCK_TAMPER (R121). The root clock leaves plus or minus 1 % or stops for 100 ns, which raises the CLK tamper class. -/
  | clockTamper
  /-- SUPPLY_GLITCH (R121). A supply glitch is detected, which raises the VGLITCH tamper class. -/
  | supplyGlitch
  /-- THERMAL_SAMPLE (R604). Every 100 µs the temperature sensors are sampled; throttle steps are set or undone, and the TEMP tamper class is checked. -/
  | thermalSample (temps : List Int)
  /-- THERMAL_HOLD (R604). The hottest sensor stays at or above TJ_HOLD for 1 ms and the device enters HOLD with cause THERMAL. -/
  | thermalHold
  /-- TMR_SCRUB (R96). The scrubber compares each triplicate-voted field at least every 1,024 PCLK cycles, repairs one disagreeing copy, or enters HOLD when no two copies agree. -/
  | tmrScrub (upsets : List Upset)
  /-- POWER_ON_RESET (R612). A rail rises through its threshold or falls below it, which resets the device into SEALED. -/
  | powerOnReset (rail : Nat) (rising : Bool) (kept lat : Nat)
  /-- EXTERNAL_RESET (R103). RESET# held low for 10 µs resets the device after the reset-source flush. -/
  | externalReset
  /-- MGMT_WATCHDOG_EXPIRE (R103). The management cluster's watchdog expires after 2 s without service and resets the device. -/
  | mgmtWatchdogExpire
  /-- BOOT_STEP_TIMEOUT (R107). A SEALED step fails or passes its limit, which leads to ROM recovery for S0 to S4 or to HOLD BOOT_STEP for S5 to S9. -/
  | bootStepTimeout (failed : Bool)
  /-- SET_MODE_LIVE (R48). The device moves to LIVE from SEALED or QUIET and carries out the deferred SEALED-exit actions. -/
  | setModeLive (l : ConLine)
  /-- SET_MODE_QUIET (R51). The device moves to QUIET and begins the drain; the reply waits until DRAIN returns to 0. -/
  | setModeQuiet (l : ConLine)
  /-- DRAIN_COMPLETE (R51). Every sequenced input is durable, DRAIN returns to 0, and the reply to SET MODE QUIET is formed. -/
  | drainComplete
  /-- SET_MODE_AUDIT (R48). From QUIET with the drain complete, CON1 at REGULATE enters AUDIT. -/
  | setModeAudit (l : ConLine)
  /-- SET_MODE_REPLAY (R535). A LAB device enters REPLAY from QUIET. -/
  | setModeReplay (l : ConLine)
  /-- SET_MODE_HOLD (R582). The command puts the device into HOLD. -/
  | setModeHold (l : ConLine)
  /-- HOLD_FLUSH_COMPLETE (R64). The HOLD flush completes, the HOLD EVENT grains are written under FLASH commit, and the journal is closed. -/
  | holdFlushComplete
  /-- MGMT_LOCKSTEP_MISMATCH (R594). The two management cores disagree and the device enters HOLD with cause MGMT_LOCKSTEP. -/
  | mgmtLockstepMismatch
  /-- PARTING_INSTANT (R168). The time base reaches P_b, an OPEN or SUSPENDED book enters PARTING, and its cause mask empties. -/
  | partingInstant (t b : Nat)
  /-- PART_NUMBER (R169). When no earlier frame of the tenant remains in ingress, the PART grain is numbered with its counts. -/
  | partNumber (t b : Nat) (clear : Bool)
  /-- BOOK_CLOSE (R171). The PART grain becomes durable, the book enters CLOSED, and a CLOSE EVENT grain is written. -/
  | bookClose (t b : Nat)
  /-- GRAIN_REQUEST_NUMBER (R393). A device, firmware or runtime grain request takes its number in the first FCLK cycle in which no frame enters. -/
  | grainRequestNumber (t : Nat)
  /-- GRAIN_DURABLE (R442). Under PFB commit, a grain becomes durable once its predecessor is durable and the occupancy up to it is within CWIN. -/
  | grainDurable (t : Nat)
  /-- REPLY_RELEASE (R31). A reply is released once its grain is durable, its digest has matched where SYNC applies, and every lower reply of its session has left. -/
  | replyRelease (t session : Nat)
  /-- UNLOCK (R77). A write to a block's UNLOCK register arms the key guard for the writer, or disarms it and sets KEYFAIL on a wrong key. -/
  | unlock (req block val : Nat)
  /-- KEYGUARD_EXPIRE (R79). The guard disarms unconsumed at the end of the 256th PCLK cycle after the UNLOCK write. -/
  | keyguardExpire (block : Nat)
  /-- UPDATE (R82). A write to SYS.UPDATE presents update groups; they are tested, then staged and applied or refused. -/
  | update (req mask : Nat)
  /-- SNAP (R94). A write to SYS.SNAP copies every statistics counter to its holding register and increments SNAPSEQ. -/
  | snap (req : Nat)
  /-- MODE_WRITE (R101). A management-cluster write to SYS.MODE performs an allowed transition, or sets MODEREF. -/
  | modeWrite (req val : Nat)
  /-- REGISTER_WRITE (R75). A register write with no behaviour of its own updates the register, its shadow or its W1C bits under the access code, or raises a bus error. -/
  | registerWrite (req block off width val : Nat)
  /-- POSTED_WRITE_TAKEN (R87). The slow domain takes a posted write or group transfer, and STAT.BUSY returns to 0. -/
  | postedWriteTaken (block : Nat)
  /-- POSTED_DOMAIN_RESET (R89). A posted block's domain enters reset; pending writes are discarded and RSTDROP is set. -/
  | postedDomainReset (block : Nat)
  /-- INDIRECT_ADDR_WRITE (R91). A write to <SPACE>_ADDR makes the writer owner of the pair and may discard a partial entry. -/
  | indirectAddrWrite (req block off val : Nat)
  /-- INDIRECT_DATA_WRITE (R92). A write to <SPACE>_DATA collects a word or completes an entry, and ADDR increments. -/
  | indirectDataWrite (req block off val : Nat)
  /-- INDIRECT_DATA_READ (R90). A read of <SPACE>_DATA returns a word, latches a multi-word entry at its first word, and increments ADDR. -/
  | indirectDataRead (req block off : Nat)
  /-- BOOKCMD_OPEN (R58). The BOOKCMD operation OPEN moves a book from DORMANT to OPEN. -/
  | bookcmdOpen (req scope tenant book : Nat)
  /-- BOOKCMD_SETCAUSE (R60). The BOOKCMD operation SETCAUSE sets suspension causes in one book, a tenant or the device at one instant. -/
  | bookcmdSetcause (req scope tenant book : Nat)
  /-- BOOKCMD_CLEARCAUSE (R59). The BOOKCMD operation CLEARCAUSE clears causes and returns books with an empty mask to OPEN, subject to R173. -/
  | bookcmdClearcause (req scope tenant book : Nat)
  /-- BOOKCMD_RELEASE (R57). The BOOKCMD operation RELEASE returns a CLOSED book to DORMANT. -/
  | bookcmdRelease (req scope tenant book : Nat)
  /-- BOOKCMD_RESTORE (R163). The BOOKCMD operation RESTORE sets STATE and CAUSE from BOOKARG during the S5 rebuild or in REPLAY. -/
  | bookcmdRestore (req scope tenant book : Nat)
  /-- IPISEND (R280). A write to IPISEND raises IPI_S or IPI_M on the targets, or acknowledges to an initiator. -/
  | ipisend (core : Nat) (rd : BitVec 5)
  /-- REFEN_WRITE (R153). A write to TIM.REFEN enables or disables references, writes a TIME grain, and can resolve a breach. -/
  | refenWrite (req val : Nat)
  /-- ECLASS_WRITE (R484). A write to PWR.ECLASS sets the energy class once per SEALED, or is refused and sets ECREF. -/
  | eclassWrite (req val : Nat)
  /-- FREEZE_WRITE (R365). A write to LCTL.FREEZE stops or resumes continuous adaptation of a lane. -/
  | freezeWrite (req lane val : Nat)
  /-- LMARG_WRITE (R367). A key-guarded write of FLOOR or ADAPT_GUARD changes the lane's floor policy and writes an EVENT grain. -/
  | lmargWrite (req lane val : Nat)
  /-- RPL_RUN_WRITE (R535). A write of 1 to RPL.RUN by requester 0x60 starts a replay run, or sets STATE REFUSED. -/
  | rplRunWrite (req val : Nat)
  /-- SET_REG (R100). A console command that writes a register through the management cluster, with an optional key-guard arm. -/
  | setReg (l : ConLine) (block off val : Nat) (key : Bool)
  /-- SHOW_REG (R100). A console command that reads a register. -/
  | showReg (l : ConLine) (block off : Nat)
  /-- ADD (R187). Generic addition dispatched on the operand tags. -/
  | add (core : Nat) (f : RF)
  /-- SUB (R187). Generic subtraction dispatched on the operand tags. -/
  | sub (core : Nat) (f : RF)
  /-- MUL (R188). Generic multiplication, including MONEY by RATIO with a breakage numerator. -/
  | mul (core : Nat) (f : RF)
  /-- DIV (R188). Exact rational division. -/
  | div (core : Nat) (f : RF)
  /-- MDIVI (R189). Truncating division that writes a quotient and a remainder. -/
  | mdivi (core : Nat) (f : RF)
  /-- CMP (R190). Compares two operands and writes INT −1, 0 or +1. -/
  | cmp (core : Nat) (f : RF)
  /-- AND (R213). Bitwise AND of INT or RAW operands. -/
  | and (core : Nat) (f : RF)
  /-- OR (R213). Bitwise OR of INT or RAW operands. -/
  | or (core : Nat) (f : RF)
  /-- XOR (R213). Bitwise XOR of INT or RAW operands. -/
  | xor (core : Nat) (f : RF)
  /-- ANDN (R213). Bitwise AND of ra with NOT rb. -/
  | andn (core : Nat) (f : RF)
  /-- SLL (R213). Logical shift left. -/
  | sll (core : Nat) (f : RF)
  /-- SRL (R213). Logical shift right with zero fill. -/
  | srl (core : Nat) (f : RF)
  /-- SRA (R213). Arithmetic shift right with sign fill. -/
  | sra (core : Nat) (f : RF)
  /-- MOV (R217). Carrying register move. -/
  | mov (core : Nat) (f : RF)
  /-- TAG (R217). Writes the tag of a word as an INT, and never faults. -/
  | tag (core : Nat) (f : RF)
  /-- NOP (R211). An instruction with no effect. -/
  | nop (core : Nat) (f : RF)
  /-- ADDI (R214). ADD with a sign-extended immediate INT. -/
  | addi (core : Nat) (f : IF)
  /-- CMPI (R214). CMP with a sign-extended immediate INT. -/
  | cmpi (core : Nat) (f : IF)
  /-- ANDI (R214). AND with a zero-extended immediate. -/
  | andi (core : Nat) (f : IF)
  /-- ORI (R214). OR with a zero-extended immediate. -/
  | ori (core : Nat) (f : IF)
  /-- SHI (R214). Shift by an immediate amount and kind. -/
  | shi (core : Nat) (f : IF)
  /-- LI (R215). Loads a sign-extended 16-bit INT. -/
  | li (core : Nat) (f : IF)
  /-- LIX (R215). Extends an INT by 16 immediate bits. -/
  | lix (core : Nat) (f : IF)
  /-- RETAG (R216). Sets an explicit tag on a payload, with RESERVED, PRIV and TYPE checks. -/
  | retag (core : Nat) (f : IF)
  /-- TYPEP (R191). Tests a word against a tag or class selector and writes a BOOL. -/
  | typep (core : Nat) (f : IF)
  /-- CAR (R198). Reads the car of a list cell. -/
  | car (core : Nat) (f : RF)
  /-- CDR (R198). Reads the cdr of a list cell. -/
  | cdr (core : Nat) (f : RF)
  /-- CONS (R198). Allocates a new list cell. -/
  | cons (core : Nat) (f : RF)
  /-- SETCAR (R198). Stores into the car of a cell, with the write barrier. -/
  | setcar (core : Nat) (f : RF)
  /-- SETCDR (R198). Stores into the cdr of a cell, with the write barrier. -/
  | setcdr (core : Nat) (f : RF)
  /-- LEN (R199). Counts list cells, elements or bytes, and traps with LIMIT after 16,777,216 cells. -/
  | len (core : Nat) (f : RF)
  /-- IDHASH (R222). Returns the identity number of an object. -/
  | idhash (core : Nat) (f : RF)
  /-- VREF (R223). Reads a body word of a vector, record or closure. -/
  | vref (core : Nat) (f : RF)
  /-- VSET (R223). Writes a body word of a vector, record or closure. -/
  | vset (core : Nat) (f : RF)
  /-- SREF (R223). Reads a byte of a string. -/
  | sref (core : Nat) (f : RF)
  /-- SSET (R223). Writes a byte of a string. -/
  | sset (core : Nat) (f : RF)
  /-- MAKEV (R223). Allocates a new vector filled with one value. -/
  | makev (core : Nat) (f : RF)
  /-- MAKER (R223). Allocates a new record whose fields are NIL. -/
  | maker (core : Nat) (f : RF)
  /-- MAKES (R223). Allocates a new zero-filled string. -/
  | makes (core : Nat) (f : RF)
  /-- LD (R218). Loads a tagged word, with translation, permission and read-barrier checks. -/
  | ld (core : Nat) (f : IF) (ev : List MemEv)
  /-- ST (R218). Stores a tagged word, with translation, dirty update and write barrier. -/
  | st (core : Nat) (f : IF) (ev : List MemEv)
  /-- LDA (R219). Load with acquire ordering. -/
  | lda (core : Nat) (f : IF) (ev : List MemEv)
  /-- STR (R219). Store with release ordering. -/
  | str (core : Nat) (f : IF) (ev : List MemEv)
  /-- ADDP (R220). Adds an immediate to a pointer payload and keeps its tag. -/
  | addp (core : Nat) (f : IF)
  /-- LDB (R221). Loads a byte from a RAW word. -/
  | ldb (core : Nat) (f : IF)
  /-- STB (R221). Stores a byte into a RAW word. -/
  | stb (core : Nat) (f : IF)
  /-- SM (R230). Stores the masked registers in a probe pass and a transfer pass, and can resume at LMPROG. -/
  | sm (core : Nat) (f : RF) (stop : Option Nat)
  /-- LM (R230). Loads the masked registers in a probe pass and a transfer pass, and can resume at LMPROG. -/
  | lm (core : Nat) (f : RF) (stop : Option Nat)
  /-- SAVEL (R233). Stores the dirty groups of the lower register half into a save area. -/
  | savel (core : Nat) (f : RF)
  /-- SAVEH (R233). Stores the dirty groups of the upper register half into a save area. -/
  | saveh (core : Nat) (f : RF)
  /-- LOADL (R234). Restores the lower register half from the save area at CTXHEAD. -/
  | loadl (core : Nat) (f : RF)
  /-- LOADH (R234). Restores the upper register half from the save area at CTXHEAD. -/
  | loadh (core : Nat) (f : RF)
  /-- BEQ (R225). Branches when two words are identical in all 72 bits. -/
  | beq (core : Nat) (f : BF)
  /-- BNE (R225). Branches when two words differ. -/
  | bne (core : Nat) (f : BF)
  /-- BLT (R225). Branches on a signed INT less-than. -/
  | blt (core : Nat) (f : BF)
  /-- BGE (R225). Branches on a signed INT greater-or-equal. -/
  | bge (core : Nat) (f : BF)
  /-- BT (R225). Branches when a BOOL is true. -/
  | bt (core : Nat) (f : BF)
  /-- BF (R225). Branches when a BOOL is false. -/
  | bf (core : Nat) (f : BF)
  /-- BNIL (R225). Branches when the tag is NIL. -/
  | bnil (core : Nat) (f : BF)
  /-- BNNIL (R225). Branches when the tag is not NIL. -/
  | bnnil (core : Nat) (f : BF)
  /-- J (R226). Jumps to a relative target. -/
  | j (core : Nat) (off : BitVec 26)
  /-- CALL (R226). Writes LINK, pushes onto the shadow stack and jumps. -/
  | call (core : Nat) (off : BitVec 26)
  /-- JR (R226). Jumps to a RETADDR held in a register. -/
  | jr (core : Nat) (f : RF)
  /-- CALLR (R226). Calls through a RETADDR held in a register. -/
  | callr (core : Nat) (f : RF)
  /-- RET (R228). Returns through LINK after comparing it with the shadow-stack top. -/
  | ret (core : Nat) (f : RF)
  /-- FENCE (R237). Orders all earlier memory accesses before all later ones. -/
  | fence (core : Nat) (f : RF)
  /-- FENCE_I (R237). Discards this core's fetched and predicted instructions. -/
  | fenceI (core : Nat) (f : RF)
  /-- RETX (R238). Restores STATUS and returns from an exception. -/
  | retx (core : Nat) (f : RF)
  /-- TLBW (R271). Checks its operands and writes one TLB entry. -/
  | tlbw (core : Nat) (f : RF)
  /-- TLBI_VA (R273). Invalidates the entry that maps an address. -/
  | tlbiVa (core : Nat) (f : RF)
  /-- TLBI_ASID (R273). Invalidates every entry of one ASID on this core. -/
  | tlbiAsid (core : Nat) (f : RF)
  /-- TLBI_ALL (R273). Invalidates every TLB entry of this core. -/
  | tlbiAll (core : Nat) (f : RF)
  /-- MFCR (R236). Reads a control register. -/
  | mfcr (core : Nat) (f : IF)
  /-- MTCR (R236). Writes a control register, with field and privilege rules. -/
  | mtcr (core : Nat) (f : IF)
  /-- SYSC (R239). Raises the system-call exception to the next level. -/
  | sysc (core : Nat) (f : IF) (bank : Option (Nat × Nat))
  /-- INTERRUPT_TAKE (R251). A pending interrupt above MASK is taken at an instruction boundary or between SM/LM slots. -/
  | interruptTake (core cause : Nat)
  /-- CORE_WATCHDOG_EXPIRE (R259). A core retires nothing for 2^20 CCLK cycles and is stopped. -/
  | coreWatchdogExpire (core : Nat)
  /-- UWAIT_TIMEOUT (R320). A microcode wait holds for WAITLIM cycles and ends with MCHECK UWAIT. -/
  | uwaitTimeout (core uaddr : Nat) (redir : Bool)
  /-- CORE_SELFTEST_COMPLETE (R598). The core self-test ends, and the core returns to service or stays out. -/
  | coreSelftestComplete (core : Nat) (pass : Bool)
  /-- PAIR_TEST_COMPLETE (R600). The pair test ends, and the pair returns with its window cleared or stays out. -/
  | pairTestComplete (pair : Nat) (pass : Bool)
  /-- SHA256 (R331). Crypto unit operation: SHA-256 of a STRING. -/
  | sha256 (core : Nat) (f : CF) (e : CopEnd)
  /-- SHA3 (R331). Crypto unit operation: SHA3-256 of a STRING. -/
  | sha3 (core : Nat) (f : CF) (e : CopEnd)
  /-- HMAC (R331). Crypto unit operation: HMAC-SHA-256 under a key handle. -/
  | hmac (core : Nat) (f : CF) (e : CopEnd)
  /-- GCMSEAL (R331). Crypto unit operation: AES-GCM encryption under a key handle. -/
  | gcmseal (core : Nat) (f : CF) (e : CopEnd)
  /-- GCMOPEN (R331). Crypto unit operation: AES-GCM decryption and tag check. -/
  | gcmopen (core : Nat) (f : CF) (e : CopEnd)
  /-- P256V (R331). Crypto unit operation: ECDSA P-256 verification. -/
  | p256v (core : Nat) (f : CF) (e : CopEnd)
  /-- P384V (R331). Crypto unit operation: ECDSA P-384 verification. -/
  | p384v (core : Nat) (f : CF) (e : CopEnd)
  /-- ED25519V (R331). Crypto unit operation: Ed25519 verification. -/
  | ed25519v (core : Nat) (f : CF) (e : CopEnd)
  /-- DRAW (R339). Effectful entropy draw of 64 bits, logged or substituted. -/
  | draw (core : Nat) (f : CF) (e : CopEnd)
  /-- DRAWN (R334). Effectful uniform draw in [0, n), logged or substituted. -/
  | drawn (core : Nat) (f : CF) (e : CopEnd)
  /-- RESEED (R331). M-level reseed of the DRBG. -/
  | reseed (core : Nat) (f : CF) (e : CopEnd)
  /-- TREAD (R331). Effectful time read that returns TIME and u. -/
  | tread (core : Nat) (f : CF) (e : CopEnd)
  /-- TAKE (R335). Removes the next sequenced input from the run queue and binds the core to it. -/
  | take (core : Nat) (f : CF) (e : CopEnd) (bad : List Nat)
  /-- APPEND (R336). Issues the journal append of grain n once grain n−1 has completed; the grain is chained and the binding ends. -/
  | append (core : Nat) (f : CF) (e : CopEnd)
  /-- CTRINC (R334). Increments a tenant journal counter and returns its new value. -/
  | ctrinc (core : Nat) (f : CF) (e : CopEnd)
  /-- CHAINED (R336). Returns the highest chained sequence number of the tenant stream. -/
  | chained (core : Nat) (f : CF) (e : CopEnd)
  /-- PAIR_WAIT_TIMEOUT (R348). A partner does not present within PAIRWAIT, which is a pair fault by timeout. -/
  | pairWaitTimeout (core : Nat)
  /-- APPEND_WAIT_TIMEOUT (R336). An APPEND held un-issued for APPWAIT ends with MCHECK COPERR. -/
  | appendWaitTimeout (core : Nat)
  /-- PAIR_UNAVAILABLE_TIMEOUT (R350). A paired tenant has had no in-service pair for 1 ms; cause PAIR is set and evaluations run unpaired. -/
  | pairUnavailableTimeout (tenant : Nat)
  /-- DRBG_RESEED_TIMER (R341). The DRBG reseeds from the noise source at least every CLU.RESEED seconds. -/
  | drbgReseedTimer (cluster : Nat)
  /-- ENTROPY_TEST_FAIL (R341). A noise-source health test fails; COPERR is raised and the cluster is withheld. -/
  | entropyTestFail (cluster kind : Nat) (busy : Option Nat)
  /-- ENTROPY_RESTORE (R601). The noise source passes its start-up tests and the cluster returns to service. -/
  | entropyRestore (cluster : Nat)
  /-- DRAM_PATROL_READ (R308). The patrol scrubber reads and corrects DRAM lines once per SCRUBH hours. -/
  | dramPatrolRead (addr : Nat) (uncorrectable : Bool) (corrected : Option Nat)
  /-- AN_COMPLETE (R360). Clause 73 negotiation resolves a common type, or counts ANFAIL. -/
  | anComplete (q p : Nat) (partner : List Nat) (rsFec : Bool)
  /-- TRAINING_COMPLETE (R362). Training and PCS lock complete and the port goes UP. -/
  | trainingComplete (q p : Nat) (rateOk : Bool) (taps : List (List Nat))
  /-- TRAINING_TIMEOUT (R362). The clause training timeout expires and the port goes to FAULT. -/
  | trainingTimeout (q p : Nat)
  /-- PCS_LOCK_LOSS (R362). Block or alignment lock is lost, or too many codewords are uncorrectable, and the port goes to FAULT. -/
  | pcsLockLoss (q p rxCut txCut : Nat)
  /-- FAULT_TIMEOUT (R362). After 10 ms in FAULT the port returns to AN or TRAIN. -/
  | faultTimeout (q p : Nat)
  /-- LINK_EVENT_WINDOW_END (R363). The 1 s link-event window ends and one grain records the further changes. -/
  | linkEventWindowEnd (q p : Nat)
  /-- MARGIN_MEASURE (R366). The 1 ms eye measurement is compared with the floor, which can override the freeze or declare the lane degraded. -/
  | marginMeasure (k : Nat) (eyes : List Nat)
  /-- BER_ESTIMATE (R369). Each second the pre-FEC BER estimate BERLOG is formed. -/
  | berEstimate (k corr unc sym berlog : Nat)
  /-- HELLO (R403). A mirror HELLO is checked for role and peer identity, and the link key is derived. -/
  | hello (role : Nat) (ident : Digest) (sigOk : Bool)
  /-- RECORD (R408). A RECORD frame is taken by the shadow sequencer and evaluated with substituted effects. -/
  | record (lseq tenant : Nat) (tagOk : Bool) (body : List Byte)
  /-- GRAIN (R408). A GRAIN frame is journaled on the shadow and applies its sales-state change. -/
  | grain (lseq tenant : Nat) (tagOk : Bool) (body : List Byte)
  /-- ANCHOR (R407). An ANCHOR frame sets the digest from which the shadow chains a tenant. -/
  | anchor (lseq tenant k : Nat) (digest : Digest) (tagOk : Bool)
  /-- DIGEST (R411). The primary compares the shadow's digests in sequence order; a mismatch is MIRROR_DIVERGENCE. -/
  | digest (lseq tenant first : Nat) (digests : List Digest) (tagOk : Bool)
  /-- ACK (R404). A mirror ACK frees retransmit buffer space and updates credits. -/
  | ack (lseq acked limit : Nat) (tagOk : Bool)
  /-- NACK (R404). A mirror NACK makes the sender resend from the named LSEQ. -/
  | nack (lseq expected : Nat) (tagOk : Bool)
  /-- POSITION (R410). A POSITION frame tells the primary where to resume each tenant. -/
  | position (lseq : Nat) (pos : List Nat) (tagOk : Bool)
  /-- DIVERGE (R412). The shadow marks the tenant DIVERGED and journals it. -/
  | diverge (lseq tenant n : Nat) (mine theirs : Digest) (tagOk : Bool)
  /-- MIRROR_RETRANSMIT_TIMEOUT (R404). No ACK has advanced for 100 µs, and the sender resends from the oldest unacknowledged frame. -/
  | mirrorRetransmitTimeout
  /-- MIRROR_ACK_TIMER (R404). The receiver sends an ACK at least every 10 µs. -/
  | mirrorAckTimer
  /-- DIGEST_SEND_TIMER (R409). The shadow sends a DIGEST frame at least every 20 µs while any digest waits. -/
  | digestSendTimer
  /-- MIRROR_LOSS_TIMEOUT (R406). No ACK has advanced for LOSSMS, the link goes DOWN, and the retransmit buffers are discarded. -/
  | mirrorLossTimeout
  /-- MIRROR_LAG_TIMEOUT (R414). A tenant's oldest unmatched grain passes LAG_TIME; cause MIRROR is set and SYNC replies are discarded. -/
  | mirrorLagTimeout (tenant : Nat)
  /-- ROW_HOLD_TIMEOUT (R444). ROWMAX µs have passed since a row's first item, and the row goes to flash. -/
  | rowHoldTimeout (t : Nat)
  /-- FCDELAY_TIMEOUT (R444). Under FLASH commit, FCDELAY has passed since the first waiting item, and the row closes with PAD. -/
  | fcdelayTimeout (t : Nat)
  /-- ROW_PROGRAM_COMPLETE (R634). A row has programmed on every die of its stripe; its grains become durable and OCC falls. -/
  | rowProgramComplete (t : Nat) (fails again : List Nat)
  /-- HEARTWOOD_SEAL (R437). A closed segment is copied to Heartwood and sealed with a signed seal record. -/
  | heartwoodSeal (t : Nat) (fails again : List Nat)
  /-- SAPWOOD_FREE (R437). A Sapwood block whose copy is sealed and whose SAPRET has passed is freed. -/
  | sapwoodFree (n : Nat) (bad : List Nat)
  /-- DIE_TIMEOUT (R460). A die gives no ready status within 50 ms, three times in a row, and becomes FAILED. -/
  | dieTimeout (d : Nat) (channel : Bool)
  /-- REBUILD_COMPLETE (R462). Rebuild of a FAILED die completes, the die reads REBUILT, and f falls. -/
  | rebuildComplete (d : Nat)
  /-- PATROL_READ (R464). Patrol reads a block's sampled pages on its PATROLS or PATROLH period. -/
  | patrolRead (k : Nat) (reads : List FlashRead)
  /-- BLOCK_EVALUATE (R465). Hourly or on a new measurement, a block's predicted RBER and read count are evaluated for floor or policy relocation. -/
  | blockEvaluate (k : Nat)
  /-- RELOCATION (R466). A block's members are copied, verified, logged and the old block erased. -/
  | relocation (k : Nat) (eraseFail : Bool) (lost : List (Nat × Nat))
  /-- QUIET_WINDOW_BOUNDARY (R469). A flash-quiet window begins or ends, deferring or releasing patrol, policy relocation and Heartwood copying. -/
  | quietWindowBoundary
  /-- WEAR_EVALUATE (R473). Hourly the wear indicators and end of life are recomputed, and WARN and CRIT are set or cleared. -/
  | wearEvaluate
  /-- MAP_CHECKPOINT (R453). Every 10 minutes read counts and measurements are checkpointed to the map region. -/
  | mapCheckpoint
  /-- ZQ_CALIBRATION (R449). A short ZQ calibration runs on each die every 100 ms. -/
  | zqCalibration
  /-- PFAIL_LATCH (R490). PFAIL# low for 200 ns is latched and the power-fail sequence runs through both flush phases, the POWERFAIL grains and HU_DONE. -/
  | pfailLatch (kept lat : Nat)
  /-- PFAIL_RESTART (R491). PFAIL# has been high for 100 ms after the sequence, and the device restarts as a power-on reset. -/
  | pfailRestart
  /-- HOLDUP_SAMPLE (R489). Every 1 ms HU_SENSE is sampled and CWIN is reduced when the store sags, or HOLD HOLDUP_LOST is entered. -/
  | holdupSample (mv : Nat)
  /-- VBAT_LOW (R496). VBAT falls below 2.70 V with main power present; VBATLOW is set and journaled. -/
  | vbatLow (mv : Nat)
  /-- VAULT_MONITOR_SAMPLE (R518). With main power off, the vault monitor pulses each enabled loop and samples the vault temperature once per second, logging events. -/
  | vaultMonitorSample (loops : List Nat) (temp : Int) (mv : Nat)
  /-- LOOP_PULSE (R516). Every 10 ms a tamper loop is pulsed and classed; three equal non-normal pulses raise a tamper class. -/
  | loopPulse (n : Nat) (r : Option Nat)
  /-- WITNESS_EVENT_INSTANT (R502). EVC advances at each event instant, the channel hops, and a beacon is due every eighth event. -/
  | witnessEventInstant
  /-- WITNESS_TRANSMIT (R500). After backoff and listen, a witness frame is transmitted, or is dropped for CCA or duty cycle. -/
  | witnessTransmit (busy : Bool)
  /-- REPORT (R515). A tag REPORT is authenticated, counter-checked and raises classes for new edges. -/
  | report (f : WitFrame)
  /-- ALARM (R515). A tag ALARM is authenticated, counter-checked and raises classes for new edges. -/
  | alarm (f : WitFrame)
  /-- JOINREQ (R513). A paired tag's JOINREQ is answered with a JOINRSP in a contention slot. -/
  | joinreq (eui : BitVec 64) (fctr : Nat) (micOk : Bool)
  /-- SUPERVISION_TIMEOUT (R514). A tag's supervision timer runs out, the tag becomes LOST, and LOSS is raised. -/
  | supervisionTimeout (a : Nat)
  /-- AUTHFAIL_MINUTE (R509). At the end of a minute with 16 or more AUTHFAIL, one EVENT grain is written. -/
  | authfailMinute
  /-- COUNTS_WRITE (R524). Within 1 s after a TAI second ends, COUNTS record items of its per-session counts are written. -/
  | countsWrite
  /-- REPLAY_GRAIN (R538). The run takes the next grain: it re-evaluates WAGER or CANCEL, or writes the grain as imported, and checks for divergence. -/
  | replayGrain
  /-- TELEMETRY_SAMPLE (R605). Temperatures, voltages and currents are sampled at 1 kHz. -/
  | telemetrySample (vals : List Int)
  /-- TELEMETRY_SECOND (R605). Each second the quantized per-second values are formed and the health event log is copied. -/
  | telemetrySecond
  /-- TELEMETRY_SUMMARY (R433). At each minute and hour the summaries of the kept values are formed. -/
  | telemetrySummary
  /-- BREAK (R550). A console break discards pending lines, voids the challenge and drops authority to OBSERVE. -/
  | breakLine (con : Nat)
  /-- BAD_LINE (R554). A line that fails stages 1 to 4 is refused without a CJN. -/
  | badLine (con code : Nat)
  /-- CHALLENGE_TIMEOUT (R558). A challenge with no response for 60 s is voided. -/
  | challengeTimeout (con : Nat)
  /-- CONSOLE_IDLE_TIMEOUT (R560). A console has received no line for 15 minutes and its authority returns to OBSERVE. -/
  | consoleIdleTimeout (con : Nat)
  /-- AUTH_LOCK_EXPIRE (R559). The 10-minute AUTH lock of a console ends. -/
  | authLockExpire (con : Nat)
  /-- COMMAND_REPLY_RELEASE (R565). A command's COMMAND grain is appended after all lower CJNs, and its reply leaves once the grain is durable. -/
  | commandReplyRelease (cjn : Nat)
  /-- AUTH_OPERATE (R558). Console command that issues a challenge for OPERATE. -/
  | authOperate (l : ConLine)
  /-- AUTH_ENGINEER (R558). Console command that issues a challenge for ENGINEER. -/
  | authEngineer (l : ConLine)
  /-- AUTH_REGULATE (R558). Console command that issues a challenge for REGULATE, on CON1 only. -/
  | authRegulate (l : ConLine)
  /-- AUTH_RESPONSE (R558). Console command whose signature is verified against the challenge, raising the console's authority. -/
  | authResponse (l : ConLine) (sig : List Byte)
  /-- AUTH_LOGOUT (R560). Console command that returns the console to OBSERVE. -/
  | authLogout (l : ConLine)
  /-- AUTH_OBSERVE (R560). Console command that returns the console to OBSERVE. -/
  | authObserve (l : ConLine)
  /-- CJ_FROM (R567). Console command that returns COMMAND records from a CJN upward. -/
  | cjFrom (l : ConLine) (n : Nat)
  /-- CJ_TAIL (R567). Console command that returns the last k COMMAND records. -/
  | cjTail (l : ConLine) (k : Nat)
  /-- STATE (R583). Console command that returns the STATE reply. -/
  | state (l : ConLine)
  /-- ATTEST (R119). Console command that returns a signed ATTEST quote. -/
  | attest (l : ConLine) (nonce : Option Digest)
  /-- RESET_DEVICE (R581). Console command that flushes the journal and resets the device with RSTCAUSE.CMD. -/
  | resetDevice (l : ConLine)
  /-- STAGE_BEGIN (R578). Console command that opens the staging buffer with a size. -/
  | stageBegin (l : ConLine) (n : Nat)
  /-- STAGE_DATA (R578). Console command that writes hex groups into the open staging buffer. -/
  | stageData (l : ConLine) (off : Nat) (g : List Word32)
  /-- STAGE_END (R578). Console command that checks completeness and digest and closes the staging buffer. -/
  | stageEnd (l : ConLine) (d : Digest)
  /-- STAGE_DROP (R578). Console command that empties the staging buffer. -/
  | stageDrop (l : ConLine)
  /-- COMMISSION_JKEY_HASH (R112). Console command that programs the jurisdiction approval-key hash under PROG_EN. -/
  | commissionJkeyHash (l : ConLine) (hash : Digest) (progEn fuseOk : Bool)
  /-- COMMISSION_OPKEY (R111). Console command that programs the hash of the staged operator key into the next free slot. -/
  | commissionOpkey (l : ConLine) (fuseOk : Bool)
  /-- COMMISSION_ROLE (R112). Console command that writes the role and the genesis digests, and flushes the retained commands. -/
  | commissionRole (l : ConLine) (role : Nat) (fuseOk : Bool)
  /-- REVOKE_OPKEY (R111). Console command that sets the revocation bit of an operator key slot. -/
  | revokeOpkey (l : ConLine) (slot : Nat) (fuseOk : Bool)
  /-- SET_ECLASS (R584). Console command that stores a signed board declaration and applies it now or at the next S7. -/
  | setEclass (l : ConLine)
  /-- IMPORT_KEY (R391). Console command that imports a tenant KEK from a staged envelope. -/
  | importKey (l : ConLine) (t : Nat) (key : Option (BitVec 256))
  /-- OPEN_MGMT (R389). Console command that opens a DEVMGMT session from a staged envelope. -/
  | openMgmt (l : ConLine) (key : Option (BitVec 256))
  /-- LOAD_IMAGE (R585). Console command that verifies and writes a staged firmware image to the slot that is not running. -/
  | loadImage (l : ConLine) (slot : Option Nat) (im : Option Image)
  /-- COMMIT_IMAGE (R115). Console command that advances the rollback counter to the running image's ROLLBACK. -/
  | commitImage (l : ConLine) (fuseOk : Bool)
  /-- LOAD_RULES (R116). Console command that loads a signed rule program for a tenant and recomputes TM_t. -/
  | loadRules (l : ConLine) (t : Nat)
  /-- LOAD_DICT (R432). Console command that loads a compression dictionary as a CONFIG DICT grain. -/
  | loadDict (l : ConLine) (t : Nat)
  /-- LOAD_LEAPS (R144). Console command that loads and checks a new leap-second table. -/
  | loadLeaps (l : ConLine)
  /-- SHOW_TIME (R590). Console command that shows time quality, u, offsets and PPS_OUT error. -/
  | showTime (l : ConLine)
  /-- SET_TIME (R143). Console command that sets the time base during S8 with a declared uncertainty. -/
  | setTime (l : ConLine) (at_ : Instant) (u : Nat)
  /-- STEP_TIME (R154). Console command that steps the time base to a reference, suspending books first in LIVE. -/
  | stepTime (l : ConLine) (ref : Nat) (off : Int)
  /-- SET_TIMEREF (R153). Console command that enables or disables a time reference. -/
  | setTimeref (l : ConLine) (ref : Nat) (on : Bool)
  /-- SET_BOOK (R161). Console command that writes a book's parting instant and margin. -/
  | setBook (l : ConLine) (t b : Nat) (at_ : Option Instant) (margin : Option Nat)
  /-- OPEN_BOOK (R58). Console command that opens a DORMANT book. -/
  | openBook (l : ConLine) (t b : Nat)
  /-- SUSPEND_BOOK (R59). Console command that sets cause OPERATOR in one book. -/
  | suspendBook (l : ConLine) (t b : Nat)
  /-- SUSPEND_TENANT (R60). Console command that sets cause OPERATOR in every OPEN and SUSPENDED book of a tenant. -/
  | suspendTenant (l : ConLine) (t : Nat)
  /-- RESUME_BOOK (R586). Console command that clears named causes in one book. -/
  | resumeBook (l : ConLine) (t b : Nat) (causes : List Nat)
  /-- RESUME_TENANT (R586). Console command that clears named causes in a tenant's books. -/
  | resumeTenant (l : ConLine) (t : Nat) (causes : List Nat)
  /-- RESUME_DEVICE (R586). Console command that clears named causes in every tenant's books. -/
  | resumeDevice (l : ConLine) (causes : List Nat)
  /-- SETTLE_BOOK (R587). Console command that writes a SETTLE grain for a CLOSED book. -/
  | settleBook (l : ConLine) (t b : Nat)
  /-- RELEASE_BOOK (R587). Console command that returns a settled CLOSED book to DORMANT. -/
  | releaseBook (l : ConLine) (t b : Nat)
  /-- SHOW_JOURNAL (R590). Console command that shows a stream's commit state and numbers. -/
  | showJournal (l : ConLine) (t : Nat)
  /-- RETIRE (R439). Console command that retires a prefix of Heartwood segments after a durable RETIRE grain; its reply waits for the erases. -/
  | retire (l : ConLine) (t seq : Nat)
  /-- MIRROR_REATTACH (R413). Console command on the shadow that opens a new epoch for a DIVERGED tenant. -/
  | mirrorReattach (l : ConLine) (t : Nat)
  /-- REPLAY_START (R536). Console command that configures and starts a replay run, or is refused with a reason. -/
  | replayStart (l : ConLine) (t fr th : Nat) (cross : Bool)
  /-- REPLAY_CLEAR (R534). Console command that erases a tenant's import set and replay journal. -/
  | replayClear (l : ConLine) (t : Nat) (set journal : Bool)
  /-- SHOW_TAMPER (R590). Console command that shows tamper latches, zeroization state and the vault log. -/
  | showTamper (l : ConLine)
  /-- CLEAR_TAMPER (R125). Console command that clears tamper latches at REGULATE on CON1. -/
  | clearTamper (l : ConLine) (mask : Nat)
  /-- WITNESS_PAIR (R512). Console command that pairs a witness tag from a staged envelope. -/
  | witnessPair (l : ConLine) (kind : Nat) (key : Option (BitVec 256))
  /-- WITNESS_UNPAIR (R512). Console command that sends LEAVE and removes a tag. -/
  | witnessUnpair (l : ConLine) (a : Nat)
  /-- WITNESS_LOOP_CAL (R517). Console command that calibrates a loop's LOOPNOM over 100 pulses. -/
  | witnessLoopCal (l : ConLine) (n : Nat)
  /-- SHOW_WITNESS (R590). Console command that shows the mesh state or one tag entry. -/
  | showWitness (l : ConLine) (tag : Option Nat)
  /-- SHOW_BOOK (R590). Console command that shows a book's state, parting data and late counts. -/
  | showBook (l : ConLine) (t b : Nat)
  /-- SHOW_GRAIN (R590). Console command that shows a durable grain, or PENDING or EXPIRED. -/
  | showGrain (l : ConLine) (t seq : Nat) (body : Bool)
  /-- SHOW_SESSION (R590). Console command that shows a session's window and counts. -/
  | showSession (l : ConLine) (t session : Nat)
  /-- SHOW_CTX (R590). Console command that shows saved registers through the context window in AUDIT or HOLD. -/
  | showCtx (l : ConLine) (t ctx : Nat) (regs : List Nat)
  /-- SHOW_MEDIA (R590). Console command that shows flash state, die indicators or relocation entries. -/
  | showMedia (l : ConLine) (die reloc : Option Nat)
  /-- SHOW_POWER (R590). Console command that shows calibration, energy figures, CWIN and VBAT. -/
  | showPower (l : ConLine)
  /-- SHOW_MIRROR (R590). Console command that shows the mirror link and per-tenant lag. -/
  | showMirror (l : ConLine) (t : Option Nat)
  /-- SHOW_REPLAY (R590). Console command that shows the import set or the run status. -/
  | showReplay (l : ConLine) (import_ : Option Nat)
  /-- SHOW_TENANT (R590). Console command that shows a tenant's configuration. -/
  | showTenant (l : ConLine) (t : Nat)
  /-- SHOW_LANE (R590). Console command that shows a lane's state, margin and counters. -/
  | showLane (l : ConLine) (k : Nat)
  /-- SEALED_STEP_COMPLETE (R105). The work of a SEALED step (DRAM training, image check, flash scan and tail recovery, runtime load, calibration, acquisition) completes and the next step begins. -/
  | sealedStepComplete (f : BootFacts)
  /-- SWEEP_COMPLETE (R309). The initial DRAM sweep after S2 ends and MEM.SWEEP returns to 0. -/
  | sweepComplete
  /-- PFAIL_GLITCH (R479). A PFAIL# low pulse shorter than 200 ns is ignored and counted in PWR.PFGLITCH. -/
  | pfailGlitch
  /-- VBAT_LOST (R104). VBAT fails or falls below 2.0 V while main power is off, and the vault contents are lost. -/
  | vbatLost
  /-- PLL_LOCK_REGAINED (R133). While the root PLL holds with no usable input, an input becomes usable and the PLL locks to it at once. -/
  | pllLockRegained (inp : Nat)
  /-- PDELAY_RESP (R140). A Pdelay_Resp from the peer completes a peer-to-peer delay measurement for a P2P grandmaster. -/
  | pdelayResp (m : PtpMsg) (sent : Int) (var : Nat)
  /-- LEAP_TABLE_INSTANT (R146). The time base reaches a leap-table entry instant or its validity end, so LEAPOFF changes or UTCSTALE sets. -/
  | leapTableInstant
  /-- DOMAIN_RESET_END (R89). A posted block's slow domain leaves reset, STAT.RST returns to 0 and, for WIT, the mesh starts again with a new epoch. -/
  | domainResetEnd (block : Nat)
  /-- FLASH_OPERATION_COMPLETE (R440). The flash erases or programs that a command waits for (RETIRE, LOAD IMAGE) complete and the waiting reply is formed. -/
  | flashOperationComplete (bad : List Nat)
  /-- DQ_TRAINING (R449). A flash die's temperature has moved 20 °C since its last training, and duty-cycle, read DQ and write DQ training run. -/
  | dqTraining (d : Nat) (temp : Int)
  /-- RTS_ASSERTED (R549). The host asserts RTS on a console and the device resumes sending a waiting reply and queued EVT lines. -/
  | rtsAsserted (con : Nat)
  /-- FRAME_DISCARD (R14). A received frame that is not a handled AWP, ARP, ICMP or PTP message is discarded at A1 or A2, or as an unsupported PTP message, and counted. -/
  | frameDiscard (lane : Nat) (atA2 : Bool)
deriving DecidableEq, Repr

end Sys2Proof
end

