-- ==== Sys2Proof/Machine/RegTable.lean ====
section
/-! DEFINITION. The register tables of the specification as data: Tables 3.7, 4.8, 5.6, 5.7, 6.4, 11.5, 11.6, 12.6,
13.3, 14.6, 15.9, 15.10, 16.3, 17.6, 18.4, 19.4, 20.8, 21.5, 22.5 and 24.8, one row per field. A row gives the
offset with its two repetition counts and strides, the low bit and width, the access code, whether the field is
buffered (R81), whether it is a statistics counter with a SNAP holding register (R94), the reset value and the range
of values the table defines (R75). -/
namespace Sys2Proof.Machine

/-- Access codes of the register tables (00_scope: RO, RW, W1C, KW). -/
inductive Acc where
  | ro | rw | kw | w1c
deriving DecidableEq, Repr

/-- One field row of a register table. -/
structure Fld where
  off : Nat
  n1 : Nat
  s1 : Nat
  n2 : Nat
  s2 : Nat
  lo : Nat
  w : Nat
  acc : Acc
  bu : Bool
  ctr : Bool
  rst : Nat
  mn : Nat
  mx : Nat
deriving DecidableEq, Repr

/-- Rows of Table 3.7 (R102), part 0. -/
def fldsSYS0 : List Fld := [
  ⟨0x0000, 1, 0, 1, 0, 0, 8, .ro, false, false, 0x0, 0, 0xFF⟩, -- ID
  ⟨0x0000, 1, 0, 1, 0, 8, 8, .ro, false, false, 0x1, 0, 0xFF⟩, -- VER
  ⟨0x0004, 1, 0, 1, 0, 0, 32, .rw, false, false, 0x0, 0, 0xFFFFFFFF⟩, -- UNLOCK
  ⟨0x0008, 1, 0, 1, 0, 0, 1, .ro, false, false, 0x0, 0, 0x1⟩, -- BUSY
  ⟨0x0008, 1, 0, 1, 0, 1, 1, .w1c, false, false, 0x0, 0, 0x1⟩, -- WRDROP
  ⟨0x0008, 1, 0, 1, 0, 2, 1, .w1c, false, false, 0x0, 0, 0x1⟩, -- KEYFAIL
  ⟨0x0008, 1, 0, 1, 0, 3, 1, .ro, false, false, 0x0, 0, 0x1⟩, -- RST
  ⟨0x0008, 1, 0, 1, 0, 4, 1, .w1c, false, false, 0x0, 0, 0x1⟩, -- RSTDROP
  ⟨0x0008, 1, 0, 1, 0, 5, 1, .w1c, false, false, 0x0, 0, 0x1⟩, -- PARTIAL
  ⟨0x0008, 1, 0, 1, 0, 6, 1, .w1c, false, false, 0x0, 0, 0x1⟩, -- BADVAL
  ⟨0x0010, 1, 0, 1, 0, 0, 16, .ro, false, false, 0x4864, 0, 0xFFFF⟩, -- PART
  ⟨0x0010, 1, 0, 1, 0, 16, 4, .ro, false, false, 0x2, 0, 0xF⟩, -- STEP
  ⟨0x0014, 1, 0, 1, 0, 0, 2, .ro, false, false, 0x0, 0, 0x3⟩, -- ROLE
  ⟨0x0020, 1, 0, 1, 0, 0, 3, .kw, false, false, 0x1, 0, 0x7⟩, -- MODE
  ⟨0x0020, 1, 0, 1, 0, 3, 1, .ro, false, false, 0x0, 0, 0x1⟩ -- DRAIN
]

/-- Rows of Table 3.7 (R102), part 1. -/
def fldsSYS1 : List Fld := [
  ⟨0x0020, 1, 0, 1, 0, 8, 1, .w1c, false, false, 0x0, 0, 0x1⟩, -- MODEREF
  ⟨0x0028, 1, 0, 1, 0, 0, 32, .ro, false, false, 0x0, 0, 0xFFFFFFFF⟩, -- MODE_EFF_LO
  ⟨0x002C, 1, 0, 1, 0, 0, 32, .ro, false, false, 0x0, 0, 0xFFFFFFFF⟩, -- MODE_EFF_HI
  ⟨0x0030, 1, 0, 1, 0, 0, 16, .rw, false, false, 0x0, 0, 0xFFFF⟩, -- UPDATE
  ⟨0x0034, 1, 0, 1, 0, 0, 16, .ro, false, false, 0x0, 0, 0xFFFF⟩, -- PEND
  ⟨0x0034, 1, 0, 1, 0, 16, 16, .w1c, false, false, 0x0, 0, 0xFFFF⟩, -- REFUSED
  ⟨0x0038, 1, 0, 1, 0, 0, 16, .ro, false, false, 0xBB09, 0, 0xFFFF⟩, -- LIVESAFE
  ⟨0x0038, 1, 0, 1, 0, 16, 16, .ro, false, false, 0xA000, 0, 0xFFFF⟩, -- REPLAYOK
  ⟨0x0040, 1, 0, 1, 0, 0, 32, .rw, false, false, 0x0, 0, 0xFFFFFFFF⟩, -- SNAP
  ⟨0x0044, 1, 0, 1, 0, 0, 32, .ro, false, false, 0x0, 0, 0xFFFFFFFF⟩, -- SNAPSEQ
  ⟨0x0048, 1, 0, 1, 0, 0, 32, .ro, false, false, 0x0, 0, 0xFFFFFFFF⟩, -- TMRFIX
  ⟨0x0050, 1, 0, 1, 0, 0, 32, .ro, false, false, 0x0, 0, 0xFFFFFFFF⟩, -- CYCLE_LO
  ⟨0x0054, 1, 0, 1, 0, 0, 32, .ro, false, false, 0x0, 0, 0xFFFFFFFF⟩, -- CYCLE_HI
  ⟨0x0060, 1, 0, 1, 0, 0, 32, .ro, false, false, 0x0, 0, 0xFFFFFFFF⟩, -- BUSERR_ADDR_LO
  ⟨0x0064, 1, 0, 1, 0, 0, 14, .ro, false, false, 0x0, 0, 0x3FFF⟩ -- BUSERR_ADDR_HI
]

/-- Rows of Table 3.7 (R102), part 2. -/
def fldsSYS2 : List Fld := [
  ⟨0x0068, 1, 0, 1, 0, 0, 1, .w1c, false, false, 0x0, 0, 0x1⟩, -- VALID
  ⟨0x0068, 1, 0, 1, 0, 1, 1, .ro, false, false, 0x0, 0, 0x1⟩, -- WRITE
  ⟨0x0068, 1, 0, 1, 0, 4, 4, .ro, false, false, 0x0, 0, 0xF⟩, -- REASON
  ⟨0x0068, 1, 0, 1, 0, 8, 8, .ro, false, false, 0x0, 0, 0xFF⟩, -- REQ
  ⟨0x006C, 1, 0, 1, 0, 0, 32, .ro, false, false, 0x0, 0, 0xFFFFFFFF⟩, -- BUSERR_CNT
  ⟨0x0070, 1, 0, 1, 0, 0, 8, .ro, false, false, 0x0, 0, 0xFF⟩, -- REQID
  ⟨0x0080, 1, 0, 1, 0, 0, 1, .kw, true, false, 0x1, 0, 0x1⟩, -- CON0EVT
  ⟨0x0080, 1, 0, 1, 0, 1, 1, .kw, true, false, 0x1, 0, 0x1⟩, -- CON1EVT
  ⟨0x0080, 1, 0, 1, 0, 2, 1, .kw, true, false, 0x0, 0, 0x1⟩ -- TMREVT
]

/-- Table 3.7 (R102). -/
def fldsSYS : List Fld :=
  fldsSYS0 ++ fldsSYS1 ++ fldsSYS2

/-- Rows of Table 4.8 (R131), part 0. -/
def fldsSEC0 : List Fld := [
  ⟨0x0010, 1, 0, 1, 0, 0, 4, .ro, false, false, 0x0, 0, 0xF⟩, -- STEP
  ⟨0x0010, 1, 0, 1, 0, 4, 1, .ro, false, false, 0x0, 0, 0x1⟩, -- DONE
  ⟨0x0010, 1, 0, 1, 0, 5, 1, .ro, false, false, 0x0, 0, 0x1⟩, -- FAIL
  ⟨0x0010, 1, 0, 1, 0, 6, 1, .ro, false, false, 0x0, 0, 0x1⟩, -- SLOT
  ⟨0x0010, 1, 0, 1, 0, 7, 1, .ro, false, false, 0x0, 0, 0x1⟩, -- RECOVERY
  ⟨0x0014, 1, 0, 1, 0, 0, 5, .ro, false, false, 0x0, 0, 0x1F⟩, -- RSTCAUSE
  ⟨0x0018, 1, 0, 1, 0, 0, 1, .kw, false, false, 0x0, 0, 0x1⟩, -- PATCH
  ⟨0x0018, 1, 0, 1, 0, 1, 1, .kw, false, false, 0x0, 0, 0x1⟩, -- DEBUG
  ⟨0x0018, 1, 0, 1, 0, 2, 1, .kw, false, false, 0x0, 0, 0x1⟩, -- MEASURE
  ⟨0x0020, 1, 0, 1, 0, 0, 1, .ro, false, false, 0x0, 0, 0x1⟩, -- JPRESENT
  ⟨0x0020, 1, 0, 1, 0, 4, 2, .ro, false, false, 0x0, 0, 0x3⟩, -- OPSLOT
  ⟨0x0020, 1, 0, 1, 0, 8, 4, .ro, false, false, 0x0, 0, 0xF⟩, -- OPREVOKED
  ⟨0x0020, 1, 0, 1, 0, 16, 7, .ro, false, false, 0x0, 0, 0x7F⟩, -- ROLLBACK
  ⟨0x0024, 1, 0, 1, 0, 0, 32, .ro, false, false, 0x0, 0, 0xFFFFFFFF⟩, -- BOOTCNT
  ⟨0x0028, 1, 0, 1, 0, 0, 32, .ro, false, false, 0x0, 0, 0xFFFFFFFF⟩ -- IMGVER
]

/-- Rows of Table 4.8 (R131), part 1. -/
def fldsSEC1 : List Fld := [
  ⟨0x002C, 1, 0, 1, 0, 0, 32, .ro, false, false, 0x0, 0, 0xFFFFFFFF⟩, -- IMGRB
  ⟨0x0040, 1, 0, 1, 0, 0, 10, .rw, false, false, 0x0, 0, 0x3FF⟩, -- MEAS_ADDR
  ⟨0x0044, 1, 0, 1, 0, 0, 32, .ro, false, false, 0x0, 0, 0xFFFFFFFF⟩, -- MEAS_DATA
  ⟨0x0050, 1, 0, 1, 0, 0, 8, .w1c, false, false, 0x0, 0, 0xFF⟩, -- LOOP
  ⟨0x0050, 1, 0, 1, 0, 8, 1, .w1c, false, false, 0x0, 0, 0x1⟩, -- WIT
  ⟨0x0050, 1, 0, 1, 0, 9, 1, .w1c, false, false, 0x0, 0, 0x1⟩, -- WITLOSS
  ⟨0x0050, 1, 0, 1, 0, 10, 1, .w1c, false, false, 0x0, 0, 0x1⟩, -- VGLITCH
  ⟨0x0050, 1, 0, 1, 0, 11, 1, .w1c, false, false, 0x0, 0, 0x1⟩, -- TEMP
  ⟨0x0050, 1, 0, 1, 0, 12, 1, .w1c, false, false, 0x0, 0, 0x1⟩, -- CLK
  ⟨0x0050, 1, 0, 1, 0, 13, 1, .w1c, false, false, 0x0, 0, 0x1⟩, -- VBAT
  ⟨0x0050, 1, 0, 1, 0, 14, 1, .ro, false, false, 0x0, 0, 0x1⟩, -- SUSPPEND
  ⟨0x0054, 1, 0, 1, 0, 0, 1, .ro, false, false, 0x0, 0, 0x1⟩, -- ZEROIZED
  ⟨0x0054, 1, 0, 1, 0, 1, 1, .ro, false, false, 0x0, 0, 0x1⟩, -- ZPEND
  ⟨0x0054, 1, 0, 1, 0, 8, 8, .ro, false, false, 0x0, 0, 0xFF⟩, -- ZCOUNT
  ⟨0x0058, 1, 0, 1, 0, 0, 32, .ro, false, false, 0x0, 0, 0xFFFFFFFF⟩ -- TLOGOVF
]

/-- Rows of Table 4.8 (R131), part 2. -/
def fldsSEC2 : List Fld := [
  ⟨0x0060, 8, 4, 1, 0, 0, 2, .kw, true, false, 0x2, 0, 0x3⟩, -- OPEN
  ⟨0x0060, 8, 4, 1, 0, 2, 2, .kw, true, false, 0x2, 0, 0x3⟩, -- SHORT
  ⟨0x0060, 8, 4, 1, 0, 4, 2, .kw, true, false, 0x0, 0, 0x3⟩, -- DRIFT
  ⟨0x0060, 8, 4, 1, 0, 8, 1, .kw, true, false, 0x0, 0, 0x1⟩, -- ENABLE
  ⟨0x0080, 1, 0, 1, 0, 0, 2, .kw, true, false, 0x0, 0, 0x3⟩, -- DOOR
  ⟨0x0080, 1, 0, 1, 0, 2, 2, .kw, true, false, 0x1, 0, 0x3⟩, -- SEAL
  ⟨0x0080, 1, 0, 1, 0, 4, 2, .kw, true, false, 0x1, 0, 0x3⟩, -- CABLE
  ⟨0x0080, 1, 0, 1, 0, 6, 2, .kw, true, false, 0x1, 0, 0x3⟩, -- TAGTAMPER
  ⟨0x0080, 1, 0, 1, 0, 8, 2, .kw, true, false, 0x0, 0, 0x3⟩, -- REPLAY
  ⟨0x0080, 1, 0, 1, 0, 10, 2, .kw, true, false, 0x1, 0, 0x3⟩, -- LOSS
  ⟨0x0084, 1, 0, 1, 0, 0, 2, .kw, true, false, 0x2, 0, 0x3⟩, -- VGLITCH
  ⟨0x0084, 1, 0, 1, 0, 2, 2, .kw, true, false, 0x2, 0, 0x3⟩, -- TEMP
  ⟨0x0084, 1, 0, 1, 0, 4, 2, .kw, true, false, 0x2, 0, 0x3⟩ -- CLK
]

/-- Table 4.8 (R131). -/
def fldsSEC : List Fld :=
  fldsSEC0 ++ fldsSEC1 ++ fldsSEC2

/-- Rows of Table 5.6 (R157), part 0. -/
def fldsCLK0 : List Fld := [
  ⟨0x0010, 1, 0, 1, 0, 0, 2, .ro, false, false, 0x3, 0, 0x3⟩, -- SRC
  ⟨0x0010, 1, 0, 1, 0, 4, 3, .ro, false, false, 0x0, 0, 0x7⟩, -- USABLE
  ⟨0x0010, 1, 0, 1, 0, 8, 1, .ro, false, false, 0x0, 0, 0x1⟩, -- LOCK
  ⟨0x0020, 1, 0, 1, 0, 0, 4, .kw, true, false, 0x2, 2, 0x4⟩, -- CCLK
  ⟨0x0024, 1, 0, 1, 0, 0, 4, .ro, false, false, 0x2, 0, 0xF⟩, -- CCLKEFF
  ⟨0x0024, 1, 0, 1, 0, 4, 1, .ro, false, false, 0x0, 0, 0x1⟩, -- THROT
  ⟨0x0028, 1, 0, 1, 0, 0, 4, .ro, false, false, 0x2, 0, 0xF⟩, -- MCLK
  ⟨0x0028, 1, 0, 1, 0, 4, 4, .ro, false, false, 0x4, 0, 0xF⟩, -- FCLK
  ⟨0x0028, 1, 0, 1, 0, 8, 4, .ro, false, false, 0x8, 0, 0xF⟩, -- TCLK
  ⟨0x0028, 1, 0, 1, 0, 12, 4, .ro, false, false, 0x8, 0, 0xF⟩, -- NCLK
  ⟨0x0028, 1, 0, 1, 0, 16, 5, .ro, false, false, 0x10, 0, 0x1F⟩, -- PCLK
  ⟨0x002C, 1, 0, 1, 0, 0, 8, .ro, false, false, 0x28, 0, 0xFF⟩, -- XREF
  ⟨0x002C, 1, 0, 1, 0, 8, 8, .ro, false, false, 0xA0, 0, 0xFF⟩, -- WREF
  ⟨0x0030, 1, 0, 1, 0, 0, 1, .kw, true, false, 0x0, 0, 0x1⟩, -- REFPRI
  ⟨0x0040, 1, 0, 1, 0, 0, 32, .ro, false, true, 0x0, 0, 0xFFFFFFFF⟩ -- SWITCHCNT
]

/-- Table 5.6 (R157). -/
def fldsCLK : List Fld :=
  fldsCLK0

/-- Rows of Table 5.7 (R158), part 0. -/
def fldsTIM0 : List Fld := [
  ⟨0x0010, 1, 0, 1, 0, 0, 32, .ro, false, false, 0x0, 0, 0xFFFFFFFF⟩, -- TAI_LO
  ⟨0x0014, 1, 0, 1, 0, 0, 32, .ro, false, false, 0x0, 0, 0xFFFFFFFF⟩, -- TAI_HI
  ⟨0x0018, 1, 0, 1, 0, 0, 32, .ro, false, false, 0xFFFFFFFF, 0, 0xFFFFFFFF⟩, -- U
  ⟨0x001C, 1, 0, 1, 0, 0, 3, .ro, false, false, 0x0, 0, 0x7⟩, -- QUAL
  ⟨0x001C, 1, 0, 1, 0, 4, 1, .ro, false, false, 0x0, 0, 0x1⟩, -- SLEW
  ⟨0x001C, 1, 0, 1, 0, 5, 1, .ro, false, false, 0x0, 0, 0x1⟩, -- UTCSTALE
  ⟨0x001C, 1, 0, 1, 0, 8, 4, .ro, false, false, 0x0, 0, 0xF⟩, -- GOOD
  ⟨0x001C, 1, 0, 1, 0, 12, 2, .ro, false, false, 0x0, 0, 0x3⟩, -- STEER
  ⟨0x001C, 1, 0, 1, 0, 14, 1, .ro, false, false, 0x0, 0, 0x1⟩, -- STEERVALID
  ⟨0x0020, 1, 0, 1, 0, 0, 32, .kw, true, false, 0xF4240, 1000, 0x989680⟩, -- UMAX
  ⟨0x0024, 1, 0, 1, 0, 0, 16, .kw, true, false, 0x3E8, 50, 0xFFFF⟩, -- DRIFT
  ⟨0x0028, 1, 0, 1, 0, 0, 16, .kw, true, false, 0x3E8, 50, 0xFFFF⟩, -- AGING
  ⟨0x002C, 1, 0, 1, 0, 0, 16, .kw, true, false, 0x64, 0, 0xFFFF⟩, -- ACC.PPS
  ⟨0x002C, 1, 0, 1, 0, 16, 16, .kw, true, false, 0x1F4, 0, 0xFFFF⟩, -- ACC.PTP
  ⟨0x0030, 1, 0, 1, 0, 0, 16, .kw, true, false, 0xE10, 0, 0xFFFF⟩ -- ACQ.LIMIT
]

/-- Rows of Table 5.7 (R158), part 1. -/
def fldsTIM1 : List Fld := [
  ⟨0x0030, 1, 0, 1, 0, 16, 8, .kw, true, false, 0x2, 0, 0xFF⟩, -- ACQ.WAIT
  ⟨0x0034, 1, 0, 1, 0, 0, 8, .kw, true, false, 0xE4, 0, 0xFF⟩, -- PRIO
  ⟨0x0034, 1, 0, 1, 0, 8, 1, .kw, true, false, 0x0, 0, 0x1⟩, -- BRHOLD
  ⟨0x0034, 1, 0, 1, 0, 9, 1, .kw, true, false, 0x0, 0, 0x1⟩, -- PPSSTEP
  ⟨0x0034, 1, 0, 1, 0, 16, 8, .kw, true, false, 0x64, 1, 0xC8⟩, -- PPSW
  ⟨0x0038, 1, 0, 1, 0, 0, 4, .kw, false, false, 0x3, 0, 0xF⟩, -- REFEN
  ⟨0x003C, 1, 0, 1, 0, 0, 16, .ro, false, false, 0x0, 0, 0xFFFF⟩, -- LEAPOFF
  ⟨0x0040, 4, 4, 1, 0, 0, 32, .ro, false, false, 0x0, 0, 0xFFFFFFFF⟩, -- OFF
  ⟨0x0050, 1, 0, 1, 0, 0, 32, .ro, false, false, 0x0, 0, 0xFFFFFFFF⟩, -- PPSERR
  ⟨0x0054, 1, 0, 1, 0, 0, 32, .ro, false, false, 0xFFFFFFFF, 0, 0xFFFFFFFF⟩, -- SINCE
  ⟨0x0058, 1, 0, 1, 0, 0, 32, .ro, false, false, 0x0, 0, 0xFFFFFFFF⟩, -- LEAPEND_LO
  ⟨0x005C, 1, 0, 1, 0, 0, 32, .ro, false, false, 0x0, 0, 0xFFFFFFFF⟩, -- LEAPEND_HI
  ⟨0x0060, 2, 16, 1, 0, 0, 6, .kw, true, false, 0x0, 0, 0x2F⟩, -- LANE
  ⟨0x0060, 2, 16, 1, 0, 8, 7, .kw, true, false, 0x0, 0, 0x7F⟩, -- DOMAIN
  ⟨0x0060, 2, 16, 1, 0, 16, 2, .kw, true, false, 0x0, 0, 0x2⟩ -- TRANSPORT
]

/-- Rows of Table 5.7 (R158), part 2. -/
def fldsTIM2 : List Fld := [
  ⟨0x0060, 2, 16, 1, 0, 18, 1, .kw, true, false, 0x0, 0, 0x1⟩, -- P2P
  ⟨0x0064, 2, 16, 1, 0, 0, 32, .kw, true, false, 0x0, 0, 0xFFFFFFFF⟩, -- ID_LO
  ⟨0x0068, 2, 16, 1, 0, 0, 32, .kw, true, false, 0x0, 0, 0xFFFFFFFF⟩, -- ID_HI
  ⟨0x0080, 1, 0, 1, 0, 0, 32, .ro, false, true, 0x0, 0, 0xFFFFFFFF⟩, -- BREACHCNT
  ⟨0x0084, 1, 0, 1, 0, 0, 32, .ro, false, true, 0x0, 0, 0xFFFFFFFF⟩, -- STARVCNT
  ⟨0x0088, 1, 0, 1, 0, 0, 32, .ro, false, true, 0x0, 0, 0xFFFFFFFF⟩ -- REFLOSSCNT
]

/-- Table 5.7 (R158). -/
def fldsTIM : List Fld :=
  fldsTIM0 ++ fldsTIM1 ++ fldsTIM2

/-- Rows of Table 6.4 (R174), part 0. -/
def fldsPRT0 : List Fld := [
  ⟨0x0010, 1, 0, 1, 0, 0, 20, .rw, false, false, 0x0, 0, 0xFFFFF⟩, -- PT_ADDR
  ⟨0x0014, 1, 0, 1, 0, 0, 32, .kw, false, false, 0x0, 0, 0xFFFFFFFF⟩, -- PT_DATA
  ⟨0x0018, 1, 0, 1, 0, 0, 19, .rw, false, false, 0x0, 0, 0x7FFFF⟩, -- LC_ADDR
  ⟨0x001C, 1, 0, 1, 0, 0, 32, .ro, false, false, 0x0, 0, 0xFFFFFFFF⟩, -- LC_DATA
  ⟨0x0020, 1, 0, 1, 0, 0, 12, .kw, false, false, 0x0, 0, 0xFFF⟩, -- BOOK
  ⟨0x0020, 1, 0, 1, 0, 12, 6, .kw, false, false, 0x0, 0, 0x3F⟩, -- TENANT
  ⟨0x0020, 1, 0, 1, 0, 18, 2, .kw, false, false, 0x0, 0, 0x2⟩, -- SCOPE
  ⟨0x0020, 1, 0, 1, 0, 20, 4, .kw, false, false, 0x0, 1, 0x5⟩, -- OP
  ⟨0x0024, 1, 0, 1, 0, 0, 3, .rw, false, false, 0x0, 0, 0x4⟩, -- STATE
  ⟨0x0024, 1, 0, 1, 0, 4, 7, .rw, false, false, 0x0, 0, 0x7F⟩, -- CAUSE
  ⟨0x0028, 1, 0, 1, 0, 0, 1, .ro, false, false, 0x0, 0, 0x1⟩, -- DONE
  ⟨0x0028, 1, 0, 1, 0, 1, 1, .ro, false, false, 0x0, 0, 0x1⟩, -- REFUSED
  ⟨0x0028, 1, 0, 1, 0, 4, 4, .ro, false, false, 0x0, 0, 0xF⟩, -- REASON
  ⟨0x0028, 1, 0, 1, 0, 8, 24, .ro, false, false, 0x0, 0, 0xFFFFFF⟩, -- NREF
  ⟨0x002C, 1, 0, 1, 0, 0, 32, .ro, false, false, 0x0, 0, 0xFFFFFFFF⟩ -- EFF_LO
]

/-- Rows of Table 6.4 (R174), part 1. -/
def fldsPRT1 : List Fld := [
  ⟨0x0030, 1, 0, 1, 0, 0, 32, .ro, false, false, 0x0, 0, 0xFFFFFFFF⟩, -- EFF_HI
  ⟨0x0040, 1, 0, 1, 0, 0, 4, .ro, false, false, 0x0, 0, 0xF⟩, -- REASON
  ⟨0x0040, 1, 0, 1, 0, 8, 1, .w1c, false, false, 0x0, 0, 0x1⟩, -- VALID
  ⟨0x0040, 1, 0, 1, 0, 12, 12, .ro, false, false, 0x0, 0, 0xFFF⟩, -- BOOK
  ⟨0x0040, 1, 0, 1, 0, 24, 6, .ro, false, false, 0x0, 0, 0x3F⟩, -- TENANT
  ⟨0x0044, 1, 0, 1, 0, 0, 32, .ro, false, true, 0x0, 0, 0xFFFFFFFF⟩, -- TREFCNT
  ⟨0x0050, 1, 0, 1, 0, 0, 32, .ro, false, true, 0x0, 0, 0xFFFFFFFF⟩, -- PARTCNT
  ⟨0x0054, 1, 0, 1, 0, 0, 32, .ro, false, false, 0x0, 0, 0xFFFFFFFF⟩, -- PARTLAT
  ⟨0x0060, 1, 0, 1, 0, 0, 1, .kw, true, false, 0x1, 0, 0x1⟩, -- PARTEVT
  ⟨0x0060, 1, 0, 1, 0, 1, 1, .kw, true, false, 0x0, 0, 0x1⟩, -- CLOSEEVT
  ⟨0x1000, 64, 8, 1, 0, 0, 32, .ro, false, true, 0x0, 0, 0xFFFFFFFF⟩, -- LATECNT
  ⟨0x1004, 64, 8, 1, 0, 0, 32, .ro, false, true, 0x0, 0, 0xFFFFFFFF⟩ -- LATEUCNT
]

/-- Table 6.4 (R174). -/
def fldsPRT : List Fld :=
  fldsPRT0 ++ fldsPRT1

/-- Rows of Table 11.5 (R311), part 0. -/
def fldsMEM0 : List Fld := [
  ⟨0x0010, 1, 0, 1, 0, 0, 8, .ro, false, false, 0x0, 0, 0xFF⟩, -- POP
  ⟨0x0010, 1, 0, 1, 0, 8, 2, .ro, false, false, 0x0, 0, 0x3⟩, -- SPEED
  ⟨0x0010, 1, 0, 1, 0, 16, 5, .ro, false, false, 0x0, 0, 0x1F⟩, -- DIMMCAP
  ⟨0x0010, 1, 0, 1, 0, 24, 1, .ro, false, false, 0x1, 0, 0x1⟩, -- SWEEP
  ⟨0x0014, 1, 0, 1, 0, 0, 16, .ro, false, false, 0x0, 0, 0xFFFF⟩, -- SIZE
  ⟨0x0020, 1, 0, 1, 0, 0, 8, .kw, true, false, 0x18, 1, 0xA8⟩, -- SCRUBH
  ⟨0x0024, 1, 0, 1, 0, 0, 7, .kw, true, false, 0x4B, 25, 0x64⟩, -- CLEANTHR
  ⟨0x0028, 1, 0, 1, 0, 0, 16, .kw, true, false, 0xFFFF, 1, 0xFFFF⟩, -- MMASK
  ⟨0x0028, 1, 0, 1, 0, 16, 5, .kw, true, false, 0x8, 0, 0x10⟩, -- MCLEANQ
  ⟨0x0030, 1, 0, 1, 0, 0, 32, .ro, false, false, 0x0, 0, 0xFFFFFFFF⟩, -- UEADDR_LO
  ⟨0x0034, 1, 0, 1, 0, 0, 14, .ro, false, false, 0x0, 0, 0x3FFF⟩, -- UEADDR_HI
  ⟨0x0038, 1, 0, 1, 0, 0, 1, .w1c, false, false, 0x0, 0, 0x1⟩, -- VALID
  ⟨0x0038, 1, 0, 1, 0, 4, 3, .ro, false, false, 0x0, 0, 0x7⟩, -- CH
  ⟨0x0038, 1, 0, 1, 0, 8, 2, .ro, false, false, 0x0, 0, 0x3⟩, -- SRC
  ⟨0x0100, 8, 8, 1, 0, 0, 32, .ro, false, true, 0x0, 0, 0xFFFFFFFF⟩ -- CECNT
]

/-- Rows of Table 11.5 (R311), part 1. -/
def fldsMEM1 : List Fld := [
  ⟨0x0104, 8, 8, 1, 0, 0, 32, .ro, false, true, 0x0, 0, 0xFFFFFFFF⟩, -- UECNT
  ⟨0x0140, 8, 4, 1, 0, 0, 5, .ro, false, false, 0x0, 0, 0x1F⟩, -- DEV
  ⟨0x0140, 8, 4, 1, 0, 7, 1, .ro, false, false, 0x0, 0, 0x1⟩, -- FAILED
  ⟨0x0180, 1, 0, 1, 0, 0, 32, .ro, false, true, 0x0, 0, 0xFFFFFFFF⟩, -- L3DECQ
  ⟨0x0184, 1, 0, 1, 0, 0, 32, .ro, false, true, 0x0, 0, 0xFFFFFFFF⟩, -- L3DECT
  ⟨0x0188, 1, 0, 1, 0, 0, 32, .ro, false, true, 0x0, 0, 0xFFFFFFFF⟩, -- DIRBI
  ⟨0x0800, 64, 4, 1, 0, 0, 16, .kw, true, false, 0xFFFF, 1, 0xFFFF⟩, -- L3MASK
  ⟨0x0800, 64, 4, 1, 0, 16, 5, .kw, true, false, 0x8, 0, 0x10⟩, -- CLEANQ
  ⟨0x1000, 64, 32, 4, 8, 0, 25, .kw, true, false, 0x0, 0, 0x1FFFFFF⟩, -- WBASE
  ⟨0x1004, 64, 32, 4, 8, 0, 25, .kw, true, false, 0x0, 0, 0x1FFFFFF⟩ -- WLIMIT
]

/-- Table 11.5 (R311). -/
def fldsMEM : List Fld :=
  fldsMEM0 ++ fldsMEM1

/-- Rows of Tables 11.6 and 13.3 (R312, R354), part 0. -/
def fldsCLU0 : List Fld := [
  ⟨0x0010, 1, 0, 1, 0, 0, 8, .rw, true, false, 0xFF, 0, 0xFF⟩, -- PFEN
  ⟨0x0010, 1, 0, 1, 0, 8, 3, .rw, true, false, 0x4, 1, 0x4⟩, -- PFDIST
  ⟨0x0040, 8, 4, 1, 0, 0, 32, .ro, false, true, 0x0, 0, 0xFFFFFFFF⟩, -- L1DMISS
  ⟨0x0060, 8, 4, 1, 0, 0, 32, .ro, false, true, 0x0, 0, 0xFFFFFFFF⟩, -- L1IMISS
  ⟨0x0080, 1, 0, 1, 0, 0, 32, .ro, false, true, 0x0, 0, 0xFFFFFFFF⟩, -- L2HIT
  ⟨0x0084, 1, 0, 1, 0, 0, 32, .ro, false, true, 0x0, 0, 0xFFFFFFFF⟩, -- L2MISS
  ⟨0x0088, 1, 0, 1, 0, 0, 32, .ro, false, true, 0x0, 0, 0xFFFFFFFF⟩, -- PFISSUE
  ⟨0x008C, 1, 0, 1, 0, 0, 32, .ro, false, true, 0x0, 0, 0xFFFFFFFF⟩, -- PFUSE
  ⟨0x0090, 1, 0, 1, 0, 0, 32, .ro, false, true, 0x0, 0, 0xFFFFFFFF⟩, -- CACHECE
  ⟨0x0094, 1, 0, 1, 0, 0, 32, .ro, false, true, 0x0, 0, 0xFFFFFFFF⟩, -- CACHEUE
  ⟨0x0100, 1, 0, 1, 0, 0, 32, .kw, true, false, 0x0, 0, 0xFFFFFFFF⟩, -- PAIR_LO
  ⟨0x0104, 1, 0, 1, 0, 0, 32, .kw, true, false, 0x0, 0, 0xFFFFFFFF⟩, -- PAIR_HI
  ⟨0x0108, 1, 0, 1, 0, 0, 32, .kw, true, false, 0x0, 0, 0xFFFFFFFF⟩, -- STRICT_LO
  ⟨0x010C, 1, 0, 1, 0, 0, 32, .kw, true, false, 0x0, 0, 0xFFFFFFFF⟩, -- STRICT_HI
  ⟨0x0110, 1, 0, 1, 0, 0, 8, .kw, true, false, 0x32, 1, 0xC8⟩ -- PAIRWAIT
]

/-- Rows of Tables 11.6 and 13.3 (R312, R354), part 1. -/
def fldsCLU1 : List Fld := [
  ⟨0x0110, 1, 0, 1, 0, 16, 8, .kw, true, false, 0x64, 1, 0xC8⟩, -- APPWAIT
  ⟨0x0114, 1, 0, 1, 0, 0, 6, .kw, true, false, 0x1, 1, 0x3C⟩, -- RESEED
  ⟨0x0120, 4, 16, 1, 0, 0, 32, .ro, false, true, 0x0, 0, 0xFFFFFFFF⟩, -- ISSUED
  ⟨0x0124, 4, 16, 1, 0, 0, 32, .ro, false, true, 0x0, 0, 0xFFFFFFFF⟩, -- COMPLETED
  ⟨0x0128, 4, 16, 1, 0, 0, 32, .ro, false, true, 0x0, 0, 0xFFFFFFFF⟩, -- CANCELLED
  ⟨0x012C, 4, 16, 1, 0, 0, 32, .ro, false, true, 0x0, 0, 0xFFFFFFFF⟩, -- FAULTED
  ⟨0x0160, 8, 8, 1, 0, 0, 32, .ro, false, false, 0x0, 0, 0xFFFFFFFF⟩, -- EVALSEQ_LO
  ⟨0x0164, 8, 8, 1, 0, 0, 32, .ro, false, false, 0x0, 0, 0xFFFFFFFF⟩, -- EVALSEQ_HI
  ⟨0x01A0, 8, 4, 1, 0, 0, 6, .ro, false, false, 0x0, 0, 0x3F⟩, -- TENANT
  ⟨0x01A0, 8, 4, 1, 0, 8, 1, .ro, false, false, 0x0, 0, 0x1⟩, -- BIND
  ⟨0x01A0, 8, 4, 1, 0, 9, 1, .ro, false, false, 0x0, 0, 0x1⟩, -- PAIRED
  ⟨0x01A0, 8, 4, 1, 0, 16, 16, .ro, false, false, 0x0, 0, 0xFFFF⟩, -- LOGPOS
  ⟨0x01C0, 4, 4, 1, 0, 0, 1, .ro, false, false, 0x0, 0, 0x1⟩, -- RETIRED
  ⟨0x01C0, 4, 4, 1, 0, 2, 2, .ro, false, false, 0x0, 0, 0x3⟩, -- LATWIN
  ⟨0x01C0, 4, 4, 1, 0, 16, 10, .ro, false, false, 0x0, 0, 0x3FF⟩ -- EVALWIN
]

/-- Rows of Tables 11.6 and 13.3 (R312, R354), part 2. -/
def fldsCLU2 : List Fld := [
  ⟨0x01D0, 4, 4, 1, 0, 0, 32, .ro, false, true, 0x0, 0, 0xFFFFFFFF⟩, -- PAIRFCNT
  ⟨0x01E0, 4, 4, 1, 0, 0, 32, .ro, false, true, 0x0, 0, 0xFFFFFFFF⟩, -- LATCNT
  ⟨0x0200, 1, 0, 1, 0, 0, 1, .ro, false, false, 0x0, 0, 0x1⟩, -- HEALTHY
  ⟨0x0200, 1, 0, 1, 0, 1, 1, .w1c, false, false, 0x0, 0, 0x1⟩, -- RCTFAIL
  ⟨0x0200, 1, 0, 1, 0, 2, 1, .w1c, false, false, 0x0, 0, 0x1⟩, -- APTFAIL
  ⟨0x0204, 1, 0, 1, 0, 0, 32, .ro, false, true, 0x0, 0, 0xFFFFFFFF⟩ -- RESEEDCNT
]

/-- Tables 11.6 and 13.3 (R312, R354). -/
def fldsCLU : List Fld :=
  fldsCLU0 ++ fldsCLU1 ++ fldsCLU2

/-- Rows of Table 12.6 (R330), part 0. -/
def fldsUCD0 : List Fld := [
  ⟨0x0010, 1, 0, 1, 0, 0, 16, .ro, false, false, 0x105, 0, 0xFFFF⟩, -- UROM
  ⟨0x0010, 1, 0, 1, 0, 16, 16, .ro, false, false, 0x11, 0, 0xFFFF⟩, -- PATCHID
  ⟨0x0014, 1, 0, 1, 0, 0, 32, .ro, false, false, 0x4C7A90E2, 0, 0xFFFFFFFF⟩, -- SHORT
  ⟨0x0018, 1, 0, 1, 0, 0, 1, .ro, false, false, 0x0, 0, 0x1⟩, -- LOADED
  ⟨0x0018, 1, 0, 1, 0, 1, 10, .ro, false, false, 0x0, 0, 0x3FF⟩, -- NMICRO
  ⟨0x0018, 1, 0, 1, 0, 11, 8, .ro, false, false, 0x0, 0, 0xFF⟩, -- NNANO
  ⟨0x0018, 1, 0, 1, 0, 19, 6, .ro, false, false, 0x0, 0, 0x3F⟩, -- NMATCH
  ⟨0x0020, 1, 0, 1, 0, 0, 11, .rw, false, false, 0x0, 0, 0x7FF⟩, -- PR_ADDR
  ⟨0x0024, 1, 0, 1, 0, 0, 32, .rw, false, false, 0x0, 0, 0xFFFFFFFF⟩, -- PR_DATA
  ⟨0x0030, 1, 0, 1, 0, 0, 19, .kw, true, false, 0x10000, 4096, 0x40000⟩, -- WAITLIM
  ⟨0x0040, 1, 0, 1, 0, 0, 32, .ro, false, true, 0x0, 0, 0xFFFFFFFF⟩, -- TOCNT
  ⟨0x0044, 1, 0, 1, 0, 0, 32, .ro, false, true, 0x0, 0, 0xFFFFFFFF⟩, -- CSCE
  ⟨0x0048, 1, 0, 1, 0, 0, 15, .ro, false, false, 0x0, 0, 0x7FFF⟩, -- TOADDR
  ⟨0x0048, 1, 0, 1, 0, 15, 1, .ro, false, false, 0x0, 0, 0x1⟩, -- REDIR
  ⟨0x0048, 1, 0, 1, 0, 16, 8, .ro, false, false, 0x0, 0, 0xFF⟩ -- TOREQ
]

/-- Rows of Table 12.6 (R330), part 1. -/
def fldsUCD1 : List Fld := [
  ⟨0x0048, 1, 0, 1, 0, 24, 1, .w1c, false, false, 0x0, 0, 0x1⟩, -- VALID
  ⟨0x0100, 32, 4, 1, 0, 0, 32, .ro, false, true, 0x0, 0, 0xFFFFFFFF⟩ -- HITCNT
]

/-- Table 12.6 (R330). -/
def fldsUCD : List Fld :=
  fldsUCD0 ++ fldsUCD1

/-- Rows of Table 14.6 (R372), part 0. -/
def fldsLQ0 : List Fld := [
  ⟨0x0010, 1, 0, 1, 0, 0, 1, .kw, true, false, 0x0, 0, 0x1⟩, -- QMODE
  ⟨0x0010, 1, 0, 1, 0, 8, 1, .kw, true, false, 0x0, 0, 0x1⟩, -- MIRRATE
  ⟨0x0014, 1, 0, 1, 0, 0, 1, .ro, false, false, 0x0, 0, 0x1⟩, -- PLLPLOCK
  ⟨0x0014, 1, 0, 1, 0, 1, 1, .ro, false, false, 0x0, 0, 0x1⟩, -- PLLNLOCK
  ⟨0x0014, 1, 0, 1, 0, 2, 1, .ro, false, false, 0x0, 0, 0x1⟩, -- RATEMIS
  ⟨0x0020, 4, 4, 1, 0, 0, 4, .kw, true, false, 0x0, 0, 0xB⟩, -- TYPE
  ⟨0x0020, 4, 4, 1, 0, 4, 1, .kw, true, false, 0x1, 0, 0x1⟩, -- AN
  ⟨0x0020, 4, 4, 1, 0, 8, 3, .kw, true, false, 0x0, 0, 0x7⟩, -- ADV
  ⟨0x0030, 4, 4, 1, 0, 0, 4, .ro, false, false, 0x0, 0, 0xF⟩, -- RTYPE
  ⟨0x0030, 4, 4, 1, 0, 16, 16, .ro, false, true, 0x0, 0, 0xFFFF⟩, -- ANFAIL
  ⟨0x0040, 4, 8, 1, 0, 0, 32, .kw, true, false, 0x0, 0, 0xFFFFFFFF⟩, -- MAC_LO
  ⟨0x0044, 4, 8, 1, 0, 0, 16, .kw, true, false, 0x0, 0, 0xFFFF⟩, -- MAC_HI
  ⟨0x0100, 4, 64, 1, 0, 0, 1, .rw, false, false, 0x0, 0, 0x1⟩, -- FREEZE
  ⟨0x0104, 4, 64, 1, 0, 0, 8, .kw, false, false, 0xC, 4, 0x3C⟩, -- FLOOR
  ⟨0x0104, 4, 64, 1, 0, 8, 1, .kw, false, false, 0x1, 0, 0x1⟩ -- ADAPT_GUARD
]

/-- Rows of Table 14.6 (R372), part 1. -/
def fldsLQ1 : List Fld := [
  ⟨0x0108, 4, 64, 1, 0, 0, 3, .ro, false, false, 0x0, 0, 0x7⟩, -- STATE
  ⟨0x0108, 4, 64, 1, 0, 4, 1, .ro, false, false, 0x0, 0, 0x1⟩, -- FROZEN
  ⟨0x0108, 4, 64, 1, 0, 5, 1, .ro, false, false, 0x0, 0, 0x1⟩, -- DEGRADED
  ⟨0x0108, 4, 64, 1, 0, 6, 1, .w1c, false, false, 0x0, 0, 0x1⟩, -- OVR
  ⟨0x0108, 4, 64, 1, 0, 7, 1, .w1c, false, false, 0x0, 0, 0x1⟩, -- EQWIGN
  ⟨0x0108, 4, 64, 1, 0, 8, 8, .ro, false, false, 0x0, 0, 0xFF⟩, -- MARGIN
  ⟨0x010C, 4, 64, 1, 0, 0, 16, .ro, false, false, 0x0, 0, 0xFFFF⟩, -- LATRX
  ⟨0x010C, 4, 64, 1, 0, 16, 16, .ro, false, false, 0x0, 0, 0xFFFF⟩, -- LATTX
  ⟨0x0110, 4, 64, 1, 0, 0, 16, .kw, true, false, 0x0, 0, 0xFFFF⟩, -- ADJRX
  ⟨0x0110, 4, 64, 1, 0, 16, 16, .kw, true, false, 0x0, 0, 0xFFFF⟩, -- ADJTX
  ⟨0x0114, 4, 64, 1, 0, 0, 1, .kw, true, false, 0x0, 0, 0x1⟩, -- POLRX
  ⟨0x0114, 4, 64, 1, 0, 1, 1, .kw, true, false, 0x0, 0, 0x1⟩, -- POLTX
  ⟨0x0120, 4, 64, 1, 0, 0, 32, .ro, false, true, 0x0, 0, 0xFFFFFFFF⟩, -- FECCORR
  ⟨0x0124, 4, 64, 1, 0, 0, 32, .ro, false, true, 0x0, 0, 0xFFFFFFFF⟩, -- FECUNC
  ⟨0x0128, 4, 64, 1, 0, 0, 32, .ro, false, true, 0x0, 0, 0xFFFFFFFF⟩ -- SYMERR
]

/-- Rows of Table 14.6 (R372), part 2. -/
def fldsLQ2 : List Fld := [
  ⟨0x012C, 4, 64, 1, 0, 0, 32, .ro, false, true, 0x0, 0, 0xFFFFFFFF⟩, -- LINKDN
  ⟨0x0130, 4, 64, 1, 0, 0, 16, .ro, false, true, 0x0, 0, 0xFFFF⟩, -- OVRCNT
  ⟨0x0130, 4, 64, 1, 0, 16, 16, .ro, false, true, 0x0, 0, 0xFFFF⟩, -- DEGCNT
  ⟨0x0134, 4, 64, 1, 0, 0, 16, .ro, false, false, 0xFFFF, 0, 0xFFFF⟩, -- BERLOG
  ⟨0x0138, 4, 64, 1, 0, 0, 16, .ro, false, true, 0x0, 0, 0xFFFF⟩, -- PAUSERX
  ⟨0x0138, 4, 64, 1, 0, 16, 16, .ro, false, true, 0x0, 0, 0xFFFF⟩, -- TXABORT
  ⟨0x0200, 1, 0, 1, 0, 0, 10, .rw, false, false, 0x0, 0, 0x3FF⟩, -- PHY_ADDR
  ⟨0x0204, 1, 0, 1, 0, 0, 32, .rw, false, false, 0x0, 0, 0xFFFFFFFF⟩ -- PHY_DATA
]

/-- Table 14.6 (R372). -/
def fldsLQ : List Fld :=
  fldsLQ0 ++ fldsLQ1 ++ fldsLQ2

/-- Rows of Table 15.9 (R399), part 0. -/
def fldsAWP0 : List Fld := [
  ⟨0x0010, 1, 0, 1, 0, 0, 16, .kw, true, false, 0x1300, 0, 0xFFFF⟩, -- PORT
  ⟨0x0010, 1, 0, 1, 0, 16, 1, .kw, true, false, 0x0, 0, 0x1⟩, -- PING
  ⟨0x0014, 1, 0, 1, 0, 0, 23, .ro, false, false, 0x0, 0, 0x7FFFFF⟩, -- SESSCNT
  ⟨0x0018, 1, 0, 1, 0, 0, 32, .ro, false, true, 0x0, 0, 0xFFFFFFFF⟩, -- CACHEHIT
  ⟨0x001C, 1, 0, 1, 0, 0, 32, .ro, false, true, 0x0, 0, 0xFFFFFFFF⟩, -- CACHEMISS
  ⟨0x0020, 1, 0, 1, 0, 0, 32, .ro, false, true, 0x0, 0, 0xFFFFFFFF⟩, -- AUTHFAIL
  ⟨0x0024, 1, 0, 1, 0, 0, 32, .ro, false, true, 0x0, 0, 0xFFFFFFFF⟩, -- CTRDROP
  ⟨0x0028, 1, 0, 1, 0, 0, 32, .ro, false, true, 0x0, 0, 0xFFFFFFFF⟩, -- TXLOST
  ⟨0x0100, 64, 4, 1, 0, 0, 32, .ro, false, true, 0x0, 0, 0xFFFFFFFF⟩, -- REJCNT
  ⟨0x0200, 16, 32, 4, 4, 0, 32, .kw, true, false, 0x0, 0, 0xFFFFFFFF⟩, -- ALW_A0-A3
  ⟨0x0210, 16, 32, 1, 0, 0, 8, .kw, true, false, 0x0, 0, 0xFF⟩, -- ALW_PLEN
  ⟨0x0210, 16, 32, 1, 0, 8, 1, .kw, true, false, 0x0, 0, 0x1⟩, -- ALW_V6
  ⟨0x0210, 16, 32, 1, 0, 9, 1, .kw, true, false, 0x0, 0, 0x1⟩, -- ALW_EN
  ⟨0x0400, 48, 16, 1, 0, 0, 32, .ro, false, true, 0x0, 0, 0xFFFFFFFF⟩, -- DROPA1
  ⟨0x0404, 48, 16, 1, 0, 0, 32, .ro, false, true, 0x0, 0, 0xFFFFFFFF⟩ -- DROPA2
]

/-- Rows of Table 15.9 (R399), part 1. -/
def fldsAWP1 : List Fld := [
  ⟨0x0408, 48, 16, 1, 0, 0, 32, .ro, false, true, 0x0, 0, 0xFFFFFFFF⟩, -- DROPA3
  ⟨0x040C, 48, 16, 1, 0, 0, 32, .ro, false, true, 0x0, 0, 0xFFFFFFFF⟩, -- RXOVF
  ⟨0x0800, 48, 32, 1, 0, 0, 32, .kw, true, false, 0x0, 0, 0xFFFFFFFF⟩, -- IPV4
  ⟨0x0804, 48, 32, 1, 0, 0, 1, .kw, true, false, 0x0, 0, 0x1⟩, -- V4EN
  ⟨0x0804, 48, 32, 1, 0, 1, 1, .kw, true, false, 0x0, 0, 0x1⟩, -- V6EN
  ⟨0x0808, 48, 32, 4, 4, 0, 32, .kw, true, false, 0x0, 0, 0xFFFFFFFF⟩, -- IPV6_0-3
  ⟨0x1000, 64, 4, 1, 0, 0, 23, .kw, true, false, 0x10000, 0, 0x7FFFFF⟩, -- SESSMAX
  ⟨0x1100, 64, 4, 1, 0, 0, 32, .ro, false, false, 0x0, 0, 0xFFFFFFFF⟩ -- KEKVER
]

/-- Table 15.9 (R399). -/
def fldsAWP : List Fld :=
  fldsAWP0 ++ fldsAWP1

/-- Rows of Table 15.10 (R400), part 0. -/
def fldsSEQ0 : List Fld := [
  ⟨0x0010, 1, 0, 1, 0, 0, 32, .kw, true, false, 0x0, 0, 0xFFFFFFFF⟩, -- TENEN_LO
  ⟨0x0014, 1, 0, 1, 0, 0, 32, .kw, true, false, 0x0, 0, 0xFFFFFFFF⟩, -- TENEN_HI
  ⟨0x0100, 64, 4, 1, 0, 0, 21, .kw, true, false, 0x10000, 1, 0x100000⟩, -- INFLIGHT
  ⟨0x0200, 64, 4, 1, 0, 0, 6, .kw, true, false, 0x4, 1, 0x20⟩, -- SQUOTA
  ⟨0x0300, 64, 4, 1, 0, 0, 32, .kw, true, false, 0xF4240, 0, 0xFFFFFFFF⟩, -- ILIMIT
  ⟨0x0400, 65, 8, 1, 0, 0, 32, .ro, false, false, 0x0, 0, 0xFFFFFFFF⟩, -- NEXTSEQ_LO
  ⟨0x0404, 65, 8, 1, 0, 0, 32, .ro, false, false, 0x0, 0, 0xFFFFFFFF⟩, -- NEXTSEQ_HI
  ⟨0x0800, 64, 16, 1, 0, 0, 32, .ro, false, true, 0x0, 0, 0xFFFFFFFF⟩, -- SEQCNT
  ⟨0x0804, 64, 16, 1, 0, 0, 21, .ro, false, false, 0x0, 0, 0x1FFFFF⟩, -- PENDING
  ⟨0x0808, 64, 16, 1, 0, 0, 32, .ro, false, true, 0x0, 0, 0xFFFFFFFF⟩, -- BUSYCNT
  ⟨0x080C, 64, 16, 1, 0, 0, 32, .ro, false, true, 0x0, 0, 0xFFFFFFFF⟩ -- QUOTACNT
]

/-- Table 15.10 (R400). -/
def fldsSEQ : List Fld :=
  fldsSEQ0

/-- Rows of Table 16.3 (R419), part 0. -/
def fldsMIR0 : List Fld := [
  ⟨0x0010, 1, 0, 1, 0, 0, 12, .kw, true, false, 0x0, 0, 0xFFF⟩, -- QUADS
  ⟨0x0014, 1, 0, 1, 0, 0, 2, .ro, false, false, 0x0, 0, 0x3⟩, -- LINK
  ⟨0x0014, 1, 0, 1, 0, 4, 12, .ro, false, false, 0x0, 0, 0xFFF⟩, -- UPQ
  ⟨0x0020, 8, 4, 1, 0, 0, 32, .kw, true, false, 0x0, 0, 0xFFFFFFFF⟩, -- PEERID
  ⟨0x0040, 1, 0, 1, 0, 0, 32, .kw, true, false, 0x0, 0, 0xFFFFFFFF⟩, -- MIRROR_LO
  ⟨0x0044, 1, 0, 1, 0, 0, 32, .kw, true, false, 0x0, 0, 0xFFFFFFFF⟩, -- MIRROR_HI
  ⟨0x0048, 1, 0, 1, 0, 0, 32, .kw, true, false, 0x0, 0, 0xFFFFFFFF⟩, -- SYNC_LO
  ⟨0x004C, 1, 0, 1, 0, 0, 32, .kw, true, false, 0x0, 0, 0xFFFFFFFF⟩, -- SYNC_HI
  ⟨0x0050, 1, 0, 1, 0, 0, 16, .kw, true, false, 0x800, 16, 0xFFFF⟩, -- LAG_MAX
  ⟨0x0050, 1, 0, 1, 0, 16, 10, .kw, true, false, 0x32, 1, 0x3E8⟩, -- LAG_TIME
  ⟨0x0054, 1, 0, 1, 0, 0, 7, .kw, true, false, 0x5, 1, 0x64⟩, -- LOSSMS
  ⟨0x0080, 1, 0, 1, 0, 0, 32, .ro, false, true, 0x0, 0, 0xFFFFFFFF⟩, -- RETX
  ⟨0x0084, 1, 0, 1, 0, 0, 32, .ro, false, true, 0x0, 0, 0xFFFFFFFF⟩, -- FECUNC
  ⟨0x0088, 1, 0, 1, 0, 0, 32, .ro, false, true, 0x0, 0, 0xFFFFFFFF⟩, -- AUTHFAIL
  ⟨0x008C, 1, 0, 1, 0, 0, 32, .ro, false, true, 0x0, 0, 0xFFFFFFFF⟩ -- SYNCDROP
]

/-- Rows of Table 16.3 (R419), part 1. -/
def fldsMIR1 : List Fld := [
  ⟨0x0090, 1, 0, 1, 0, 0, 16, .ro, false, true, 0x0, 0, 0xFFFF⟩, -- LINKDN
  ⟨0x0090, 1, 0, 1, 0, 16, 16, .ro, false, true, 0x0, 0, 0xFFFF⟩, -- HELLOREJ
  ⟨0x0098, 1, 0, 1, 0, 0, 32, .ro, false, false, 0x0, 0, 0xFFFFFFFF⟩, -- DIVSEQ_LO
  ⟨0x009C, 1, 0, 1, 0, 0, 32, .ro, false, false, 0x0, 0, 0xFFFFFFFF⟩, -- DIVSEQ_HI
  ⟨0x00A0, 1, 0, 1, 0, 0, 6, .ro, false, false, 0x0, 0, 0x3F⟩, -- DIVTEN
  ⟨0x00A0, 1, 0, 1, 0, 8, 1, .w1c, false, false, 0x0, 0, 0x1⟩, -- VALID
  ⟨0x1000, 64, 16, 1, 0, 0, 16, .ro, false, false, 0x0, 0, 0xFFFF⟩, -- LAG
  ⟨0x1000, 64, 16, 1, 0, 16, 3, .ro, false, false, 0x0, 0, 0x7⟩, -- TSTATE
  ⟨0x1004, 64, 16, 1, 0, 0, 32, .ro, false, false, 0x0, 0, 0xFFFFFFFF⟩, -- MATCHED_LO
  ⟨0x1008, 64, 16, 1, 0, 0, 32, .ro, false, false, 0x0, 0, 0xFFFFFFFF⟩, -- MATCHED_HI
  ⟨0x100C, 64, 16, 1, 0, 0, 32, .ro, false, false, 0x0, 0, 0xFFFFFFFF⟩ -- AGE
]

/-- Table 16.3 (R419). -/
def fldsMIR : List Fld :=
  fldsMIR0 ++ fldsMIR1

/-- Rows of Table 17.6 (R448), part 0. -/
def fldsJRN0 : List Fld := [
  ⟨0x0010, 1, 0, 1, 0, 0, 32, .kw, true, false, 0x0, 0, 0xFFFFFFFF⟩, -- COMMIT_LO
  ⟨0x0014, 1, 0, 1, 0, 0, 32, .kw, true, false, 0x0, 0, 0xFFFFFFFF⟩, -- COMMIT_HI
  ⟨0x0020, 1, 0, 1, 0, 0, 32, .ro, false, false, 0x0, 0, 0xFFFFFFFF⟩, -- CWIN
  ⟨0x0024, 1, 0, 1, 0, 0, 32, .ro, false, false, 0x0, 0, 0xFFFFFFFF⟩, -- OCC
  ⟨0x0028, 1, 0, 1, 0, 0, 32, .ro, false, false, 0x0, 0, 0xFFFFFFFF⟩, -- OCCMAX
  ⟨0x0030, 1, 0, 1, 0, 0, 16, .kw, true, false, 0x7D0, 100, 0xC350⟩, -- ROWMAX
  ⟨0x0030, 1, 0, 1, 0, 16, 16, .kw, true, false, 0x14, 0, 0x3E8⟩, -- FCDELAY
  ⟨0x0034, 1, 0, 1, 0, 0, 16, .kw, true, false, 0x48, 72, 0x2238⟩, -- SAPRET
  ⟨0x0038, 1, 0, 1, 0, 0, 16, .ro, false, false, 0x0, 0, 0xFFFF⟩, -- SAPHRS
  ⟨0x003C, 1, 0, 1, 0, 0, 1, .ro, false, false, 0x0, 0, 0x1⟩, -- TAILDONE
  ⟨0x003C, 1, 0, 1, 0, 1, 1, .ro, false, false, 0x0, 0, 0x1⟩, -- TAILFAIL
  ⟨0x003C, 1, 0, 1, 0, 8, 7, .ro, false, false, 0x0, 0, 0x7F⟩, -- TAILSTREAM
  ⟨0x0040, 1, 0, 1, 0, 0, 32, .ro, false, true, 0x0, 0, 0xFFFFFFFF⟩, -- GRAINS
  ⟨0x0044, 1, 0, 1, 0, 0, 32, .ro, false, true, 0x0, 0, 0xFFFFFFFF⟩, -- ROWS
  ⟨0x0048, 1, 0, 1, 0, 0, 32, .ro, false, true, 0x0, 0, 0xFFFFFFFF⟩ -- PADROWS
]

/-- Rows of Table 17.6 (R448), part 1. -/
def fldsJRN1 : List Fld := [
  ⟨0x004C, 1, 0, 1, 0, 0, 32, .ro, false, true, 0x0, 0, 0xFFFFFFFF⟩, -- WAITWIN
  ⟨0x0050, 1, 0, 1, 0, 0, 32, .ro, false, true, 0x0, 0, 0xFFFFFFFF⟩, -- PFBFULL
  ⟨0x0054, 1, 0, 1, 0, 0, 32, .ro, false, true, 0x0, 0, 0xFFFFFFFF⟩, -- SEALS
  ⟨0x0058, 1, 0, 1, 0, 0, 32, .ro, false, true, 0x0, 0, 0xFFFFFFFF⟩, -- RETSEG
  ⟨0x0100, 65, 4, 1, 0, 0, 16, .kw, true, false, 0xE42, 30, 0x8E94⟩, -- RETAIN
  ⟨0x0300, 65, 16, 1, 0, 0, 32, .ro, false, false, 0x0, 0, 0xFFFFFFFF⟩, -- DURSEQ_LO
  ⟨0x0304, 65, 16, 1, 0, 0, 32, .ro, false, false, 0x0, 0, 0xFFFFFFFF⟩, -- DURSEQ_HI
  ⟨0x0308, 65, 16, 1, 0, 0, 32, .ro, false, false, 0x0, 0, 0xFFFFFFFF⟩, -- SEALSEQ_LO
  ⟨0x030C, 65, 16, 1, 0, 0, 32, .ro, false, false, 0x0, 0, 0xFFFFFFFF⟩, -- SEALSEQ_HI
  ⟨0x1000, 64, 128, 16, 8, 0, 32, .ro, false, false, 0x0, 0, 0xFFFFFFFF⟩, -- CTR_LO
  ⟨0x1004, 64, 128, 16, 8, 0, 32, .ro, false, false, 0x0, 0, 0xFFFFFFFF⟩ -- CTR_HI
]

/-- Table 17.6 (R448). -/
def fldsJRN : List Fld :=
  fldsJRN0 ++ fldsJRN1

/-- Rows of Table 18.4 (R475), part 0. -/
def fldsFLC0 : List Fld := [
  ⟨0x0010, 1, 0, 1, 0, 0, 5, .ro, false, false, 0x0, 0, 0x1F⟩, -- DPC
  ⟨0x0010, 1, 0, 1, 0, 8, 8, .ro, false, false, 0x0, 0, 0xFF⟩, -- PROF
  ⟨0x0010, 1, 0, 1, 0, 16, 1, .ro, false, false, 0x0, 0, 0x1⟩, -- SCAN
  ⟨0x0014, 1, 0, 1, 0, 0, 2, .ro, false, false, 0x0, 0, 0x3⟩, -- FAILCNT
  ⟨0x0014, 1, 0, 1, 0, 4, 1, .ro, false, false, 0x0, 0, 0x1⟩, -- DEGRADED
  ⟨0x0014, 1, 0, 1, 0, 5, 1, .ro, false, false, 0x0, 0, 0x1⟩, -- REBUILD
  ⟨0x0014, 1, 0, 1, 0, 6, 1, .ro, false, false, 0x0, 0, 0x1⟩, -- QUIET
  ⟨0x0014, 1, 0, 1, 0, 8, 1, .ro, false, false, 0x0, 0, 0x1⟩, -- WARN
  ⟨0x0014, 1, 0, 1, 0, 9, 1, .ro, false, false, 0x0, 0, 0x1⟩, -- CRIT
  ⟨0x0014, 1, 0, 1, 0, 10, 1, .ro, false, false, 0x0, 0, 0x1⟩, -- LOW
  ⟨0x0014, 1, 0, 1, 0, 16, 7, .ro, false, false, 0x0, 0, 0x7F⟩, -- RBPCT
  ⟨0x0018, 1, 0, 1, 0, 0, 16, .ro, false, false, 0xFFFF, 0, 0xFFFF⟩, -- EOLPT
  ⟨0x0018, 1, 0, 1, 0, 16, 16, .ro, false, false, 0xFFFF, 0, 0xFFFF⟩, -- EOLLO
  ⟨0x001C, 1, 0, 1, 0, 0, 16, .ro, false, false, 0xFFFF, 0, 0xFFFF⟩, -- EOLHI
  ⟨0x001C, 1, 0, 1, 0, 16, 16, .ro, false, false, 0xFFFF, 0, 0xFFFF⟩ -- FREEH
]

/-- Rows of Table 18.4 (R475), part 1. -/
def fldsFLC1 : List Fld := [
  ⟨0x0020, 1, 0, 1, 0, 0, 32, .ro, false, false, 0x0, 0, 0xFFFFFFFF⟩, -- RATE
  ⟨0x0030, 1, 0, 1, 0, 0, 6, .kw, true, false, 0x1E, 10, 0x31⟩, -- REFRPCT
  ⟨0x0030, 1, 0, 1, 0, 8, 7, .kw, true, false, 0x50, 25, 0x63⟩, -- RDPCT
  ⟨0x0034, 1, 0, 1, 0, 0, 10, .kw, true, false, 0x18, 4, 0xA8⟩, -- PATROLS
  ⟨0x0034, 1, 0, 1, 0, 16, 10, .kw, true, false, 0xA8, 24, 0x2D0⟩, -- PATROLH
  ⟨0x0038, 1, 0, 1, 0, 0, 7, .kw, true, false, 0x19, 5, 0x4B⟩, -- RBLDPCT
  ⟨0x0040, 4, 4, 1, 0, 0, 11, .kw, true, false, 0x0, 0, 0x59F⟩, -- START
  ⟨0x0040, 4, 4, 1, 0, 16, 10, .kw, true, false, 0x0, 1, 0x2D0⟩, -- LEN
  ⟨0x0040, 4, 4, 1, 0, 31, 1, .kw, true, false, 0x0, 0, 0x1⟩, -- EN
  ⟨0x0080, 1, 0, 1, 0, 0, 32, .ro, false, true, 0x0, 0, 0xFFFFFFFF⟩, -- PATROLRD
  ⟨0x0084, 1, 0, 1, 0, 0, 32, .ro, false, true, 0x0, 0, 0xFFFFFFFF⟩, -- POLREFR
  ⟨0x0088, 1, 0, 1, 0, 0, 32, .ro, false, true, 0x0, 0, 0xFFFFFFFF⟩, -- FLOORREFR
  ⟨0x008C, 1, 0, 1, 0, 0, 32, .ro, false, true, 0x0, 0, 0xFFFFFFFF⟩, -- OVRCNT
  ⟨0x0090, 1, 0, 1, 0, 0, 32, .ro, false, true, 0x0, 0, 0xFFFFFFFF⟩, -- SOFTDEC
  ⟨0x0094, 1, 0, 1, 0, 0, 32, .ro, false, true, 0x0, 0, 0xFFFFFFFF⟩ -- OUTERREC
]

/-- Rows of Table 18.4 (R475), part 2. -/
def fldsFLC2 : List Fld := [
  ⟨0x0098, 1, 0, 1, 0, 0, 32, .ro, false, true, 0x0, 0, 0xFFFFFFFF⟩, -- UNCORR
  ⟨0x009C, 1, 0, 1, 0, 0, 32, .ro, false, true, 0x0, 0, 0xFFFFFFFF⟩, -- GROWNBAD
  ⟨0x00A0, 1, 0, 1, 0, 0, 32, .ro, false, true, 0x0, 0, 0xFFFFFFFF⟩, -- PROGFAIL
  ⟨0x00A4, 1, 0, 1, 0, 0, 32, .ro, false, true, 0x0, 0, 0xFFFFFFFF⟩, -- ERASEFAIL
  ⟨0x00A8, 1, 0, 1, 0, 0, 32, .ro, false, true, 0x0, 0, 0xFFFFFFFF⟩, -- RELOC
  ⟨0x0100, 1, 0, 1, 0, 0, 8, .rw, false, false, 0x0, 0, 0xFF⟩, -- DIESEL
  ⟨0x0104, 1, 0, 1, 0, 0, 2, .ro, false, false, 0x0, 0, 0x3⟩, -- STATE
  ⟨0x0104, 1, 0, 1, 0, 16, 16, .ro, false, false, 0x0, 0, 0xFFFF⟩, -- GOODBLK
  ⟨0x0108, 1, 0, 1, 0, 0, 14, .ro, false, false, 0x0, 0, 0x3FFF⟩, -- USED
  ⟨0x0108, 1, 0, 1, 0, 16, 16, .ro, false, false, 0x0, 0, 0xFFFF⟩, -- RBER
  ⟨0x010C, 1, 0, 1, 0, 0, 16, .ro, false, false, 0x0, 0, 0xFFFF⟩, -- EOL
  ⟨0x010C, 1, 0, 1, 0, 16, 16, .ro, false, false, 0x0, 0, 0xFFFF⟩, -- BADGROWN
  ⟨0x0110, 18, 4, 1, 0, 0, 32, .ro, false, true, 0x0, 0, 0xFFFFFFFF⟩, -- RRHIST
  ⟨0x0200, 1, 0, 1, 0, 0, 24, .rw, false, false, 0x0, 0, 0xFFFFFF⟩, -- BI_ADDR
  ⟨0x0204, 1, 0, 1, 0, 0, 32, .ro, false, false, 0x0, 0, 0xFFFFFFFF⟩ -- BI_DATA
]

/-- Table 18.4 (R475). -/
def fldsFLC : List Fld :=
  fldsFLC0 ++ fldsFLC1 ++ fldsFLC2

/-- Rows of Table 19.4 (R497), part 0. -/
def fldsPWR0 : List Fld := [
  ⟨0x0010, 1, 0, 1, 0, 0, 2, .kw, false, false, 0x0, 0, 0x3⟩, -- ECLASS
  ⟨0x0010, 1, 0, 1, 0, 8, 1, .w1c, false, false, 0x0, 0, 0x1⟩, -- ECREF
  ⟨0x0014, 1, 0, 1, 0, 0, 1, .ro, false, false, 0x0, 0, 0x1⟩, -- DONE
  ⟨0x0014, 1, 0, 1, 0, 1, 1, .ro, false, false, 0x0, 0, 0x1⟩, -- OVERCLASS
  ⟨0x0014, 1, 0, 1, 0, 2, 1, .ro, false, false, 0x0, 0, 0x1⟩, -- NOENERGY
  ⟨0x0014, 1, 0, 1, 0, 3, 1, .ro, false, false, 0x0, 0, 0x1⟩, -- NORECHARGE
  ⟨0x0014, 1, 0, 1, 0, 4, 2, .ro, false, false, 0x0, 0, 0x3⟩, -- SRC
  ⟨0x0018, 1, 0, 1, 0, 0, 16, .kw, true, false, 0x0, 0, 0xFFFF⟩, -- HUDECL
  ⟨0x001C, 1, 0, 1, 0, 0, 16, .kw, true, false, 0x0, 0, 0xFFFF⟩, -- VMIN
  ⟨0x001C, 1, 0, 1, 0, 16, 16, .kw, true, false, 0x0, 0, 0xFFFF⟩, -- HUDIV
  ⟨0x0020, 1, 0, 1, 0, 0, 32, .ro, false, false, 0x0, 0, 0xFFFFFFFF⟩, -- CAP
  ⟨0x0024, 1, 0, 1, 0, 0, 16, .ro, false, false, 0x0, 0, 0xFFFF⟩, -- V0
  ⟨0x0024, 1, 0, 1, 0, 16, 16, .ro, false, false, 0x0, 0, 0xFFFF⟩, -- VNOW
  ⟨0x0028, 1, 0, 1, 0, 0, 32, .ro, false, false, 0x0, 0, 0xFFFFFFFF⟩, -- ESTORE
  ⟨0x002C, 1, 0, 1, 0, 0, 32, .ro, false, false, 0x0, 0, 0xFFFFFFFF⟩ -- EMEAS
]

/-- Rows of Table 19.4 (R497), part 1. -/
def fldsPWR1 : List Fld := [
  ⟨0x0030, 1, 0, 1, 0, 0, 32, .ro, false, false, 0x0, 0, 0xFFFFFFFF⟩, -- EUSE
  ⟨0x0034, 1, 0, 1, 0, 0, 32, .ro, false, false, 0x0, 0, 0xFFFFFFFF⟩, -- EPM
  ⟨0x0038, 1, 0, 1, 0, 0, 32, .ro, false, false, 0x0, 0, 0xFFFFFFFF⟩, -- EFIX
  ⟨0x003C, 1, 0, 1, 0, 0, 32, .ro, false, false, 0x0, 0, 0xFFFFFFFF⟩, -- CWIN
  ⟨0x0040, 1, 0, 1, 0, 0, 16, .ro, false, false, 0x0, 0, 0xFFFF⟩, -- VRES
  ⟨0x0044, 1, 0, 1, 0, 0, 16, .ro, false, false, 0x0, 0, 0xFFFF⟩, -- VBAT
  ⟨0x0044, 1, 0, 1, 0, 16, 1, .ro, false, false, 0x0, 0, 0x1⟩, -- VBATLOW
  ⟨0x0050, 8, 4, 1, 0, 0, 2, .kw, true, false, 0x2, 0, 0x2⟩, -- VDRV
  ⟨0x0050, 8, 4, 1, 0, 4, 5, .kw, true, false, 0x2, 1, 0x14⟩, -- ILIM
  ⟨0x0070, 1, 0, 1, 0, 0, 2, .kw, true, false, 0x0, 0, 0x2⟩, -- CONDRV
  ⟨0x0070, 1, 0, 1, 0, 2, 2, .kw, true, false, 0x0, 0, 0x2⟩, -- ALMDRV
  ⟨0x0080, 1, 0, 1, 0, 0, 32, .ro, false, true, 0x0, 0, 0xFFFFFFFF⟩, -- PFCNT
  ⟨0x0084, 1, 0, 1, 0, 0, 32, .ro, false, false, 0x0, 0, 0xFFFFFFFF⟩, -- PFLAT
  ⟨0x0088, 1, 0, 1, 0, 0, 16, .ro, false, true, 0x0, 0, 0xFFFF⟩, -- SAGCNT
  ⟨0x0088, 1, 0, 1, 0, 16, 16, .ro, false, true, 0x0, 0, 0xFFFF⟩ -- PFGLITCH
]

/-- Table 19.4 (R497). -/
def fldsPWR : List Fld :=
  fldsPWR0 ++ fldsPWR1

/-- Rows of Table 20.8 (R519), part 0. -/
def fldsWIT0 : List Fld := [
  ⟨0x0010, 1, 0, 1, 0, 0, 8, .kw, true, false, 0x0, 0, 0x2⟩, -- PROFILE
  ⟨0x0010, 1, 0, 1, 0, 8, 8, .kw, true, false, 0x0, 0, 0xFF⟩, -- TXPWR
  ⟨0x0014, 1, 0, 1, 0, 0, 8, .kw, true, false, 0xAB, 0, 0xFF⟩, -- CCATHR
  ⟨0x0014, 1, 0, 1, 0, 8, 8, .kw, true, false, 0x32, 0, 0xFF⟩, -- LISTEN
  ⟨0x0014, 1, 0, 1, 0, 16, 8, .kw, true, false, 0xA, 0, 0xFF⟩, -- BACKOFF
  ⟨0x0014, 1, 0, 1, 0, 24, 8, .kw, true, false, 0xA, 0, 0xFF⟩, -- DUTY
  ⟨0x0018, 1, 0, 1, 0, 0, 2, .kw, true, false, 0x0, 0, 0x2⟩, -- EVINT
  ⟨0x0018, 1, 0, 1, 0, 8, 8, .kw, true, false, 0x8, 0, 0xFF⟩, -- SUPTO
  ⟨0x0018, 1, 0, 1, 0, 16, 8, .kw, true, false, 0x1E, 0, 0xFF⟩, -- RESYNC
  ⟨0x0018, 1, 0, 1, 0, 24, 3, .kw, true, false, 0x3, 1, 0x4⟩, -- TTL
  ⟨0x0020, 1, 0, 1, 0, 0, 8, .kw, true, false, 0x0, 0, 0xFF⟩, -- CHBASE
  ⟨0x0020, 1, 0, 1, 0, 8, 8, .kw, true, false, 0x0, 0, 0xFF⟩, -- HOPSEED
  ⟨0x0020, 1, 0, 1, 0, 16, 8, .kw, true, false, 0x1, 0, 0xFF⟩, -- HOPSTEP
  ⟨0x0024, 1, 0, 1, 0, 0, 32, .kw, true, false, 0xF, 0, 0xFFFFFFFF⟩, -- CHMAP
  ⟨0x0030, 1, 0, 1, 0, 0, 32, .ro, false, false, 0x0, 0, 0xFFFFFFFF⟩ -- EVC
]

/-- Rows of Table 20.8 (R519), part 1. -/
def fldsWIT1 : List Fld := [
  ⟨0x0034, 1, 0, 1, 0, 0, 32, .ro, false, false, 0x0, 0, 0xFFFFFFFF⟩, -- EPOCH
  ⟨0x0038, 1, 0, 1, 0, 0, 1, .ro, false, false, 0x0, 0, 0x1⟩, -- RUN
  ⟨0x0038, 1, 0, 1, 0, 1, 1, .ro, false, false, 0x0, 0, 0x1⟩, -- MAPPEND
  ⟨0x0038, 1, 0, 1, 0, 8, 8, .ro, false, false, 0x0, 0, 0xFF⟩, -- JOINED
  ⟨0x0038, 1, 0, 1, 0, 16, 8, .ro, false, false, 0x0, 0, 0xFF⟩, -- LOST
  ⟨0x003C, 1, 0, 1, 0, 0, 16, .ro, false, false, 0x0, 0, 0xFFFF⟩, -- DCUSE
  ⟨0x0040, 1, 0, 1, 0, 0, 32, .ro, false, true, 0x0, 0, 0xFFFFFFFF⟩, -- RXOK
  ⟨0x0044, 1, 0, 1, 0, 0, 32, .ro, false, true, 0x0, 0, 0xFFFFFFFF⟩, -- AUTHFAIL
  ⟨0x0048, 1, 0, 1, 0, 0, 32, .ro, false, true, 0x0, 0, 0xFFFFFFFF⟩, -- DUPCNT
  ⟨0x004C, 1, 0, 1, 0, 0, 32, .ro, false, true, 0x0, 0, 0xFFFFFFFF⟩, -- REPLAYCNT
  ⟨0x0050, 1, 0, 1, 0, 0, 32, .ro, false, true, 0x0, 0, 0xFFFFFFFF⟩, -- TXFRAMES
  ⟨0x0054, 1, 0, 1, 0, 0, 16, .ro, false, true, 0x0, 0, 0xFFFF⟩, -- CCASKIP
  ⟨0x0054, 1, 0, 1, 0, 16, 16, .ro, false, true, 0x0, 0, 0xFFFF⟩, -- DCSKIP
  ⟨0x0058, 1, 0, 1, 0, 0, 32, .ro, false, true, 0x0, 0, 0xFFFFFFFF⟩, -- LOSSCNT
  ⟨0x0100, 8, 16, 1, 0, 0, 16, .kw, true, false, 0x0, 0, 0xFFFF⟩ -- LOOPNOM
]

/-- Rows of Table 20.8 (R519), part 2. -/
def fldsWIT2 : List Fld := [
  ⟨0x0100, 8, 16, 1, 0, 16, 8, .kw, true, false, 0x14, 5, 0x32⟩, -- BAND
  ⟨0x0104, 8, 16, 1, 0, 0, 16, .ro, false, false, 0x0, 0, 0xFFFF⟩, -- RMEAS
  ⟨0x0104, 8, 16, 1, 0, 16, 3, .ro, false, false, 0x0, 0, 0x7⟩, -- LSTATE
  ⟨0x0108, 8, 16, 1, 0, 0, 32, .ro, false, true, 0x0, 0, 0xFFFFFFFF⟩, -- LFAULT
  ⟨0x0200, 1, 0, 1, 0, 0, 10, .rw, false, false, 0x0, 0, 0x3FF⟩, -- TT_ADDR
  ⟨0x0204, 1, 0, 1, 0, 0, 32, .ro, false, false, 0x0, 0, 0xFFFFFFFF⟩ -- TT_DATA
]

/-- Table 20.8 (R519). -/
def fldsWIT : List Fld :=
  fldsWIT0 ++ fldsWIT1 ++ fldsWIT2

/-- Rows of Table 21.5 (R546), part 0. -/
def fldsRPL0 : List Fld := [
  ⟨0x0010, 1, 0, 1, 0, 0, 6, .kw, true, false, 0x0, 0, 0x3F⟩, -- TENANT
  ⟨0x0010, 1, 0, 1, 0, 8, 1, .kw, true, false, 0x0, 0, 0x1⟩, -- CROSS
  ⟨0x0018, 1, 0, 1, 0, 0, 32, .kw, true, false, 0x0, 0, 0xFFFFFFFF⟩, -- FROM_LO
  ⟨0x001C, 1, 0, 1, 0, 0, 32, .kw, true, false, 0x0, 0, 0xFFFFFFFF⟩, -- FROM_HI
  ⟨0x0020, 1, 0, 1, 0, 0, 32, .kw, true, false, 0x0, 0, 0xFFFFFFFF⟩, -- THROUGH_LO
  ⟨0x0024, 1, 0, 1, 0, 0, 32, .kw, true, false, 0x0, 0, 0xFFFFFFFF⟩, -- THROUGH_HI
  ⟨0x0028, 1, 0, 1, 0, 0, 1, .rw, false, false, 0x0, 0, 0x1⟩, -- RUN
  ⟨0x002C, 1, 0, 1, 0, 0, 3, .ro, false, false, 0x0, 0, 0x7⟩, -- STATE
  ⟨0x002C, 1, 0, 1, 0, 8, 4, .ro, false, false, 0x0, 0, 0xF⟩, -- REASON
  ⟨0x0030, 1, 0, 1, 0, 0, 32, .ro, false, false, 0x0, 0, 0xFFFFFFFF⟩, -- POS_LO
  ⟨0x0034, 1, 0, 1, 0, 0, 32, .ro, false, false, 0x0, 0, 0xFFFFFFFF⟩, -- POS_HI
  ⟨0x0038, 1, 0, 1, 0, 0, 8, .ro, false, false, 0x0, 0, 0xFF⟩, -- KIND
  ⟨0x0038, 1, 0, 1, 0, 8, 16, .ro, false, false, 0x0, 0, 0xFFFF⟩, -- LOGPOS
  ⟨0x0038, 1, 0, 1, 0, 31, 1, .w1c, false, false, 0x0, 0, 0x1⟩, -- VALID
  ⟨0x0040, 1, 0, 1, 0, 0, 32, .ro, false, false, 0x0, 0, 0xFFFFFFFF⟩ -- DIVSEQ_LO
]

/-- Rows of Table 21.5 (R546), part 1. -/
def fldsRPL1 : List Fld := [
  ⟨0x0044, 1, 0, 1, 0, 0, 32, .ro, false, false, 0x0, 0, 0xFFFFFFFF⟩, -- DIVSEQ_HI
  ⟨0x0048, 2, 4, 1, 0, 0, 32, .ro, false, false, 0x0, 0, 0xFFFFFFFF⟩, -- RECDIG
  ⟨0x0050, 2, 4, 1, 0, 0, 32, .ro, false, false, 0x0, 0, 0xFFFFFFFF⟩, -- REPDIG
  ⟨0x0060, 1, 0, 1, 0, 0, 32, .ro, false, true, 0x0, 0, 0xFFFFFFFF⟩, -- FINDCNT
  ⟨0x0064, 1, 0, 1, 0, 0, 32, .ro, false, true, 0x0, 0, 0xFFFFFFFF⟩, -- GRAINS
  ⟨0x0068, 1, 0, 1, 0, 0, 32, .ro, false, true, 0x0, 0, 0xFFFFFFFF⟩, -- SUBST
  ⟨0x0070, 1, 0, 1, 0, 0, 3, .ro, false, false, 0x0, 0, 0x7⟩, -- IMPSTATE
  ⟨0x0070, 1, 0, 1, 0, 8, 4, .ro, false, false, 0x0, 0, 0xF⟩, -- IMPREASON
  ⟨0x0074, 1, 0, 1, 0, 0, 32, .ro, false, false, 0x0, 0, 0xFFFFFFFF⟩, -- IMPSEG
  ⟨0x0078, 1, 0, 1, 0, 0, 32, .ro, false, false, 0x0, 0, 0xFFFFFFFF⟩, -- AREAFREE
  ⟨0x0080, 8, 4, 1, 0, 0, 32, .ro, false, false, 0x0, 0, 0xFFFFFFFF⟩, -- ATTHASH
  ⟨0x00A0, 1, 0, 1, 0, 0, 32, .ro, false, false, 0x0, 0, 0xFFFFFFFF⟩, -- IMPFIRST_LO
  ⟨0x00A4, 1, 0, 1, 0, 0, 32, .ro, false, false, 0x0, 0, 0xFFFFFFFF⟩, -- IMPFIRST_HI
  ⟨0x00A8, 1, 0, 1, 0, 0, 32, .ro, false, false, 0x0, 0, 0xFFFFFFFF⟩, -- IMPLAST_LO
  ⟨0x00AC, 1, 0, 1, 0, 0, 32, .ro, false, false, 0x0, 0, 0xFFFFFFFF⟩ -- IMPLAST_HI
]

/-- Table 21.5 (R546). -/
def fldsRPL : List Fld :=
  fldsRPL0 ++ fldsRPL1

/-- Rows of Table 22.5 (R572), part 0. -/
def fldsCON0 : List Fld := [
  ⟨0x0010, 1, 0, 1, 0, 0, 32, .ro, false, false, 0x0, 0, 0xFFFFFFFF⟩, -- NEXTCJN_LO
  ⟨0x0014, 1, 0, 1, 0, 0, 32, .ro, false, false, 0x0, 0, 0xFFFFFFFF⟩, -- NEXTCJN_HI
  ⟨0x0100, 2, 32, 1, 0, 0, 22, .kw, true, false, 0x1C200, 0, 0x3FFFFF⟩, -- BAUD
  ⟨0x0100, 2, 32, 1, 0, 31, 1, .kw, true, false, 0x0, 0, 0x1⟩, -- REQCRC
  ⟨0x0104, 2, 32, 1, 0, 0, 2, .ro, false, false, 0x0, 0, 0x3⟩, -- AUTH
  ⟨0x0104, 2, 32, 1, 0, 2, 1, .ro, false, false, 0x0, 0, 0x1⟩, -- CHAL
  ⟨0x0104, 2, 32, 1, 0, 3, 1, .ro, false, false, 0x0, 0, 0x1⟩, -- LOCK
  ⟨0x0104, 2, 32, 1, 0, 4, 1, .ro, false, false, 0x1, 0, 0x1⟩, -- CTS
  ⟨0x0104, 2, 32, 1, 0, 5, 1, .ro, false, false, 0x0, 0, 0x1⟩, -- RTS
  ⟨0x0104, 2, 32, 1, 0, 6, 1, .ro, false, false, 0x0, 0, 0x1⟩, -- EXEC
  ⟨0x0104, 2, 32, 1, 0, 16, 16, .ro, false, false, 0x0, 0, 0xFFFF⟩, -- IDLE
  ⟨0x0108, 2, 32, 1, 0, 0, 32, .ro, false, true, 0x0, 0, 0xFFFFFFFF⟩, -- LINES
  ⟨0x010C, 2, 32, 1, 0, 0, 32, .ro, false, true, 0x0, 0, 0xFFFFFFFF⟩, -- BADLINE
  ⟨0x0110, 2, 32, 1, 0, 0, 32, .ro, false, true, 0x0, 0, 0xFFFFFFFF⟩, -- DUPS
  ⟨0x0114, 2, 32, 1, 0, 0, 32, .ro, false, true, 0x0, 0, 0xFFFFFFFF⟩ -- AUTHFAIL
]

/-- Rows of Table 22.5 (R572), part 1. -/
def fldsCON1 : List Fld := [
  ⟨0x0118, 2, 32, 1, 0, 0, 16, .ro, false, true, 0x0, 0, 0xFFFF⟩, -- EVTLOST
  ⟨0x0118, 2, 32, 1, 0, 16, 16, .ro, false, true, 0x0, 0, 0xFFFF⟩, -- BREAKS
  ⟨0x011C, 2, 32, 1, 0, 0, 18, .ro, false, false, 0x0, 0, 0x3FFFF⟩ -- TAGS
]

/-- Table 22.5 (R572). -/
def fldsCON : List Fld :=
  fldsCON0 ++ fldsCON1

/-- Rows of Table 24.8 (R609), part 0. -/
def fldsHLT0 : List Fld := [
  ⟨0x0010, 1, 0, 1, 0, 0, 8, .ro, false, false, 0x0, 0, 0xFF⟩, -- HOLDCAUSE
  ⟨0x0010, 1, 0, 1, 0, 8, 1, .ro, false, false, 0x0, 0, 0x1⟩, -- HVALID
  ⟨0x0014, 1, 0, 1, 0, 0, 2, .ro, false, false, 0x0, 0, 0x3⟩, -- STEP
  ⟨0x0014, 1, 0, 1, 0, 8, 8, .ro, false, false, 0x0, 0, 0xFF⟩, -- HOTSENSOR
  ⟨0x0014, 1, 0, 1, 0, 16, 16, .ro, false, false, 0x0, 0, 0xFFFF⟩, -- HOTTEMP
  ⟨0x0018, 1, 0, 1, 0, 0, 32, .ro, false, false, 0xFFFFFFFF, 0, 0xFFFFFFFF⟩, -- CORESVC0
  ⟨0x001C, 1, 0, 1, 0, 0, 32, .ro, false, false, 0xFFFFFFFF, 0, 0xFFFFFFFF⟩, -- CORESVC1
  ⟨0x0020, 1, 0, 1, 0, 0, 32, .ro, false, false, 0xFFFFFFFF, 0, 0xFFFFFFFF⟩, -- CORESVC2
  ⟨0x0024, 1, 0, 1, 0, 0, 32, .ro, false, false, 0xFFFFFFFF, 0, 0xFFFFFFFF⟩, -- PAIRSVC0
  ⟨0x0028, 1, 0, 1, 0, 0, 16, .ro, false, false, 0xFFFF, 0, 0xFFFF⟩, -- PAIRSVC1
  ⟨0x002C, 1, 0, 1, 0, 0, 12, .ro, false, false, 0x0, 0, 0xFFF⟩, -- ENTHELD
  ⟨0x0040, 1, 0, 1, 0, 0, 32, .ro, false, true, 0x0, 0, 0xFFFFFFFF⟩, -- COREFLT
  ⟨0x0044, 1, 0, 1, 0, 0, 32, .ro, false, true, 0x0, 0, 0xFFFFFFFF⟩, -- STEADYREST
  ⟨0x0048, 1, 0, 1, 0, 0, 32, .ro, false, true, 0x0, 0, 0xFFFFFFFF⟩, -- CORESTOP
  ⟨0x004C, 1, 0, 1, 0, 0, 32, .ro, false, true, 0x0, 0, 0xFFFFFFFF⟩ -- PAIRFLT
]

/-- Rows of Table 24.8 (R609), part 1. -/
def fldsHLT1 : List Fld := [
  ⟨0x0050, 1, 0, 1, 0, 0, 32, .ro, false, true, 0x0, 0, 0xFFFFFFFF⟩, -- ABANDON
  ⟨0x0054, 1, 0, 1, 0, 0, 32, .ro, false, true, 0x0, 0, 0xFFFFFFFF⟩, -- RERUN
  ⟨0x0058, 1, 0, 1, 0, 0, 32, .ro, false, true, 0x0, 0, 0xFFFFFFFF⟩, -- VOIDCNT
  ⟨0x005C, 1, 0, 1, 0, 0, 32, .ro, false, true, 0x0, 0, 0xFFFFFFFF⟩, -- SSMCNT
  ⟨0x0060, 1, 0, 1, 0, 0, 32, .ro, false, true, 0x0, 0, 0xFFFFFFFF⟩, -- MEDIAERR
  ⟨0x0064, 1, 0, 1, 0, 0, 32, .ro, false, true, 0x0, 0, 0xFFFFFFFF⟩, -- THROTCNT
  ⟨0x0080, 1, 0, 1, 0, 0, 13, .ro, false, false, 0x0, 0, 0x1FFF⟩, -- ELOGCNT
  ⟨0x0084, 1, 0, 1, 0, 0, 13, .ro, false, false, 0x0, 0, 0x1FFF⟩, -- ELOGPEND
  ⟨0x0088, 1, 0, 1, 0, 0, 32, .ro, false, true, 0x0, 0, 0xFFFFFFFF⟩, -- ELOGLOST
  ⟨0x0100, 102, 4, 1, 0, 0, 32, .ro, false, false, 0x0, 0, 0xFFFFFFFF⟩, -- TNOW
  ⟨0x0300, 1, 0, 1, 0, 0, 30, .rw, false, false, 0x0, 0, 0x3FFFFFFF⟩, -- TM_ADDR
  ⟨0x0304, 1, 0, 1, 0, 0, 32, .ro, false, false, 0x0, 0, 0xFFFFFFFF⟩, -- TM_DATA
  ⟨0x0310, 1, 0, 1, 0, 0, 16, .rw, false, false, 0x0, 0, 0xFFFF⟩, -- EL_ADDR
  ⟨0x0314, 1, 0, 1, 0, 0, 32, .ro, false, false, 0x0, 0, 0xFFFFFFFF⟩ -- EL_DATA
]

/-- Table 24.8 (R609). -/
def fldsHLT : List Fld :=
  fldsHLT0 ++ fldsHLT1

end Sys2Proof.Machine
end

