-- ==== Sys2Proof/Config.lean ====
section
/-! DEFINITION. What the specification leaves open and what an implementation fixes: constants with no body, so that
no proof can see a value. -/
namespace Sys2Proof.Config

open Sys2Proof

/-- A free value: the k-th value that the specification leaves open, or that a random source draws. [log 8 DESIGN CHOICE, safe] -/
opaque freeValue : Nat → BitVec 64

/-- SHA-256 of a byte string (named by R428; the function itself is defined outside the specification). [log 9 DESIGN CHOICE, safe; log 130 DESIGN CHOICE, safe] -/
opaque sha256 : List Byte → Digest

/-- SHA3-256 of a byte string (R331). [log 9 DESIGN CHOICE, safe] -/
opaque sha3 : List Byte → Digest

/-- SHA-384 of a byte string (R437). [log 9 DESIGN CHOICE, safe] -/
opaque sha384 : List Byte → BitVec 384

/-- HMAC-SHA-256 of a byte string under the key held in a slot (R331). [log 9 DESIGN CHOICE, safe] -/
opaque hmac : BitVec 256 → List Byte → Digest

/-- AES-256-GCM encryption: key, nonce, additional data, plaintext; ciphertext followed by the 16-byte tag. [log 9 DESIGN CHOICE, safe] -/
opaque gcmSeal : BitVec 256 → List Byte → List Byte → List Byte → List Byte

/-- AES-256-GCM decryption and tag check: none where the tag fails. [log 9 DESIGN CHOICE, safe] -/
opaque gcmOpen : BitVec 256 → List Byte → List Byte → List Byte → Option (List Byte)

/-- Verification of an ECDSA P-256, ECDSA P-384 or Ed25519 signature (curve 0, 1, 2): key, message, signature. [log 9 DESIGN CHOICE, safe] -/
opaque sigVerify : Nat → List Byte → List Byte → List Byte → Bool

/-- Verification of an ECDSA P-384 signature by the public key of a SHA-256, which travels with what it signs or stands in the key
record (R110): key hash, message, signature. [log 9 DESIGN CHOICE, safe] -/
opaque keyVerify : Digest → List Byte → List Byte → Bool

/-- A signature made by the device with its attestation key (R119, R437). [log 9 DESIGN CHOICE, safe] -/
opaque attSign : List Byte → BitVec 768

/-- The length of a body in Fjartal grain compression with a dictionary (R430: no two devices need produce the same bytes). [log 10 DESIGN CHOICE, safe] -/
opaque packedLen : List Byte → List Byte → Nat

/-- The text of a console reply or event line, from its code and values (R555). [log 10 DESIGN CHOICE, safe] -/
opaque lineText : Nat → List Int → List Byte

/-- 16 × log2 of a latency in ns, rounded down (R605): a real-number computation. [log 11 DESIGN CHOICE, safe] -/
opaque log2x16 : Nat → Nat

/-- The aged time of a die between two TAI seconds, in thousandths of an hour (R465): a real-number computation over the hourly
mean temperatures of the die, future hours at the last 24-hour mean. [log 11 DESIGN CHOICE, safe] -/
opaque agedMilli : Nat → Nat → Nat → Nat

/-- The predicted end of life of a block in days with its band (R472): a real-number fit over its fresh measurements, from its
consumed budget in 0.01 %, its mode (TLC), the block programs of the last 24 hours and the good blocks in that mode. [log 11 DESIGN CHOICE, safe] -/
opaque blockEol : List Nat → Nat → Bool → Nat → Nat → Nat × Nat × Nat

/-- SHA-384 of a segment as the device laid it down, up to its seal region (R437): stream, epoch, segment number. The stored bytes
are the device's own (R430). [log 10 DESIGN CHOICE, safe] -/
opaque segDigest : Nat → Nat → Nat → BitVec 384

/-- The bytes of an export image (R530): tenant or replay journal, first segment, first byte, number of bytes. The image holds
sealed rows, keys and signatures. [log 10 DESIGN CHOICE, safe] -/
opaque exportBytes : Nat → Nat → Nat → Nat → List Byte

/-- The energy to flush a MiB and the fixed shutdown energy, in µJ, of a media profile for a number of dies per channel (R487). [log 11 DESIGN CHOICE, safe] -/
opaque flushEnergy : Nat → Nat → Nat × Nat

/-- ROM version, stepping and Fjartal image-key hash, as MS0 measures them (R117). -/
opaque romHead : List Byte

/-- The identity-key hash IDHASH of the device (Table 4.5). -/
opaque idHash : Digest

end Sys2Proof.Config
end

