-- ==== Sys2Proof/Machine/State.lean ====
section
/-! DEFINITION. The state of the KM4864 as plain data: everything the specification gives the device, and the queue of
waiting commands. -/
namespace Sys2Proof.Machine

open Sys2Proof

/-- Faults. None is raised by a meaning of this model: every fault of the specification is taken as an effect. -/
inductive Fault where
  /-- Raised by nobody; kept so that the type is inhabited. Safe. -/
  | none
deriving DecidableEq, Repr

/-- Refusals. -/
inductive Refusal where
  /-- A command that has no meaning in the model yet; raised by the arm of `exec`. Safe: the model stops. -/
  | notModelled (mnemonic : String)
deriving DecidableEq, Repr

/-- The device modes of Table 2.1. -/
inductive DMode where
  | sealed | live | quiet | audit | replay | hold
deriving DecidableEq, Repr

/-- The sales states of Table 2.4. -/
inductive Sales where
  | dormant | open | parting | closed | suspended
deriving DecidableEq, Repr

/-- The time qualities of Table 5.4. -/
inductive Qual where
  | none | locked | degraded | holdover | starved | breach
deriving DecidableEq, Repr

/-- The device roles of Table 2.7; `none` before commissioning (R61). -/
inductive Role where
  | none | primary | shadow | lab
deriving DecidableEq, Repr

/-- A triplicate-voted field: three copies (R96). -/
structure Voted where
  c0 : Word32
  c1 : Word32
  c2 : Word32
deriving DecidableEq, Repr

/-- An armed key guard: owner and the cycle of the UNLOCK write (R77). -/
structure Guard where
  owner : Nat
  since : Nat
deriving DecidableEq, Repr

/-- A posted block: the write (requester, offset, value) and the group transfer not yet taken, and its domain's reset
(R87, R89). -/
structure Posted where
  pend : List (Nat × Nat × Word32)
  xfer : Bool
  rst : Bool
deriving DecidableEq, Repr

/-- An indirect address/data pair (R90 to R92): word index, owner, collected words, latched words with the entry they
belong to. -/
structure Pair where
  addr : Nat
  owner : Option Nat
  buf : List Word32
  latch : List Word32
  latchAt : Option Nat
deriving DecidableEq, Repr

/-- SYS and the register fabric (chapters 2 and 3). -/
structure SysSt where
  mode : Voted
  drain : Bool
  modeEff : Nat
  modeHist : List (Nat × DMode)
  cycle : Nat
  regs : Map Word32
  shadow : Map Word32
  staging : Map Word32
  staged : List Nat
  stagedReq : Nat
  holding : Map Word32
  guards : Map Guard
  posted : Map Posted
  pairs : Map Pair
deriving DecidableEq, Repr

/-- A time reference (R136 to R139): 0 PPSA, 1 PPSB, 2 GM0, 3 GM1. Consecutive valid and invalid samples, whether it is
good, its last edge (or, where `missed`, the instant at which one was missing), whether that edge came one second after its
predecessor and waits for its line, the last time-of-day second, whether a sample failed R148 in the breach in force, the PTP
exchange in progress, the tick until which its last Announce serves, and the log2 of its sync interval. -/
structure TimeRef where
  valid : Nat
  invalid : Nat
  good : Bool
  lastEdge : Option Nat
  edgeOk : Bool
  waiting : Bool
  todSec : Option Nat
  failed : Bool
  missed : Bool
  syncSeq : Option Nat
  syncRx : Int
  syncTx : Option Int
  msDelay : Option Int
  lastAnn : Option Nat
  annPtp : Bool
  utcEvt : Option Nat
  lastSample : Option Nat
  logSync : Int
deriving DecidableEq, Repr

/-- Clocks and legal time (chapter 5). `tai` counts the time base in 1/80,000 ns, so that a tick is 100,000 and the slew
of R152 is exactly one per tick; `rem` is the remaining correction in the same unit. -/
structure TimSt where
  ticks : Nat
  running : Bool
  tai : Nat
  rem : Int
  u0 : Nat
  lastSteer : Option Nat
  u : Nat
  uHist : List (Nat × Nat)
  refs : List TimeRef
  remRef : Nat
  breach : Bool
  qual : Qual
  acquired : Bool
  acqStart : Option Nat
  acqFirst : Option Nat
  ppsLast : Option Nat
  ppsPhase : Int
  ppsStepped : Bool
  leaps : List (Nat × Int)
  leapEnd : Option Nat
  leapOff : Int
  utcStale : Bool
  pllSrc : Nat
  usable : Nat
  usableSince : List Nat
  pllLock : Bool
  umax : Voted
  cclk : Voted
  cclkEff : Nat
deriving DecidableEq, Repr

/-- One version of a parting-table entry and the instant from which it was in force (R162). -/
structure BookVer where
  te : Nat
  pb : Nat
  margin : Nat
  st : Sales
  cause : Nat
deriving DecidableEq, Repr

/-- A book: the parting-table entry of Table 6.1 with its voted state, its earlier versions, what R170 counts, the PART
grain that waits or was numbered, and whether a SETTLE grain exists since it closed. [log 18 DEDUCED, safe; log 19 DEDUCED, safe] -/
structure Book where
  pb : Nat
  margin : Nat
  st : Voted
  cause : Nat
  te : Nat
  prev : List BookVer
  late : Nat
  lateu : Nat
  lastSeq : Option Nat
  count : Nat
  partialCnt : Bool
  partWait : Bool
  partSeq : Option Nat
  partU : Nat
  partStep : Bool
  partCjn : Nat
  settled : Bool
  held : Bool
deriving DecidableEq, Repr

/-- A grain that waits for its number or for its place in the chain (R393, R428). -/
structure GReq where
  hdr : Hdr
  body : List Byte
deriving DecidableEq, Repr

/-- A chained grain (R428) and where its items lie: row number within the stream and item bytes; its INPUT record item
(R521); the tick at which it became durable. -/
structure Grain where
  seq : Nat
  hdr : Hdr
  body : List Byte
  digest : Digest
  row : Nat
  rowEnd : Nat
  flash : Bool
  waited : Bool
  unreadable : Bool
  recd : Option Input
  durAt : Nat
deriving DecidableEq, Repr

/-- A row of a stream in the power-fail buffer that has not been programmed (R434, R444), with the number of its segment. -/
structure Row where
  stream : Nat
  idx : Nat
  used : Nat
  opened : Nat
  order : Nat
  seg : Nat
  closed : Bool
  waitSince : Option Nat
deriving DecidableEq, Repr

/-- A segment of a stream (R435 to R440): number, epoch (R413), first grain and the number after the last, rows used, commit mode,
dictionary grain, last digest, its first and last row, and its life in Sapwood and Heartwood. -/
structure Segment where
  no : Nat
  epoch : Nat
  first : Nat
  next : Nat
  rows : Nat
  bytes : Nat
  idxEntries : Nat
  flash : Bool
  dict : Option Nat
  closed : Bool
  closedTai : Nat
  lastDig : Digest
  firstRow : Nat
  lastRow : Nat
  sealTai : Option Nat
  sealDig : BitVec 384
  freed : Bool
  retired : Bool
deriving DecidableEq, Repr

/-- A COUNTS record item (R524): NUM, the row that holds it, and for each session its ten counts. -/
structure CountsItem where
  num : Nat
  row : Nat
  entries : List (Nat × List Nat)
deriving DecidableEq, Repr

/-- One of the 65 streams (17.1): next number, requests in order, numbered grains not yet chained, chained and durable
grains, segments, genesis digest, dictionary, epoch, the grains of earlier epochs (R413), and the COUNTS items. -/
structure Stream where
  next : Nat
  reqs : List GReq
  numbered : Map GReq
  chained : Nat
  lastDig : Digest
  dur : Nat
  grains : List Grain
  segs : List Segment
  rowIdx : Nat
  progRow : Nat
  genesis : Digest
  dict : Option Nat
  epoch : Nat
  past : List Grain
  counts : List CountsItem
deriving DecidableEq, Repr

/-- A HOLD entry whose flush has not completed (R64): cause and detail of Table 24.4, instant and uncertainty, the CJN
of a command that caused it, the mode before it, and the tenants active at entry. -/
structure HoldFlush where
  cause : Nat
  detail : Nat
  tai : Nat
  u : Nat
  cjn : Nat
  old : Nat
  tenants : List Nat
deriving DecidableEq, Repr

/-- The journal (chapter 17): streams by number, rows in the power-fail buffer in opening order, the tenants whose TM_t has
changed since their last grain (R525). -/
structure JrnSt where
  streams : Map Stream
  rows : List Row
  order : Nat
  closed : Bool
  dWritable : Bool
  holdFlush : Option HoldFlush
  counters : Map Nat
  lastSeal : Map (BitVec 384)
  measDue : List Nat
deriving DecidableEq, Repr

/-- Session classes (Table 15.2). -/
inductive SClass where
  | terminal | mgmt | devmgmt
deriving DecidableEq, Repr

/-- A session-table entry (15.3). -/
structure Session where
  cls : SClass
  opened : Bool
  tenant : Nat
  terminal : Nat
  keyHeld : Bool
  key : BitVec 256
  tsalt : BitVec 32
  dsalt : BitVec 32
  high : Nat
  bitmap : Word32
  devCtr : Nat
  unreplied : Nat
  a4 : Nat
  a5 : Nat
deriving DecidableEq, Repr

/-- A reply that waits for release (R31): its frame, its grain, and whether the grain was refused by rule. -/
structure Reply where
  tenant : Nat
  session : Nat
  terminal : Nat
  seq : Nat
  counter : Nat
  tai : Nat
  u : Nat
  route : Route
deriving DecidableEq, Repr

/-- AWP ingress, sessions, sequencer queues (chapter 15). -/
structure AwpSt where
  sessions : Map Session
  kek : Map (BitVec 256)
  inputs : List Input
  runq : Map (List Nat)
  replies : List Reply
  counts : Map Nat
  runtime : List Nat
deriving DecidableEq, Repr

/-- An event of Table 24.3 in the health event log (R607). -/
structure ElogEvent where
  code : Nat
  par : List Nat
  tai : Nat
  u : Nat
  pend : Bool
  offPower : Bool
deriving DecidableEq, Repr

/-- A line of telemetry kept for one period of a tier (R606). -/
structure TmSlot where
  min : Int
  max : Int
  sum : Int
  count : Nat
  start : Nat
  empty : Bool
deriving DecidableEq, Repr

/-- Errors, recovery and health (chapter 24). -/
structure HltSt where
  holdCause : Option Nat
  elog : List ElogEvent
  elogSaved : List ElogEvent
  lost : Nat
  lostSaid : Nat
  lostSaved : Nat × Nat
  temps : List Int
  step : Nat
  step1Low : Option Nat
  step2Low : Option Nat
  holdHot : Option Nat
  tempTamper : Bool
  samples : List (List Int)
  latencies : List (Nat × Nat)
  tiers : Map TmSlot
deriving DecidableEq, Repr

/-- Authority levels (R557). -/
inductive Auth where
  | observe | operate | engineer | regulate
deriving DecidableEq, Repr

/-- A pending challenge (R558). -/
structure Chal where
  level : Auth
  cjn : Nat
  bytes : List (BitVec 64)
  since : Nat
deriving DecidableEq, Repr

/-- The state of a staging buffer (R578). -/
inductive StageSt where
  | empty | opened | closed
deriving DecidableEq, Repr

/-- A staging buffer (R578): state, size and the 4-byte groups written, by offset div 4. -/
structure Stage where
  st : StageSt
  size : Nat
  groups : Map Word32
deriving DecidableEq, Repr

/-- An unsolicited event line (R556): its code and parameters. -/
structure EvtLine where
  code : Nat
  par : List Nat
deriving DecidableEq, Repr

/-- A console reply (R555): result code, the values of its fields in the order of its command's form, any bytes (a
quote, a hex field, a grain body), the duplicate mark and the CJN that superseded it (R564). [log 91 DESIGN CHOICE, safe] -/
structure ConReply where
  code : Nat
  vals : List Int
  bytes : List Byte
  dup : Bool
  superseded : Option Nat
deriving DecidableEq, Repr

/-- What a command waits for before its reply is formed (R563). -/
inductive Phase where
  | running
  | formed
  | drain (since : Nat) (n : Nat)
  | erase (stream last : Nat) (tseq dseq : Option Nat) (since : Nat)
  | image (slot : Nat) (im : Image)
  | cj (from_ : Nat)
  | hold
  | loopcal (n : Nat)
deriving DecidableEq, Repr

/-- A well-formed command whose COMMAND grain is not yet released (R562 to R565), or its record. -/
structure Cmd where
  cjn : Nat
  con : Nat
  auth : Auth
  line : List Byte
  tag : List Byte
  tai : Nat
  u : Nat
  phase : Phase
  reply : ConReply
  grained : Bool
  dup : Bool
  resets : Bool
deriving DecidableEq, Repr

/-- A console (R547 to R561). -/
structure Console where
  auth : Auth
  authSlot : Option Nat
  chal : Option Chal
  fails : List Nat
  lockUntil : Option Nat
  lastLine : Nat
  rts : Bool
  txq : List (Nat × ConReply)
  evtq : List EvtLine
  evtLost : Nat
  baud : Nat
  baudNew : Option Nat
  stage : Stage
  tags : List Cmd
deriving DecidableEq, Repr

/-- The two consoles and the command journal (chapter 22). -/
structure ConSt where
  cons : List Console
  nextCjn : Nat
  appended : Nat
  cmds : List Cmd
  retained : List Cmd
  records : List Cmd
  auditHolder : Bool
deriving DecidableEq, Repr

/-- Fused and one-time values (R109 to R112), and what a boot area keeps beside the images. -/
structure OtpSt where
  jhash : Option Digest
  ops : List (Option Digest)
  revoked : List Bool
  role : Role
  rollback : Nat
  bootCnt : Nat
  genesisTai : Option Nat
deriving DecidableEq, Repr

/-- An entry of the vault tamper log (R130, R518): source, class, loop, instant (the last TAI before the loss plus the seconds since),
those seconds, reaction, and whether it stands in stream D. -/
structure VaultEntry where
  src : Nat
  cls : Nat
  idx : Nat
  tai : Nat
  secs : Nat
  react : Nat
  written : Bool
deriving DecidableEq, Repr

/-- The key vault on VBAT (R127 to R130). -/
structure VaultSt where
  swk : Bool
  react : Map Nat
  log : List VaultEntry
  ovf : Nat
  zeroized : Bool
  zpend : Bool
  zcount : Nat
  zkeys : List Nat
  pfCnt : Nat
  pfLat : Nat
  vbatMv : Nat
  vbatLost : Bool
  offTai : Nat
  offSecs : Nat
  offState : Map Nat
deriving DecidableEq, Repr

/-- A loaded rule program (R116). -/
structure Rules where
  digest : Digest
  version : Nat
deriving DecidableEq, Repr

/-- The host's declaration of an energy class (R484): class, energy, minimum voltage, divider, operator key. -/
structure Decl where
  cls : Nat
  hudecl : Nat
  vmin : Nat
  hudiv : Nat
  op : Digest
deriving DecidableEq, Repr

/-- Sealing, boot, attestation and tamper (chapter 4). -/
structure SecSt where
  otp : OtpSt
  slots : List (Option Image)
  slot : Nat
  step : Nat
  done : Bool
  fail : Bool
  recovery : Bool
  stepSince : Nat
  s5done : Bool
  rstCause : Nat
  locks : Voted
  ms : List Digest
  bm : Digest
  rules : Map Rules
  tstat : Nat
  suspPend : Bool
  vault : VaultSt
  eraseTick : Option Nat
  decl : Option Decl
  coldWait : Bool
  leapSaved : Option (List (Nat × Int) × Nat)
  exitDone : Bool
  holdBooks : List Nat
  heldHold : Bool
deriving DecidableEq, Repr

/-- A port of a quad (R362, R363): link state code of Table 14.3, resolved type, the tick of entry to FAULT, and the 1 s
window of link events: its start, the further changes, the state before the last. -/
structure PortSt where
  state : Nat
  rtype : Nat
  faultAt : Nat
  winStart : Option Nat
  further : Nat
  lastOld : Nat
deriving DecidableEq, Repr

/-- A lane's equalization (R365 to R367): FROZEN, DEGRADED, the last margins below the floor, measurements in a row at or
above FLOOR + 3, the corrected symbols at the last BER estimate. -/
structure LaneInfo where
  frozen : Bool
  degraded : Bool
  lows : List Nat
  goods : Nat
  margin : Nat
  symAt : Nat
deriving DecidableEq, Repr

/-- Lanes and quads (chapter 14). Ports are keyed quad × 4 + port, lanes by number, PHY words quad × 1,024 + index. -/
structure LaneSt where
  ports : Map PortSt
  lanes : Map LaneInfo
  phy : Map Word32
deriving DecidableEq, Repr

/-- A TLB entry (R269): ASID, virtual page base, size code, the PTE image and the PTE's physical address. -/
structure TlbEnt where
  asid : Nat
  va : Nat
  size : Nat
  img : BitVec 64
  pte : Nat
deriving DecidableEq, Repr

/-- The binding of a core to an input (R342): tenant, sequence number, whether it runs paired, the next log position,
whether it is a re-run, and whether it belongs to a replay run. -/
structure Bind where
  tenant : Nat
  seq : Nat
  paired : Bool
  pos : Nat
  rerun : Bool
  replay : Bool
deriving DecidableEq, Repr

/-- A held or presented effectful operation (R339, R346): unit, op, operand words, operand digest, the STRICT register
digest (R351), the tick of the presentation, whether it is held for room in the power-fail buffer (R445). -/
structure Present where
  unit : Nat
  op : Nat
  ra : TWord
  rb : TWord
  dig : BitVec 64
  strict : Digest
  since : Nat
  roomHeld : Bool
deriving DecidableEq, Repr

/-- What an operation that a pair issued once has delivered, for the partner that has yet to retire it (R346): the
presentation, the result words, the bytes for the output STRING, or the binding of a TAKE. -/
structure Grant where
  unit : Nat
  op : Nat
  res : List TWord
  out : List Byte
  bind : Option Bind
deriving DecidableEq, Repr

/-- A core (chapters 8 to 10): registers, program counter, STATUS payload, the control registers of Table 8.11 (condemned
ranges as BASE, LIMIT pairs), OUTSTANDING and DROPPED of IPISEND, the TLB by entry number with its replacement pointer, the
instructions retired under the entry guard, pending interrupt causes, whether the core runs, its steady-rest area, entry
count and recent entries, whether a RESTART has not yet been left by RETX, the tenant it is assigned to, its binding, its
presentation, the tick of its last retirement, the ticks of its recent stops, and what its pair partner's turn has already
delivered to it (R346), the initiators of the IPI_S pending on it (R281), and
whether its last self-test has kept it out (R598). -/
structure Core where
  regs : List TWord
  pc : Nat
  status : Nat
  epc : TWord
  estatus : TWord
  tinfo : TWord
  sstack : TWord
  alimit : TWord
  idctr : TWord
  ctxhead : TWord
  cardbase : TWord
  condemn : List TWord
  ssp : TWord
  uicnt : TWord
  mepc : TWord
  mestatus : TWord
  mtinfo : TWord
  mstack : TWord
  ctxwin : TWord
  outstanding : Nat
  dropped : Bool
  tlb : Map TlbEnt
  repl : Nat
  egCount : Nat
  pend : List Nat
  runs : Bool
  srArea : Map TWord
  srCount : Nat
  srTicks : List Nat
  restart : Bool
  tenant : Option Nat
  bind : Option Bind
  present : Option Present
  lastRet : Nat
  stops : List Nat
  ipiFrom : List Nat
  granted : Option Grant
  tested : Bool
deriving DecidableEq, Repr

/-- A context bank registered with the firmware (9.7): tenant, context number and the physical address of its page. -/
structure Bank where
  tenant : Nat
  ctx : Nat
  pa : Nat
deriving DecidableEq, Repr

/-- A pair of cores (R352, R600): the window of the last evaluations, true where latent, the ticks of its removals, and whether
its test has kept it out. -/
structure PairInfo where
  window : List Bool
  removals : List Nat
  failed : Bool
deriving DecidableEq, Repr

/-- Cores, the memory they address, the key slots of the crypto units, the microcode patch, the context-bank directory
(chapters 7 to 13). Memory is a map from word address (physical address div 8) to tagged word; a word not listed reads as
RAW 0. `devHist` holds the ticks of DRAM corrections by channel × 32 + device. -/
structure CpuSt where
  cores : Map Core
  mem : Map TWord
  banks : List Bank
  keys : Map (BitVec 256)
  pairs : Map PairInfo
  patch : List Word32
  devHist : Map (List Nat)
  draws : Map Nat
  reseedAt : Map Nat
deriving DecidableEq, Repr

/-- Power (chapter 19) beside its registers: the voted class, whether a write was accepted in this SEALED (R484), the
power-fail sequence: PFAIL# latched, its sequence complete, the device held in reset; the voltage of the last calibration, and
whether VBAT has been reported low. -/
structure PwrSt where
  eclass : Voted
  written : Bool
  latched : Bool
  huDone : Bool
  held : Bool
  calV0 : Nat
  vbatLow : Bool
deriving DecidableEq, Repr

/-- What RPL shows of a tenant's import (Table 21.5): state, reason, failing segment. -/
structure ImpStat where
  state : Nat
  reason : Nat
  seg : Nat
deriving DecidableEq, Repr

/-- An import in progress (R532): its SETID, the next part, bytes received, whether the last part has come, the tenant that its
HEAD names, and the session, counter and route of the last part, whose MACK waits (R533). -/
structure Recv where
  setid : Nat
  next : Nat
  bytes : Nat
  last : Bool
  tenant : Nat
  session : Nat
  echo : Nat
  route : Route
deriving DecidableEq, Repr

/-- A replay run (R536 to R544): tenant, CROSS, range, next grain, whether a MEAS finding stands, the input under
re-evaluation, whether QUIET has been asked for. -/
structure Run where
  tenant : Nat
  cross : Bool
  from_ : Nat
  through : Nat
  pos : Nat
  measFound : Bool
  cur : Option Input
  stopAsked : Bool
deriving DecidableEq, Repr

/-- A finding (R544): kind, sequence number, log position, recorded digest, replay digest where one was formed. -/
structure Finding where
  kind : Nat
  seq : Nat
  pos : Nat
  recDig : Digest
  repDig : Option Digest
deriving DecidableEq, Repr

/-- An open export (R529 to R531): REQID, tenant, replay journal or stream, range, segments frozen, whether its first segment
begins at grain 0, the tick of its last EXPREQ. -/
structure Export where
  reqid : Nat
  tenant : Nat
  rj : Bool
  lo : Nat
  hi : Nat
  segs : List Nat
  genesis : Bool
  lastReq : Nat
deriving DecidableEq, Repr

/-- Replay and export (chapter 21): imported sets and their status by tenant, the import in progress, the run, replay
journals by tenant (newest first), findings, open exports, REQIDs closed by a RETIRE. -/
structure RplSt where
  sets : Map ImpSet
  stats : Map ImpStat
  recv : Option Recv
  run : Option Run
  journals : Map (List ImpGrain)
  findings : List Finding
  exports : List Export
  closedReq : List Nat
deriving DecidableEq, Repr

/-- A frame in a retransmit buffer of the mirror link (R404): LSEQ, kind, tenant, body. -/
structure MFrame where
  lseq : Nat
  kind : Nat
  tenant : Nat
  body : List Byte
deriving DecidableEq, Repr

/-- What a side of the mirror link keeps of a tenant (R407 to R415): state of Table 16.3; on the primary the highest matched
number, the next grain to send, whether an ANCHOR is due, whether its lag stands beyond a limit (R414); on the shadow the
next number whose digest it reports. -/
structure MirTen where
  st : Nat
  matched : Option Nat
  sendNext : Nat
  anchorDue : Bool
  digNext : Nat
  lagged : Bool
deriving DecidableEq, Repr

/-- The mirror link (chapter 16): state, LSEQ of the next frame to send, of the highest acknowledged and of the next
expected; credits consumed and the peer's latest limit; the retransmit buffer; the tick of the last advance of ACK and of
the last resend, the frames received since the last ACK sent and its tick; the tick of the last DIGEST frame; tenants; the 1 s window of link events (R363) with its further changes. -/
structure MirSt where
  link : Nat
  txNext : Nat
  txAcked : Nat
  rxNext : Nat
  used : Nat
  limit : Nat
  buf : List MFrame
  ackTick : Nat
  retxTick : Nat
  rxSince : Nat
  ackSent : Nat
  digSent : Nat
  tens : Map MirTen
  winStart : Option Nat
  further : Nat
deriving DecidableEq, Repr

/-- A flash block (R452, R471, Table 18.5), keyed die × 8,192 + block: state code, P/E counts in SLC and TLC mode, reads since
the last erase, the last measurement (RBER in ppm, decode level, TAI second, 0 for none), slope in ppm per 1,000 aged hours, end
of life with its band, the reason and tick of a queued relocation, the last 16 fresh measurements, valid members, the TAI
second of its last patrol read, and of its last program. -/
structure Blk where
  st : Nat
  peSlc : Nat
  peTlc : Nat
  reads : Nat
  rber : Nat
  level : Nat
  measSec : Nat
  slope : Nat
  eol : Nat
  lo : Nat
  hi : Nat
  queued : Option (Nat × Nat)
  fresh : List Nat
  members : Nat
  patrol : Nat
  progSec : Nat
deriving DecidableEq, Repr

/-- A flash die (R460, R471), keyed by die index: state code of DIESTAT, ticks at which blocks became GROWN_BAD, blocks with the
ticks at which members were unreadable, retry histogram, temperature at the last training, end of life. -/
structure Die where
  st : Nat
  grown : List Nat
  unread : List (Nat × Nat)
  hist : List Nat
  trainTemp : Int
  eol : Nat
deriving DecidableEq, Repr

/-- A superblock (R454): stream, TLC mode, its blocks by channel (die × 8,192 + block), further blocks that hold members of it
since a program failed (R458), rows used, whether it is open, and the numbers of the segments whose rows it holds. -/
structure Super where
  stream : Nat
  tlc : Bool
  blocks : List Nat
  extra : List Nat
  rows : Nat
  isOpen : Bool
  segs : List Nat
deriving DecidableEq, Repr

/-- An entry of the Heartwood index (R467): instant, die, old and new block, members, segments verified, reason. -/
structure Reloc where
  tai : Nat
  die : Nat
  src : Nat
  dst : Nat
  members : Nat
  segs : Nat
  reason : Nat
deriving DecidableEq, Repr

/-- Flash (chapter 18): dies, blocks that are not FREE and unused, superblocks, the Heartwood index newest first, the recorded
population (dies per channel, profile, unique IDs), the last checkpoint of read counts and measurements and its tick, the tick of
the last hourly evaluation, hours in a row above the clearing level of WARN and CRIT, rows programmed by TAI hour, block
programs of the last 24 hours (tick, TLC, blocks), dies whose content cannot be rebuilt (R463), the tick of the last ZQ
calibration. -/
structure FlashSt where
  dies : Map Die
  blocks : Map Blk
  supers : List Super
  index : List Reloc
  population : Option (Nat × Nat × List Nat)
  ckpt : Map Blk
  ckptTick : Nat
  evalTick : Nat
  warnHours : Nat
  critHours : Nat
  written : Map Nat
  progs : List (Nat × Bool × Nat)
  stuck : List Nat
  zqTick : Nat
deriving DecidableEq, Repr

/-- A witness tag (Table 20.9) with its root key and the tick at which its supervision timer runs out. -/
structure Tag where
  eui : BitVec 64
  kind : Nat
  st : Nat
  last : Nat
  status : Nat
  edgeSeq : Option Nat
  batt : Nat
  rssi : Nat
  evc : Nat
  losses : Nat
  replays : Nat
  key : BitVec 128
  due : Option Nat
deriving DecidableEq, Repr

/-- A tamper loop (R516): the class of the last pulse and how many in a row had it, the class in force, and the last 100
resistances, newest first, in 10 Ω units. -/
structure Loop where
  cand : Nat
  run : Nat
  cls : Nat
  samples : List Nat
deriving DecidableEq, Repr

/-- The values that the mesh uses on air until a switch event (R504): CHBASE, CHMAP, HOPSEED, HOPSTEP, EVINT. -/
structure AirMap where
  chbase : Nat
  chmap : Nat
  seed : Nat
  step : Nat
  evint : Nat
deriving DecidableEq, Repr

/-- The witness mesh and the loops (chapter 20): whether the mesh runs, epoch, beacon nonce and key, event counter and the tick
of its last instant, the values on air and the switch event of a pending change, the device's frame counter, the tags whose
bit the next beacon carries, the seen cache (tag, FCTR, EVC, tick), the tag table, airtime of the last 3,600 s (tick, units of
10 µs), AUTHFAIL at the start of the minute and its tick, the frames that wait for their slot (type, tag address), the loops. -/
structure WitSt where
  run : Bool
  epoch : Nat
  bnonce : Nat
  bkey : Nat
  evc : Nat
  evTick : Nat
  air : AirMap
  switch : Option Nat
  devCtr : Nat
  ack : List Nat
  seen : List (Nat × Nat × Nat × Nat)
  tags : Map Tag
  tx : List (Nat × Nat)
  txq : List (Nat × Nat)
  authAt : Nat
  authTick : Nat
  loops : Map Loop
deriving DecidableEq, Repr

/-- What the device has put on its outputs (model's own record, newest first). -/
inductive Out where
  | awp (route : Route) (typ : Nat) (tenant : Nat) (session : Nat) (devCtr : Nat) (payload : List Byte)
  | arp (lane : Nat) (addr : BitVec 128)
  | echo (lane : Nat) (addr : BitVec 128)
  | pdelay (lane : Nat) (seqId : Nat)
  | conReply (con : Nat) (cjn : Nat) (reply : ConReply)
  | conEvt (con : Nat) (line : EvtLine)
  | conEvtLost (con : Nat) (n : Nat)
  | regRead (req : Nat) (val : Word32)
  | busErr (req : Nat) (reason : Nat)
  | pps (tai : Nat)
  | mirror (lseq kind tenant : Nat) (body : List Byte)
  | witness (typ dst : Nat)
deriving DecidableEq, Repr

/-- The machine. `free` counts the free values drawn, `out` records what has left the device, newest first, and
`pending` is the queue of waiting commands, first in, first out. -/
structure State where
  sys : SysSt
  tim : TimSt
  books : Map Book
  jrn : JrnSt
  awp : AwpSt
  hlt : HltSt
  con : ConSt
  sec : SecSt
  lane : LaneSt
  cpu : CpuSt
  pwr : PwrSt
  rpl : RplSt
  mir : MirSt
  fla : FlashSt
  wit : WitSt
  free : Nat
  out : List Out
  pending : List Instr
deriving DecidableEq, Repr


/-! ### The machine right after reset -/

/-- A reference before any sample. -/
def refReset : TimeRef :=
  { valid := 0, invalid := 0, good := false, lastEdge := none, edgeOk := false, waiting := false,
    todSec := none, failed := false, missed := false, syncSeq := none, syncRx := 0, syncTx := none, msDelay := none,
    lastAnn := none, annPtp := true, utcEvt := none, lastSample := none, logSync := 0 }

/-- An empty staging buffer. -/
def stageEmpty : Stage := ⟨.empty, 0, []⟩

/-- A console after a reset (R557, R548, R578, Table 22.5). -/
def conReset : Console :=
  { auth := .observe, authSlot := none, chal := none, fails := [], lockUntil := none, lastLine := 0,
    rts := false, txq := [], evtq := [], evtLost := 0, baud := 115200, baudNew := none,
    stage := stageEmpty, tags := [] }

/-- One-time storage before commissioning (Table 4.3). -/
def otpBlank : OtpSt :=
  { jhash := none, ops := [none, none, none, none], revoked := [false, false, false, false], role := .none, rollback := 0,
    bootCnt := 0, genesisTai := none }

/-- A vault that holds nothing. -/
def vaultEmpty : VaultSt :=
  { swk := false, react := [], log := [], ovf := 0, zeroized := false, zpend := false, zcount := 0, zkeys := [], pfCnt := 0,
    pfLat := 0, vbatMv := 0, vbatLost := false, offTai := 0, offSecs := 0, offState := [] }

/-- The KM4864 right after its first power-on: SEALED, step S0 (R103), nothing commissioned, nothing written, every register at the
reset value of its table (an empty register map reads so). [log 5 DESIGN CHOICE, unsafe; log 6 DESIGN CHOICE, unsafe] -/
def State.reset : State :=
  { sys := { mode := ⟨1, 1, 1⟩, drain := false, modeEff := 0, modeHist := [(0, .sealed)], cycle := 0, regs := [], shadow := [],
             staging := [], staged := [], stagedReq := 0, holding := [], guards := [], posted := [], pairs := [] },
    tim := { ticks := 0, running := false, tai := 0, rem := 0, u0 := 0, lastSteer := none, u := 0xFFFFFFFF, uHist := [],
             refs := [refReset, refReset, refReset, refReset], remRef := 0, breach := false, qual := .none,
             acquired := false, acqStart := none, acqFirst := none, ppsLast := none, ppsPhase := 0, ppsStepped := false, leaps := [],
             leapEnd := none, leapOff := 0, utcStale := false, pllSrc := 3, usable := 0, usableSince := [0, 0, 0], pllLock := false,
             umax := ⟨0xF4240, 0xF4240, 0xF4240⟩, cclk := ⟨2, 2, 2⟩, cclkEff := 2 },
    books := [],
    jrn := { streams := [], rows := [], order := 0, closed := false, dWritable := false, holdFlush := none, counters := [],
             lastSeal := [], measDue := [] },
    awp := { sessions := [], kek := [], inputs := [], runq := [], replies := [], counts := [], runtime := [] },
    hlt := { holdCause := none, elog := [], elogSaved := [], lost := 0, lostSaid := 0, lostSaved := (0, 0), temps := [], step := 0,
             step1Low := none, step2Low := none, holdHot := none, tempTamper := false, samples := [], latencies := [],
             tiers := [] },
    con := { cons := [conReset, conReset], nextCjn := 1, appended := 0, cmds := [], retained := [], records := [],
             auditHolder := false },
    sec := { otp := otpBlank, slots := [none, none], slot := 0, step := 0, done := false, fail := false, recovery := false,
             stepSince := 0, s5done := false, rstCause := 1, locks := ⟨0, 0, 0⟩, ms := [0, 0, 0, 0], bm := 0, rules := [],
             tstat := 0, suspPend := false, vault := vaultEmpty, eraseTick := none, decl := none, coldWait := false,
             leapSaved := none, exitDone := false, holdBooks := [], heldHold := false },
    lane := { ports := [], lanes := [], phy := [] },
    cpu := { cores := [], mem := [], banks := [], keys := [], pairs := [], patch := [], devHist := [], draws := [],
             reseedAt := [] },
    pwr := { eclass := ⟨0, 0, 0⟩, written := false, latched := false, huDone := false, held := false, calV0 := 0,
             vbatLow := false },
    rpl := { sets := [], stats := [], recv := none, run := none, journals := [], findings := [], exports := [], closedReq := [] },
    mir := { link := 0, txNext := 0, txAcked := 0, rxNext := 0, used := 0, limit := 0, buf := [], ackTick := 0, retxTick := 0,
             rxSince := 0, ackSent := 0, digSent := 0, tens := [], winStart := none, further := 0 },
    fla := { dies := [], blocks := [], supers := [], index := [], population := none, ckpt := [], ckptTick := 0, evalTick := 0,
             warnHours := 0, critHours := 0, written := [], progs := [], stuck := [], zqTick := 0 },
    wit := { run := false, epoch := 0, bnonce := 0, bkey := 0, evc := 0, evTick := 0, air := ⟨0, 0, 0, 0, 0⟩, switch := none,
             devCtr := 0, ack := [], seen := [], tags := [], tx := [], txq := [], authAt := 0, authTick := 0, loops := [] },
    free := 0, out := [], pending := [] }

end Sys2Proof.Machine
end

