-- ==== Sys2Proof/Machine/Assoc.lean ====
section
/-! DEFINITION. Sparse tables, bytes, bit fields, voted copies and the codes of the named types. -/
namespace Sys2Proof.Machine

open Sys2Proof

/-! ### Sparse tables -/

/-- The value at a key. -/
def lk {α : Type} : Map α → Nat → Option α
  | [], _ => none
  | (k, v) :: m, i => if k = i then some v else lk m i

/-- The table with a key set, keys kept rising. -/
def ins {α : Type} : Map α → Nat → α → Map α
  | [], i, a => [(i, a)]
  | (k, v) :: m, i, a =>
    if i < k then (i, a) :: (k, v) :: m else if i = k then (i, a) :: m else (k, v) :: ins m i a

/-- The table without a key. -/
def del {α : Type} : Map α → Nat → Map α
  | [], _ => []
  | (k, v) :: m, i => if k = i then del m i else (k, v) :: del m i

/-- The value at a key, or a default. -/
def lkD {α : Type} (m : Map α) (i : Nat) (d : α) : α := (lk m i).getD d

/-- A list with the element at an index replaced. -/
def upd {α : Type} (l : List α) (i : Nat) (f : α → α) : List α :=
  l.mapIdx (fun j a => if j = i then f a else a)

/-! ### Bytes and fields -/

/-- The n bytes of a number, big-endian (R11). -/
def be (n w : Nat) : List Byte :=
  (List.range n).map (fun i => BitVec.ofNat 8 (w >>> (8 * (n - 1 - i))))

/-- The number that bytes spell, big-endian. -/
def ofBe (l : List Byte) : Nat := l.foldl (fun a b => a * 256 + b.toNat) 0

/-- The 32 bytes of a digest. -/
def digBytes (d : Digest) : List Byte := be 32 d.toNat

/-- Bits lo+w-1 : lo of a number. -/
def bits (x lo w : Nat) : Nat := (x >>> lo) % 2 ^ w

/-- A number with bits lo+w-1 : lo replaced. -/
def setBits (x lo w v : Nat) : Nat :=
  x - (bits x lo w) * 2 ^ lo + (v % 2 ^ w) * 2 ^ lo

/-- Bit i of a number. -/
def bit (x i : Nat) : Bool := (x >>> i) % 2 == 1

/-- 1 where true. -/
def b2n (b : Bool) : Nat := if b then 1 else 0

/-- A digest as the four 8-byte parameters of an event (R593). -/
def digPar (d : Digest) : List Nat :=
  (List.range 4).map (fun i => bits d.toNat (64 * (3 - i)) 64)

/-- A 48-byte digest as the six 8-byte parameters of an event (R593). -/
def dig384Par (d : BitVec 384) : List Nat :=
  (List.range 6).map (fun i => bits d.toNat (64 * (5 - i)) 64)

/-- A signed number as a two's complement field of w bits, saturating (R158). -/
def satSigned (w : Nat) (x : Int) : Nat :=
  let hi : Int := 2 ^ (w - 1) - 1
  let lo : Int := -(2 ^ (w - 1))
  let y := if x > hi then hi else if x < lo then lo else x
  (y % 2 ^ w).toNat

/-- A number held at the greatest value of w bits. -/
def sat (w x : Nat) : Nat := min x (2 ^ w - 1)

/-! ### Voted fields (R96 to R98) -/

/-- Three equal copies. -/
def votedOf (x : Nat) : Voted := ⟨BitVec.ofNat 32 x, BitVec.ofNat 32 x, BitVec.ofNat 32 x⟩

/-- The bitwise majority of the copies, which a read returns (R96). -/
def Voted.maj (v : Voted) : Nat := ((v.c0 &&& v.c1) ||| (v.c1 &&& v.c2) ||| (v.c0 &&& v.c2)).toNat

/-- At least two copies agree. -/
def Voted.agree (v : Voted) : Bool := v.c0 == v.c1 || v.c1 == v.c2 || v.c0 == v.c2

/-- The index of the one copy that disagrees with the other two. -/
def Voted.odd (v : Voted) : Option Nat :=
  if v.c0 == v.c1 && v.c1 == v.c2 then none
  else if v.c0 == v.c1 then some 2
  else if v.c0 == v.c2 then some 1
  else if v.c1 == v.c2 then some 0
  else none

/-! ### Codes -/

/-- Codes of Table 2.1. -/
def DMode.code : DMode → Nat
  | .sealed => 1 | .live => 2 | .quiet => 3 | .audit => 4 | .replay => 5 | .hold => 6

/-- The mode of a code of Table 2.1. -/
def DMode.ofCode : Nat → Option DMode
  | 1 => some .sealed | 2 => some .live | 3 => some .quiet | 4 => some .audit | 5 => some .replay | 6 => some .hold
  | _ => none

/-- Codes of Table 2.4. -/
def Sales.code : Sales → Nat
  | .dormant => 0 | .open => 1 | .parting => 2 | .closed => 3 | .suspended => 4

/-- The sales state of a code of Table 2.4. -/
def Sales.ofCode : Nat → Option Sales
  | 0 => some .dormant | 1 => some .open | 2 => some .parting | 3 => some .closed | 4 => some .suspended
  | _ => none

/-- Codes of Table 5.4. -/
def Qual.code : Qual → Nat
  | .none => 0 | .locked => 1 | .degraded => 2 | .holdover => 3 | .starved => 4 | .breach => 5

/-- Codes of Table 2.7; NONE reads 0b00 (Table 3.7). -/
def Role.code : Role → Nat
  | .none => 0 | .primary => 1 | .shadow => 2 | .lab => 3

/-- Authority codes 0 to 3 (R557). -/
def Auth.code : Auth → Nat
  | .observe => 0 | .operate => 1 | .engineer => 2 | .regulate => 3

/-- Block identifiers of Table 3.1. -/
def bSYS : Nat := 0x00
def bCLK : Nat := 0x01
def bTIM : Nat := 0x02
def bPRT : Nat := 0x03
def bSEC : Nat := 0x04
def bPWR : Nat := 0x05
def bUCD : Nat := 0x06
def bMEM : Nat := 0x07
def bSEQ : Nat := 0x0A
def bAWP : Nat := 0x0B
def bMIR : Nat := 0x0C
def bJRN : Nat := 0x0D
def bFLC : Nat := 0x0E
def bWIT : Nat := 0x0F
def bCLU : Nat := 0x10
def bLQ : Nat := 0x20
def bRPL : Nat := 0x30
def bCON : Nat := 0x31
def bHLT : Nat := 0x32

/-- The stream number of stream D in a grain header (Table 17.1). -/
def sD : Nat := 0x40

/-- Requester ID of the management cluster (R71). -/
def reqMgmt : Nat := 0x60

/-! ### Register words -/

/-- The field rows of a block (Tables 3.7 to 24.8). -/
def blkFields (b : Nat) : List Fld :=
  if b = bSYS then fldsSYS else if b = bCLK then fldsCLK else if b = bTIM then fldsTIM else if b = bPRT then fldsPRT
  else if b = bSEC then fldsSEC else if b = bPWR then fldsPWR else if b = bUCD then fldsUCD
  else if b = bMEM then fldsMEM else if b = bSEQ then fldsSEQ else if b = bAWP then fldsAWP
  else if b = bMIR then fldsMIR else if b = bJRN then fldsJRN else if b = bFLC then fldsFLC
  else if b = bWIT then fldsWIT else if 0x10 ≤ b ∧ b ≤ 0x1B then fldsCLU
  else if 0x20 ≤ b ∧ b ≤ 0x2B then fldsLQ else if b = bRPL then fldsRPL else if b = bCON then fldsCON
  else if b = bHLT then fldsHLT else []

/-- A field row stands at an offset. -/
def Fld.hit (f : Fld) (off : Nat) : Bool :=
  decide (f.off ≤ off) && (List.range f.n2).any (fun j =>
    let d := off - f.off - j * f.s2
    decide (j * f.s2 ≤ off - f.off) && (if f.n1 = 1 then d == 0 else d % f.s1 == 0 && decide (d / f.s1 < f.n1)))

/-- The fields of the register at an offset of a block. -/
def fieldsAt (b off : Nat) : List Fld := (blkFields b).filter (fun f => f.hit off)

/-- The reset value of a register: its fields' reset values in place, reserved bits 0 (R75). -/
def resetWord (b off : Nat) : Nat := (fieldsAt b off).foldl (fun a f => a + (f.rst % 2 ^ f.w) * 2 ^ f.lo) 0

/-- The key of a register in the sparse tables. -/
def rkey (b off : Nat) : Nat := b * 0x10000 + off

/-- The stored active value of a register. -/
def rawGet (s : State) (b off : Nat) : Nat :=
  match lk s.sys.regs (rkey b off) with
  | some w => w.toNat
  | none => resetWord b off

/-- The state with a stored active value replaced. -/
def rawSet (s : State) (b off v : Nat) : State :=
  { s with sys.regs := ins s.sys.regs (rkey b off) (BitVec.ofNat 32 v) }

/-- A field of a stored register. -/
def fget (s : State) (b off lo w : Nat) : Nat := bits (rawGet s b off) lo w

/-- A stored register with a field replaced. -/
def fset (s : State) (b off lo w v : Nat) : State := rawSet s b off (setBits (rawGet s b off) lo w v)

/-- A saturating counter raised by n. -/
def bumpSat (s : State) (b off lo w n : Nat) : State := fset s b off lo w (sat w (fget s b off lo w + n))

/-- A wrapping counter raised by n. -/
def bumpWrap (s : State) (b off lo w n : Nat) : State := fset s b off lo w (fget s b off lo w + n)

/-- A sticky bit of STAT set (R76): 1 WRDROP, 2 KEYFAIL, 4 RSTDROP, 5 PARTIAL, 6 BADVAL. -/
def setStat (s : State) (b i : Nat) : State := fset s b 0x0008 i 1 1

/-- A 64-bit value held in a _LO/_HI pair. -/
def get64 (s : State) (b off : Nat) : Nat := rawGet s b off + rawGet s b (off + 4) * 2 ^ 32

/-- A 64-bit value stored in a _LO/_HI pair. -/
def set64 (s : State) (b off v : Nat) : State :=
  rawSet (rawSet s b off (v % 2 ^ 32)) b (off + 4) (v / 2 ^ 32 % 2 ^ 32)

/-! ### Views of the state -/

/-- The device mode: the voted value of SYS.MODE, where two copies agree and form a code of Table 2.1 (R45). -/
def State.mode (s : State) : Option DMode :=
  if s.sys.mode.agree then DMode.ofCode s.sys.mode.maj else none

/-- The mode is m. -/
def State.inMode (s : State) (m : DMode) : Bool := s.mode == some m

/-- The time base in whole nanoseconds, truncated (R142). -/
def State.now (s : State) : Nat := s.tim.tai / 80000

/-- A free value drawn: the specification leaves it open, or a random source gives it. [log 8 DESIGN CHOICE, safe] -/
def drawFree (s : State) : BitVec 64 × State := (Config.freeValue s.free, { s with free := s.free + 1 })

/-- The role of the device (R61). -/
def State.role (s : State) : Role := s.sec.otp.role

/-- TCLK ticks in n nanoseconds (1.25 ns each). -/
def ticksOfNs (n : Nat) : Nat := n * 4 / 5

/-- TCLK ticks in n microseconds. -/
def ticksOfUs (n : Nat) : Nat := n * 800

/-- TCLK ticks in n milliseconds. [log 37 DESIGN CHOICE, safe] -/
def ticksOfMs (n : Nat) : Nat := n * 800000

/-- TCLK ticks in n seconds. -/
def ticksOfS (n : Nat) : Nat := n * 800000000

/-- Ticks since a tick. -/
def State.since (s : State) (t : Nat) : Nat := s.tim.ticks - t

/-- What leaves the device. [log 29 DESIGN CHOICE, safe] -/
def emitOut (s : State) (o : Out) : State := { s with out := o :: s.out }

end Sys2Proof.Machine
end

