-- ==== Sys2Proof/Machine/Journal.lean ====
section
/-! DEFINITION. The journal's shared operations: event bodies, the health event log, grain requests, numbering, the
digest chain, rows and segments, durability (chapters 17 and 24). -/
namespace Sys2Proof.Machine

open Sys2Proof

/-! ### Streams -/

/-- A stream before anything is written to it. -/
def emptyStream : Stream :=
  { next := 0, reqs := [], numbered := [], chained := 0, lastDig := 0, dur := 0, grains := [], segs := [], rowIdx := 0,
    progRow := 0, genesis := 0, dict := none, epoch := 0, past := [], counts := [] }

/-- Stream t (0 to 63, or 0x40 for D). -/
def strm (s : State) (t : Nat) : Stream := lkD s.jrn.streams t emptyStream

/-- The state with stream t replaced. -/
def setStrm (s : State) (t : Nat) (st : Stream) : State := { s with jrn.streams := ins s.jrn.streams t st }

/-- Bit t of a _LO/_HI pair of per-tenant bits. -/
def tenantBit (s : State) (b off t : Nat) : Bool :=
  if t < 32 then bit (rawGet s b off) t else if t < 64 then bit (rawGet s b (off + 4)) (t - 32) else false

/-- A tenant is active at A2: TENEN set, runtime loaded, KEKVER not zero (R400), after the SEALED exit and outside HOLD
(Table 2.3). -/
def tenantActive (s : State) (t : Nat) : Bool :=
  s.sec.exitDone && !(s.inMode .sealed) && !(s.inMode .hold) && tenantBit s bSEQ 0x10 t && s.awp.runtime.contains t
    && decide (rawGet s bAWP (0x1100 + 4 * t) ≠ 0)

/-- The active tenants, in order. -/
def activeTenants (s : State) : List Nat := (List.range 64).filter (tenantActive s)

/-! ### Event lines (R556) -/

/-- A console has a reply in progress or waiting. [log 25 DEDUCED, safe] -/
def conBusy (s : State) (c : Nat) : Bool :=
  s.con.cmds.any (fun k => k.con == c) || (match s.con.cons[c]? with | some k => !k.txq.isEmpty | none => false)

/-- Bytes of a line with its terminator. -/
def lineBytes (l : EvtLine) : Nat := (Config.lineText l.code (l.par.map Int.ofNat)).length + 2

/-- An event line joins a console's queue; the oldest are discarded while it does not fit in 64 KiB (R556). -/
def queueEvt : Nat → List EvtLine → EvtLine → Nat → List EvtLine × Nat
  | 0, q, l, n => (q ++ [l], n)
  | k + 1, q, l, n =>
    if q.foldl (fun a e => a + lineBytes e) 0 + lineBytes l ≤ 65536 then (q ++ [l], n)
    else queueEvt k (q.drop 1) l (n + 1)

/-- An event line on one console: sent at once, or queued while a reply is pending or RTS is deasserted (R556). [log 28 DEDUCED, safe] -/
def evtOn (s : State) (c : Nat) (l : EvtLine) : State :=
  match s.con.cons[c]? with
  | none => s
  | some k =>
    if k.rts && !(conBusy s c) && k.evtq.isEmpty then emitOut s (.conEvt c l)
    else
      let r := queueEvt k.evtq.length k.evtq l 0
      let s1 : State := { s with con.cons := upd s.con.cons c (fun x => { x with evtq := r.1, evtLost := x.evtLost + r.2 }) }
      bumpSat s1 bCON (0x100 + 0x20 * c + 0x18) 0 16 r.2

/-- An event line on every console that SYS.EVTCFG selects; TMR REPAIR also needs TMREVT (Table 3.7). [log 28 DEDUCED, safe] -/
def evtLine (s : State) (l : EvtLine) : State :=
  let cfg := rawGet s bSYS 0x80
  if l.code = 0x0181 ∧ bit cfg 2 = false then s
  else
    let s1 := if bit cfg 0 then evtOn s 0 l else s
    if bit cfg 1 then evtOn s1 1 l else s1

/-! ### Event bodies and the health event log (R593, R607, R608) -/

/-- The body of an event (R593). -/
def evBody (code : Nat) (par : List Nat) : List Byte :=
  be 2 code ++ be 2 par.length ++ be 4 0 ++ (par.map (be 8)).flatten

/-- Log entries that an event occupies (R607). -/
def elogSize (e : ElogEvent) : Nat := if e.par.length ≤ 5 then 1 else 1 + (e.par.length - 5 + 6) / 7

/-- Entries in use. -/
def elogUsed (l : List ElogEvent) : Nat := l.foldl (fun a e => a + elogSize e) 0

/-- Drops the oldest event that is not pending. -/
def dropOldestDone : List ElogEvent → Option (List ElogEvent)
  | [] => none
  | e :: l => if e.pend then (dropOldestDone l).map (e :: ·) else some l

/-- Makes room for n entries in the ring of 4,096: first the oldest events not pending, then the oldest pending, each
counted as lost (R608). -/
def elogRoom : Nat → List ElogEvent → Nat → Nat → List ElogEvent × Nat
  | 0, l, _, lost => (l, lost)
  | k + 1, l, n, lost =>
    if elogUsed l + n ≤ 4096 then (l, lost)
    else match dropOldestDone l with
      | some l' => elogRoom k l' n lost
      | none => elogRoom k (l.drop 1) n (lost + 1)

/-- An event enters the health event log (R607). -/
def logEvent (s : State) (e : ElogEvent) : State :=
  let r := elogRoom s.hlt.elog.length s.hlt.elog (elogSize e) 0
  { s with hlt.elog := r.1 ++ [e], hlt.lost := sat 32 (s.hlt.lost + r.2) }

/-! ### Grain requests -/

/-- A header with the fields that do not apply at zero (R421). -/
def hdrOf (stream typ kind flags tai u book cjn : Nat) : Hdr :=
  { stream := stream, typ := typ, kind := kind, flags := flags, tlen := 0, tai := tai, u := u, terminal := 0,
    session := 0, counter := 0, book := book, lane := 0, rule := 0, cjn := cjn }

/-- A grain request joins its stream's queue (R393). -/
def reqGrain (s : State) (g : GReq) : State :=
  let st := strm s g.hdr.stream
  setStrm s g.hdr.stream { st with reqs := st.reqs ++ [g] }

/-- A grain request to stream D, preceded by one ELOG LOST event where events have been lost since the last (R608). -/
def reqD (s : State) (g : GReq) : State :=
  let s1 :=
    if s.hlt.lost > s.hlt.lostSaid then
      let s0 := reqGrain s ⟨hdrOf sD 9 0x0C 0 s.now s.tim.u 0 0, evBody 0x0F80 [s.hlt.lost]⟩
      logEvent { s0 with hlt.lostSaid := s.hlt.lost } ⟨0x0F80, [s.hlt.lost], s.now, s.tim.u, false, false⟩
    else s
  reqGrain s1 g

/-- An event of Table 24.3 in stream D: its entry in the health event log, pending where D is not writable; its grain
where D is; its line on the consoles. `typ` and `kind` are those of Table 17.2. -/
def eventAt (s : State) (typ kind code : Nat) (par : List Nat) (tai u cjn : Nat) : State :=
  let s1 := logEvent s ⟨code, par, tai, u, !s.jrn.dWritable, false⟩
  let s2 := if s.jrn.dWritable then reqD s1 ⟨hdrOf sD typ kind 0 tai u 0 cjn, evBody code par⟩ else s1
  evtLine s2 ⟨code, par⟩

/-- An event in stream D at the present instant. -/
def eventD (s : State) (typ kind code : Nat) (par : List Nat) (cjn : Nat) : State :=
  eventAt s typ kind code par s.now s.tim.u cjn

/-- A stream that a SHADOW mirrors: it holds the primary's grains with the numbers they carry (R393, R408). -/
def mirroredHere (s : State) (t : Nat) : Bool := s.role == .shadow && tenantBit s bMIR 0x40 t

/-- A tenant whose sales states follow a record: mirrored here (Table 2.7), or held by a replay run (R537). [log 44 DEDUCED, unsafe] -/
def followsRecord (s : State) (t : Nat) : Bool :=
  mirroredHere s t || (match s.rpl.run with | some r => r.tenant == t | none => false)

/-- A tenant stream that takes no grain of the device's own: mirrored here, or in REPLAY, which leaves the tenant streams
unchanged (Table 2.3). [log 44 DEDUCED, unsafe] -/
def streamStill (s : State) (t : Nat) : Bool := mirroredHere s t || s.inMode .replay

/-- Tenant stream t takes grains of the device's own: after the SEALED exit, outside HOLD (Table 2.3), while the journal is open. [log 101 DEDUCED, safe] -/
def streamTakes (s : State) (t : Nat) : Bool :=
  s.sec.exitDone && !(s.inMode .sealed) && !(s.inMode .hold) && !streamStill s t && !s.jrn.closed

/-- A device grain in a tenant stream, where it takes one. [log 102 DEDUCED, unsafe] -/
def eventT (s : State) (t typ kind : Nat) (body : List Byte) (tai u book cjn : Nat) : State :=
  if streamTakes s t then reqGrain s ⟨hdrOf t typ kind 0 tai u book cjn, body⟩ else s

/-- An event of Table 24.3 that has its grain in a tenant stream alone: its entry in the health event log, which waits for no
grain of stream D, and its grain. -/
def eventOwn (s : State) (t typ kind code : Nat) (par : List Nat) (tai u book cjn flags : Nat) : State :=
  let s1 := logEvent s ⟨code, par, tai, u, false, false⟩
  if streamTakes s1 t then
    reqGrain s1 ⟨hdrOf t typ kind flags tai u book cjn, evBody code par⟩ else s1

/-- An event in every active tenant stream and in stream D (as TIME grains are, R150). -/
def eventAll (s : State) (typ kind code : Nat) (par : List Nat) (cjn : Nat) : State :=
  let s1 := (activeTenants s).foldl (fun a t => eventT a t typ kind (evBody code par) s.now s.tim.u 0 cjn) s
  eventD s1 typ kind code par cjn

/-! ### The digest chain (R420, R428) -/

/-- The 64 header bytes of a grain (Table 17.1). -/
def hdrBytes (h : Hdr) (seq blen : Nat) : List Byte :=
  be 1 h.stream ++ be 1 h.typ ++ be 2 h.flags ++ be 2 blen ++ be 2 h.tlen ++ be 8 seq ++ be 8 h.tai ++ be 4 h.u
    ++ be 4 h.terminal ++ be 4 h.session ++ be 6 h.counter ++ be 2 h.book ++ be 1 h.lane ++ be 1 h.kind ++ be 2 h.rule
    ++ be 8 h.cjn ++ be 1 1 ++ be 7 0

/-- D_n = SHA-256(D_{n-1} ‖ header ‖ body) (R428). -/
def grainDigest (prev : Digest) (g : GReq) (seq : Nat) : Digest :=
  Config.sha256 (digBytes prev ++ hdrBytes g.hdr seq g.body.length ++ g.body)

/-- The genesis digest of a stream (R429); the 14 ASCII bytes are KM4864-GENESIS. -/
def genesisDigest (s commTai : Nat) : Digest :=
  Config.sha256 ([0x4B, 0x4D, 0x34, 0x38, 0x36, 0x34, 0x2D, 0x47, 0x45, 0x4E, 0x45, 0x53, 0x49, 0x53]
    ++ digBytes Config.idHash ++ be 1 s ++ be 8 commTai)

/-! ### Rows and segments (R434, R435, R444) -/

/-- Item bytes that a row of a segment carries: row 3 ends with the seal region (R435). -/
def rowCap (r : Nat) : Nat := if r = 3 then 196096 else 196608

/-- The dictionary of the segment in use (R432): the body of the DICT grain that it names, or that the next segment will name. -/
def segDict (st : Stream) : List Byte :=
  let d := match st.segs with | g :: _ => if g.closed then st.dict else g.dict | [] => st.dict
  match d with
  | some n => match st.grains.find? (fun g => g.seq == n) with | some g => g.body | none => []
  | none => []

/-- The stored length of a body: compressed where that is shorter, else raw (R431). -/
def storedLen (st : Stream) (b : List Byte) : Nat := min (Config.packedLen (segDict st) b) b.length

/-- The open row of a stream. -/
def openRow (rows : List Row) (t : Nat) : Option Row := rows.find? (fun r => r.stream == t && !r.closed)

/-- A row closes: a PAD item covers the rest, so it counts its full data bytes (17.6). -/
def closeRow (rows : List Row) (t : Nat) : List Row :=
  rows.map (fun r => if r.stream = t ∧ r.closed = false then { r with closed := true, used := 196608 } else r)

/-- Where an item goes, and what that does to the stream's rows and segments. -/
structure Placed where
  rows : List Row
  segs : List Segment
  rowIdx : Nat
  order : Nat
  row : Nat
  rowEnd : Nat
  padded : Nat

/-- Bytes of a segment's INDEX item (R438). -/
def idxBytes (n : Nat) : Nat := 8 + 18 * n

/-- The head segment closes (R435); `row` is its last row. -/
def closeSegment (segs : List Segment) (tai : Nat) (last : Digest) (next row : Nat) : List Segment :=
  match segs with
  | [] => []
  | g :: r => (if g.closed then g else { g with closed := true, closedTai := tai, lastDig := last, next := next, lastRow := row }) :: r

/-- Item bytes with which row 0 of a segment begins: the SEGHDR of 80 bytes (R435), and in a tenant stream the MEAS item
of 104 bytes that follows it (R521, R525). -/
def headBytes (t : Nat) : Nat := if t = sD then 80 else 184

/-- A new row of a segment of a stream. -/
def newRow (t seg idx used tick order : Nat) : Row :=
  { stream := t, idx := idx, used := used, opened := tick, order := order, seg := seg, closed := false, waitSince := none }

/-- The rows of stream t when its head segment closes: the open row closes with a PAD item; where the INDEX item does
not fit in it, the next row of the segment carries the INDEX item (R435). Gives the rows, the rows opened, and the rows
closed before full. -/
def rowsAtClose (j : JrnSt) (t : Nat) (st : Stream) (g : Segment) (tick : Nat) : List Row × Nat × Nat :=
  let extra := { newRow t g.no st.rowIdx 196608 tick j.order with closed := true }
  match openRow j.rows t with
  | none => if g.rows < 4 then (j.rows ++ [extra], 1, 1) else (j.rows, 0, 0)
  | some r =>
    if r.used + idxBytes g.idxEntries ≤ rowCap (g.rows - 1) then (closeRow j.rows t, 0, 1)
    else (closeRow j.rows t ++ [extra], 1, 2)

/-- An item of `n` bytes of the stream's next grain finds its place: in the open row, in the next row of the segment, or
in a new segment, so that the segment's INDEX item still fits (R435). -/
def place (j : JrnSt) (t : Nat) (st : Stream) (n ent tick tai : Nat) (flash : Bool) : Placed :=
  let fresh (rows : List Row) (segs : List Segment) (more pad : Nat) : Placed :=
    let no := match segs with | [] => 0 | g :: _ => g.no + 1
    let g : Segment := { no := no, epoch := st.epoch, first := st.chained, next := st.chained, rows := 1, bytes := headBytes t + n, idxEntries := ent, flash := flash, dict := st.dict, closed := false, closedTai := 0, lastDig := st.lastDig, firstRow := st.rowIdx + more, lastRow := 0, sealTai := none, sealDig := 0, freed := false, retired := false }
    { rows := rows ++ [newRow t no (st.rowIdx + more) (headBytes t + n) tick (j.order + more)], segs := g :: segs,
      rowIdx := st.rowIdx + more + 1, order := j.order + more + 1, row := st.rowIdx + more, rowEnd := headBytes t + n, padded := pad }
  match st.segs with
  | [] => fresh j.rows [] 0 0
  | g :: rest =>
    if g.closed then fresh j.rows st.segs 0 0
    else
      let idx := idxBytes (g.idxEntries + ent)
      let g' := { g with idxEntries := g.idxEntries + ent, bytes := g.bytes + n }
      let next (rows : List Row) (pad : Nat) : Placed :=
        if g.rows < 4 ∧ n ≤ rowCap g.rows ∧ (n + idx ≤ rowCap g.rows ∨ g.rows + 1 < 4) then
          { rows := rows ++ [newRow t g.no st.rowIdx n tick j.order], segs := { g' with rows := g.rows + 1 } :: rest,
            rowIdx := st.rowIdx + 1, order := j.order + 1, row := st.rowIdx, rowEnd := n, padded := pad }
        else
          let c := rowsAtClose j t st g tick
          fresh c.1 (closeSegment st.segs tai st.lastDig st.chained (st.rowIdx + c.2.1 - 1)) c.2.1 c.2.2
      match openRow j.rows t with
      | none => next j.rows 0
      | some r =>
        if r.used + n ≤ rowCap (g.rows - 1) ∧ (r.used + n + idx ≤ rowCap (g.rows - 1) ∨ g.rows < 4) then
          { rows := j.rows.map (fun x => if x.stream = t ∧ x.closed = false then { x with used := x.used + n } else x),
            segs := g' :: rest, rowIdx := st.rowIdx, order := j.order, row := r.idx, rowEnd := r.used + n, padded := 0 }
        else next (closeRow j.rows t) 1

/-- Where OCC exceeds CWIN, the oldest rows go to flash: open rows close, in opening order, until the rows after them hold no
more than the window (R444). Gives the rows and the number closed before full. -/
def closeOver (cwin : Nat) : List Row → List Row × Nat
  | [] => ([], 0)
  | r :: l =>
    if (r :: l).foldl (fun a x => a + x.used) 0 ≤ cwin then (r :: l, 0)
    else
      let rest := closeOver cwin l
      if r.closed then (r :: rest.1, rest.2) else ({ r with closed := true, used := 196608 } :: rest.1, rest.2 + 1)

/-- Item bytes in the buffer whose rows have not been programmed (17.6). -/
def occ (s : State) : Nat := s.jrn.rows.foldl (fun a r => a + r.used) 0

/-- OCCMAX follows OCC, in KiB rounded up. -/
def noteOcc (s : State) : State := rawSet s bJRN 0x28 (max (rawGet s bJRN 0x28) ((occ s + 1023) / 1024))

/-- Rows go to flash while OCC exceeds CWIN. -/
def drainOver (s : State) : State :=
  let c := closeOver (rawGet s bJRN 0x20 * 1024) s.jrn.rows
  if c.2 = 0 then s else bumpWrap { s with jrn.rows := c.1 } bJRN 0x48 0 32 c.2

/-- One grain more of a replay journal finds its place. -/
def rjPlace (a : JrnSt × Stream) (g : ImpGrain) : JrnSt × Stream :=
  let p := place a.1 sD a.2 (72 + storedLen a.2 g.body) 0 0 0 false
  ({ a.1 with rows := p.rows, order := p.order }, { a.2 with segs := p.segs, rowIdx := p.rowIdx, chained := g.seq + 1 })

/-- The segments of a tenant's replay journal, newest first; they hold no RECORD items (R530, R534). [log 55 DEDUCED, safe] -/
def rjSegs (s : State) (t : Nat) : List Segment :=
  let gs := (lkD s.rpl.journals t []).reverse
  let first := match gs with | g :: _ => g.seq | [] => 0
  let r := gs.foldl rjPlace ({ s.jrn with rows := [], order := 0 }, { emptyStream with chained := first })
  closeSegment r.2.segs 0 0 r.2.chained 0

/-- Free segments in the import and replay areas: those that the scan found, less the accepted sets and the replay journals
(R534). [log 55 DEDUCED, safe] -/
def areaFree (s : State) : Nat :=
  rawGet s bRPL 0x78 - (s.rpl.sets.map (fun p => p.2.segs)).sum - (s.rpl.journals.map (fun p => (rjSegs s p.1).length)).sum

/-- A grain of stream t is chained (R428), `recd` being its INPUT record item if it has one: its digest, its items' place, JRN.GRAINS. `recBytes` are the bytes of the
RECORD item of its input, 0 where it has none. `flash` asks for FLASH commit whatever JRN.COMMIT says (R441). -/
def chainGrainRec (s : State) (t : Nat) (g : GReq) (recBytes : Nat) (flash : Bool) (recd : Option Input) : State :=
  let st := strm s t
  let seq := st.chained
  let d := grainDigest st.lastDig g seq
  let ent := if g.hdr.typ ≤ 3 then 1 else 0
  let commitFlash := if t = sD then false else tenantBit s bJRN 0x10 t
  let p := place s.jrn t st (72 + storedLen st g.body + recBytes) ent s.tim.ticks s.now commitFlash
  let segFlash := match p.segs with | x :: _ => x.flash | [] => false
  let gr : Grain :=
    { seq := seq, hdr := g.hdr, body := g.body, digest := d, row := p.row, rowEnd := p.rowEnd, flash := flash || segFlash,
      waited := false, unreadable := false, recd := recd, durAt := 0 }
  let st' : Stream :=
    { st with chained := seq + 1, next := max st.next (seq + 1), lastDig := d, grains := gr :: st.grains,
              segs := p.segs, rowIdx := p.rowIdx, numbered := del st.numbered seq,
              dict := if g.hdr.typ = 6 ∧ g.hdr.kind = 5 then some seq else st.dict }
  let rows := if gr.flash then p.rows.map (fun r => if r.stream = t ∧ r.idx = p.row ∧ r.waitSince = none then { r with waitSince := some s.tim.ticks } else r) else p.rows
  let s1 := setStrm { s with jrn.rows := rows, jrn.order := p.order } t st'
  let s2 := bumpWrap s1 bJRN 0x40 0 32 1
  noteOcc (drainOver (bumpWrap s2 bJRN 0x48 0 32 p.padded))

/-- A grain without an INPUT item is chained. -/
def chainGrain (s : State) (t : Nat) (g : GReq) (recBytes : Nat) (flash : Bool) : State := chainGrainRec s t g recBytes flash none

/-- The input whose INPUT item precedes a VOID grain of reason 0x0002; none before any other device grain (R523). -/
def voidInputOf (s : State) (t : Nat) (g : GReq) : Option Input :=
  if g.hdr.typ = 3 ∧ ofBe (g.body.take 2) = 2 then
    (s.awp.inputs.find? (fun i => i.tenant == t && i.seq == (strm s t).chained)).map (fun i => { i with log := [] })
  else none

/-- Bytes of the INPUT item of a VOID grain. -/
def voidRec (i : Option Input) : Nat := match i with | some i => 128 + i.payload.length | none => 0

/-- Numbered device and firmware grains whose turn has come are chained, in number order (R428). -/
def cascade : Nat → State → Nat → State
  | 0, s, _ => s
  | k + 1, s, t =>
    let st := strm s t
    match lk st.numbered st.chained with
    | some g => cascade k (chainGrainRec s t g (voidRec (voidInputOf s t g)) false (voidInputOf s t g)) t
    | none => s

/-- The head grain request of a stream takes the stream's next number (R393), and is chained when its turn has come. -/
def numberHead (s : State) (t : Nat) : State :=
  let st := strm s t
  match st.reqs with
  | [] => s
  | g :: rest =>
    let st' := { st with reqs := rest, next := st.next + 1, numbered := ins st.numbered st.next g }
    cascade (st'.numbered.length) (setStrm s t st') t

/-! ### Occupancy and durability (R442 to R445, R634) -/

/-- OCC up to a grain: rows that opened before its own, and its own row up to its items (R442). -/
def occUpTo (s : State) (t : Nat) (g : Grain) : Nat :=
  match s.jrn.rows.find? (fun r => r.stream == t && r.idx == g.row) with
  | none => 0
  | some r => (s.jrn.rows.filter (fun x => decide (x.order < r.order))).foldl (fun a x => a + x.used) 0 + g.rowEnd

/-- The commit window CWIN in bytes. [log 62 DEDUCED, safe] -/
def cwinBytes (s : State) : Nat := rawGet s bJRN 0x20 * 1024

/-- A chained grain of a stream by number. -/
def grainAt (s : State) (t n : Nat) : Option Grain := (strm s t).grains.find? (fun g => g.seq == n)

/-- A grain is durable: its number is below the stream's durable bound. -/
def isDurable (s : State) (t n : Nat) : Bool := decide (n < (strm s t).dur)

/-- Every chained grain of a stream below a number is durable from now on. -/
def setDur (s : State) (t n : Nat) : State :=
  let st := strm s t
  if n ≤ st.dur then s
  else setStrm s t { st with dur := n, grains := st.grains.map (fun g => if st.dur ≤ g.seq ∧ g.seq < n then { g with durAt := s.tim.ticks } else g) }

/-- The row of a grain has been programmed (R634). -/
def rowProgrammed (s : State) (t : Nat) (g : Grain) : Bool := decide (g.row < (strm s t).progRow)

/-- The tenant's mirror digests gate its replies (R22, R31): MIR.SYNC with MIR.MIRROR set. -/
def syncOn (s : State) (t : Nat) : Bool := tenantBit s bMIR 0x40 t && tenantBit s bMIR 0x48 t

end Sys2Proof.Machine
end

