-- ==== Sys2Proof/Machine/Books.lean ====
section
/-! DEFINITION. The parting table and the sales states: versions of an entry, the parting rule, causes set and cleared,
partings (chapters 2 and 6). -/
namespace Sys2Proof.Machine

open Sys2Proof

/-- A book named in no grain: DORMANT, P_b = 0, margin 0 (R163). -/
def emptyBook : Book :=
  { pb := 0, margin := 0, st := votedOf 0, cause := 0, te := 0, prev := [], late := 0, lateu := 0, lastSeq := none,
    count := 0, partialCnt := false, partWait := false, partSeq := none, partU := 0, partStep := false, partCjn := 0,
    settled := false, held := false }

/-- The key of a book. -/
def bkey (t b : Nat) : Nat := t * 4096 + b

/-- The entry of book b of tenant t. -/
def getBook (s : State) (t b : Nat) : Book := lkD s.books (bkey t b) emptyBook

/-- The state with an entry replaced. -/
def putBook (s : State) (t b : Nat) (k : Book) : State := { s with books := ins s.books (bkey t b) k }

/-- The sales state of an entry: the voted code (R56, R96). -/
def Book.sales (k : Book) : Sales := (Sales.ofCode k.st.maj).getD .dormant

/-- The entry's present contents as a version. -/
def Book.ver (k : Book) : BookVer := ⟨k.te, k.pb, k.margin, k.sales, k.cause⟩

/-- Earlier versions still kept: those in force within the last 4 µs (R162). `succ` is the instant at which the first of
them was superseded. [log 18 DEDUCED, safe] -/
def keepVers (now succ : Nat) : List BookVer → List BookVer
  | [] => []
  | v :: l => if now ≤ succ + 4000 then v :: keepVers now v.te l else []

/-- The contents in force at an instant (R18, R162). [log 18 DEDUCED, safe] -/
def Book.verAt (k : Book) (t : Nat) : BookVer :=
  match (k.ver :: k.prev).find? (fun v => decide (v.te ≤ t)) with
  | some v => v
  | none => (k.prev.getLast?).getD k.ver

/-- A change to an entry at effective instant te: the previous contents are kept beside the new (R162). [log 18 DEDUCED, safe] -/
def changeBook (s : State) (t b te : Nat) (f : Book → Book) : State :=
  let k := getBook s t b
  let k' := f k
  putBook s t b { k' with te := te, prev := k.ver :: keepVers s.now te k.prev }

/-- The frame passes the parting rule: t_accept + u + margin_b < P_b (R164). -/
def eligible (v : BookVer) (acc u : Nat) : Bool := decide (acc + u + v.margin * 1000 < v.pb)

/-- LATE: t_accept + margin_b ≥ P_b (R164). -/
def isLate (v : BookVer) (acc : Nat) : Bool := decide (acc + v.margin * 1000 ≥ v.pb)

/-- The book numbers of tenant t present in the table. -/
def booksOf (s : State) (t : Nat) : List Nat :=
  (s.books.filter (fun p => p.1 / 4096 == t)).map (fun p => p.1 % 4096)

/-- A book is OPEN or SUSPENDED. -/
def onSale (k : Book) : Bool := k.sales == .open || k.sales == .suspended

/-- A book list as a bitmap of 64 parameters (R593). [log 20 DEDUCED, unsafe] -/
def bookBitmap (bs : List Nat) : List Nat :=
  (List.range 64).map (fun i => ((bs.filter (fun b => b / 64 == i)).eraseDups).foldl (fun a b => a + 2 ^ (b % 64)) 0)

/-- SALES events: one EVENT grain per tenant concerned, listing its books, and one in stream D (R60, R57). The list of
stream D is the union over the tenants. [log 20 DEDUCED, unsafe] -/
def salesEvents (s : State) (set mask : Nat) (bs : List (Nat × Nat)) (te cjn : Nat) : State :=
  if bs.isEmpty then s
  else
    let ts := (bs.map (·.1)).eraseDups
    let s1 := ts.foldl (fun a t =>
      let mine := (bs.filter (fun p => p.1 == t)).map (·.2)
      eventT a t 9 4 (evBody 0x0382 ([set, mask] ++ bookBitmap mine)) te a.tim.u
        (match mine with | [b] => b | _ => 0) cjn) s
    eventAt s1 9 4 0x0382 ([set, mask] ++ bookBitmap (bs.map (·.2))) te s.tim.u cjn

/-- The books of a scope (0 one book, 1 a tenant, 2 the device), as tenant and book, that the table holds. -/
def scopeBooks (s : State) (scope t b : Nat) : List (Nat × Nat) :=
  if scope = 0 then [(t, b)]
  else (s.books.map (fun p => (p.1 / 4096, p.1 % 4096))).filter (fun p => scope == 2 || p.1 == t)

/-- Causes of `mask` are set in every OPEN and SUSPENDED book of a list at one effective instant (R59, R60). A cause
already set changes nothing; sales states are frozen in HOLD (Table 2.3), and where they follow a record. -/
def setCauses (s : State) (mask : Nat) (bs : List (Nat × Nat)) (te cjn : Nat) : State :=
  if s.inMode .hold then s
  else
    let hit := bs.filter (fun p =>
      let k := getBook s p.1 p.2
      onSale k && !followsRecord s p.1 && decide (k.cause ||| mask ≠ k.cause))
    let s1 := hit.foldl (fun a p => changeBook a p.1 p.2 te (fun k =>
      { k with cause := k.cause ||| mask, st := votedOf Sales.suspended.code })) s
    salesEvents s1 1 mask hit te cjn

/-- Bits of Table 2.6. -/
def cOPERATOR : Nat := 1
def cSTARVED : Nat := 2
def cBREACH : Nat := 4
def cMIRROR : Nat := 8
def cPAIR : Nat := 16
def cTAMPER : Nat := 32
def cHOLD : Nat := 64

/-- A cause set in all books of every tenant. -/
def setCauseAll (s : State) (mask te cjn : Nat) : State := setCauses s mask (scopeBooks s 2 0 0) te cjn

/-- A cause set in all books of one tenant. -/
def setCauseTenant (s : State) (t mask te cjn : Nat) : State := setCauses s mask (scopeBooks s 1 t 0) te cjn

/-- What becomes of one book when causes are cleared (R59, R173, R416): 0 not concerned, 1 mask reduced, 2 returns to
OPEN, 3 refused WINDOW, 4 refused MIRROR. -/
def clearOutcome (s : State) (mask : Nat) (mirrorOk : Bool) (te : Nat) (k : Book) : Nat :=
  if k.sales ≠ .suspended then 0
  else
    let m := bits k.cause 0 7 &&& (127 ^^^ mask)
    if m = k.cause then 0
    else if (k.cause &&& mask &&& cMIRROR ≠ 0) ∧ mirrorOk = false then 4
    else if m ≠ 0 then 1
    else if te + s.tim.u + k.margin * 1000 < k.pb then 2
    else 3

/-- Causes cleared in the SUSPENDED books of a list at one effective instant. A refused book keeps its whole mask. -/
def clearCauses (s : State) (mask : Nat) (bs : List (Nat × Nat)) (mirrorOk : Nat → Bool) (te cjn : Nat) : State :=
  let out := bs.map (fun p => (p, clearOutcome s mask (mirrorOk p.1) te (getBook s p.1 p.2)))
  let hit := out.filter (fun p => p.2 == 1 || p.2 == 2)
  let s1 := hit.foldl (fun a p => changeBook a p.1.1 p.1.2 te (fun k =>
    let m := k.cause &&& (127 ^^^ mask)
    { k with cause := m, st := if m = 0 then votedOf Sales.open.code else k.st })) s
  salesEvents s1 0 mask (hit.map (·.1)) te cjn

/-- The books of a list with a given outcome. -/
def countOutcome (s : State) (mask : Nat) (bs : List (Nat × Nat)) (mirrorOk : Nat → Bool) (te n : Nat) : Nat :=
  (bs.filter (fun p => clearOutcome s mask (mirrorOk p.1) te (getBook s p.1 p.2) == n)).length

/-- A book enters OPEN from DORMANT: what R170 and R175 count starts anew. [log 19 DEDUCED, safe] -/
def openBook (s : State) (t b te : Nat) : State :=
  changeBook s t b te (fun k =>
    { k with st := votedOf Sales.open.code, cause := 0, late := 0, lateu := 0, lastSeq := none, count := 0,
             partialCnt := false, partWait := false, partSeq := none, settled := false })

/-- The words of an entry (Table 6.1). -/
def bookWords (k : Book) : List Nat :=
  [k.pb % 2 ^ 32, k.pb / 2 ^ 32 % 2 ^ 32, k.margin % 2 ^ 32, k.sales.code + bits k.cause 0 7 * 16]

/-- The CONFIG BOOK grain of a change to an entry (Table 17.3). -/
def configBook (s : State) (t b : Nat) (old : Book) (te cjn : Nat) : State :=
  eventT s t 6 2 ((bookWords old ++ bookWords (getBook s t b)).map (be 4)).flatten te s.tim.u b cjn

/-- The uncertainty in force at a tick: the value of the 1,024-tick interval that holds it (R147). -/
def uAtTick (s : State) (tk : Nat) : Nat :=
  match s.tim.uHist.find? (fun p => decide (p.1 ≤ tk)) with
  | some p => p.2
  | none => (s.tim.uHist.getLast?.map (·.2)).getD s.tim.u

/-- A book that is OPEN or SUSPENDED enters PARTING with effective instant P_b; its mask empties; its PART grain waits
for its number (R168, R59). `stepped` marks a parting that the advancing time base did not reach (R155, R172). -/
def partBook (s : State) (t b : Nat) (u : Nat) (stepped : Bool) (cjn : Nat) : State :=
  let k := getBook s t b
  if onSale k then
    changeBook s t b k.pb (fun k =>
      { k with st := votedOf Sales.parting.code, cause := 0, partWait := true, partU := u, partStep := stepped,
               partCjn := cjn })
  else s

/-- The books whose P_b has been reached by an instant, in ascending order. -/
def dueBooks (s : State) (now : Nat) : List (Nat × Nat) :=
  (s.books.filter (fun p => onSale p.2 && decide (p.2.pb ≤ now))).map (fun p => (p.1 / 4096, p.1 % 4096))

/-- The body of a PART grain (Table 17.3). -/
def partBody (k : Book) : List Byte :=
  be 1 (b2n k.lastSeq.isNone + 2 * b2n k.partialCnt) ++ be 3 0 ++ be 4 k.margin ++ be 8 k.pb
    ++ be 8 (k.lastSeq.getD 0) ++ be 8 k.count ++ be 4 k.late ++ be 4 k.lateu

/-- The PART grain takes the stream's next number at once, ahead of waiting requests of later instants (R169). [log 19 DEDUCED, safe] -/
def numberPart (s : State) (t b : Nat) (flags : Nat) : State :=
  let k := getBook s t b
  let st := strm s t
  let g : GReq := ⟨hdrOf t 4 0 flags k.pb k.partU b k.partCjn, partBody k⟩
  let n := st.next
  let s1 := setStrm s t { st with next := n + 1, numbered := ins st.numbered n g }
  let s2 := putBook s1 t b { k with partWait := false, partSeq := some n }
  let s3 := bumpSat s2 bPRT 0x50 0 32 1
  let s4 := if k.partStep then s3
            else rawSet s3 bPRT 0x54 (max (rawGet s3 bPRT 0x54) (sat 32 (s.now - k.pb)))
  cascade (st.numbered.length + 1) s4 t

end Sys2Proof.Machine
end

