-- ==== Sys2Proof/Machine/Console.lean ====
section
/-! DEFINITION. The consoles' shared operations: replies, the COMMAND grain of each CJN, client tags, and the checks of
stages 5 to 7 before a command executes (chapters 22 and 23). -/
namespace Sys2Proof.Machine

open Sys2Proof

/-! ### Refusal codes of Table 24.2 -/

def eBUSERR : Nat := 0x0102
def eARGS : Nat := 0x0106
def eTAG_CONFLICT : Nat := 0x0107
def eTAGCACHE_FULL : Nat := 0x0108
def eNOT_READY : Nat := 0x0109
def eLOST : Nat := 0x010A
def eCONSOLE : Nat := 0x0201
def eAUTHORITY : Nat := 0x0202
def eAUTH_FAIL : Nat := 0x0203
def eAUTH_LOCKED : Nat := 0x0204
def eROLE : Nat := 0x0205
def eMODE : Nat := 0x0301
def eSTATE : Nat := 0x0302
def eWINDOW : Nat := 0x0303
def eQUALITY : Nat := 0x0304
def eMIRROR : Nat := 0x0305
def eNOSETTLE : Nat := 0x0306
def eBUSY : Nat := 0x0307
def eNOSTAGE : Nat := 0x0401
def eINCOMPLETE : Nat := 0x0402
def eDIGEST : Nat := 0x0403
def eENVELOPE : Nat := 0x0404
def eSIGNATURE : Nat := 0x0405
def eKEY_MISMATCH : Nat := 0x0406
def eORDER : Nat := 0x0407
def eONCE : Nat := 0x0408
def eVERSION : Nat := 0x0409
def eSESSION_REUSED : Nat := 0x040A
def eROLLBACK : Nat := 0x040B
def eFULL : Nat := 0x0601
def ePAIRED : Nat := 0x0602
def eCALIBRATION : Nat := 0x0603
def eNONE_ELIGIBLE : Nat := 0x0A01
def eRETAIN : Nat := 0x0A02
def eUNREADABLE : Nat := 0x0A03
def eREPLAY_REFUSED : Nat := 0x0B03

/-! ### Consoles -/

/-- Console c. -/
def getCon (s : State) (c : Nat) : Console := (s.con.cons[c]?).getD conReset

/-- The state with console c changed. -/
def updCon (s : State) (c : Nat) (f : Console → Console) : State := { s with con.cons := upd s.con.cons c f }

/-- A plain reply. [log 91 DESIGN CHOICE, safe] -/
def reply (code : Nat) (vals : List Int) (bytes : List Byte) : ConReply := ⟨code, vals, bytes, false, none⟩

/-- The text of a whole reply. -/
def replyText (r : ConReply) : List Byte := Config.lineText r.code r.vals ++ r.bytes

/-- The body of a COMMAND grain (Table 17.3): the stored reply fills the body limit of 4,096 bytes at most. [log 127 DEDUCED, safe] -/
def cmdBody (c : Cmd) : List Byte :=
  let text := replyText c.reply
  let stored := text.take (4096 - 52 - c.line.length)
  be 2 c.reply.code ++ be 1 c.auth.code ++ be 1 (b2n c.dup)
    ++ (c.tag ++ List.replicate (12 - c.tag.length) 0) ++ be 2 c.line.length ++ be 2 stored.length
    ++ digBytes (Config.sha256 text) ++ c.line ++ stored

/-- The event lines that wait leave once the console has no reply in progress and RTS is asserted, preceded by EVT LOST
where lines have been discarded (R556). -/
def flushEvt (s : State) (c : Nat) : State :=
  let k := getCon s c
  if k.rts && !(conBusy s c) && !k.evtq.isEmpty then
    let s1 := if k.evtLost > 0 then emitOut s (.conEvtLost c k.evtLost) else s
    let s2 := k.evtq.foldl (fun a l => emitOut a (.conEvt c l)) s1
    updCon s2 c (fun x => { x with evtq := [], evtLost := 0 })
  else s

/-- A reply leaves, or waits without limit for RTS (R549); a baud rate that waits for a line boundary takes effect once
the reply has been sent (R548). -/
def sendReply (s : State) (c cjn : Nat) (r : ConReply) : State :=
  let k := getCon s c
  if k.rts then
    let s1 := emitOut s (.conReply c cjn r)
    let s2 := updCon s1 c (fun x => { x with baud := x.baudNew.getD x.baud, baudNew := none })
    flushEvt s2 c
  else updCon s c (fun x => { x with txq := x.txq ++ [(cjn, r)] })

/-- The record of a command, kept for CJ and, where tagged and not a duplicate, in the tag cache (R567, R569). -/
def keepRecord (s : State) (c : Cmd) : State :=
  let s1 : State := { s with con.records := s.con.records ++ [c] }
  if c.tag.isEmpty || c.dup then s1 else updCon s1 c.con (fun x => { x with tags := c :: x.tags })

/-- COMMAND grains are appended in CJN order as replies are formed (R565). While stream D is not writable the record goes
to the retained command buffer and the reply leaves at once (R67). -/
def appendFormed : Nat → State → State
  | 0, s => s
  | n + 1, s =>
    match s.con.cmds.find? (fun c => c.cjn == s.con.appended + 1 && c.phase == .formed && !c.grained) with
    | none => s
    | some c =>
      let s1 : State := { s with con.appended := c.cjn }
      if s.jrn.dWritable then
        let s2 := reqD s1 ⟨hdrOf sD 10 c.con 0 c.tai c.u 0 c.cjn, cmdBody c⟩
        appendFormed n { s2 with con.cmds := s2.con.cmds.map (fun k => if k.cjn = c.cjn then { k with grained := true } else k) }
      else
        let s2 : State := { s1 with con.cmds := s1.con.cmds.filter (fun k => k.cjn ≠ c.cjn), con.retained := s1.con.retained ++ [c] }
        appendFormed n (sendReply (keepRecord s2 c) c.con c.cjn c.reply)

/-- A reply is formed (R565). -/
def formReply (s : State) (cjn : Nat) (r : ConReply) : State :=
  let s1 : State := { s with con.cmds := s.con.cmds.map (fun k => if k.cjn = cjn then { k with phase := .formed, reply := r } else k) }
  appendFormed s1.con.cmds.length s1

/-- The COMMAND grain of a CJN is durable. [log 127 DEDUCED, safe] -/
def cmdDurable (s : State) (cjn : Nat) : Bool :=
  (strm s sD).grains.any (fun g => g.hdr.typ == 10 && g.hdr.cjn == cjn && decide (g.seq < (strm s sD).dur))

/-! ### The command journal (R567) -/

/-- What a CJ reply shows of one number: its record's values and the bytes of its tag and line, or, where its segment has been retired, no
more than the number. -/
def cjRecord (recs : List Cmd) (n : Nat) : List Int × List Byte :=
  match recs.find? (fun c => c.cjn == n) with
  | none => ([(n : Int), -1], [])
  | some c =>
    ([(n : Int), (c.con : Int), (c.auth.code : Int), (c.reply.code : Int), (c.tai : Int), (b2n c.dup : Int), (c.tag.length : Int), (c.line.length : Int)],
      c.tag ++ c.line)

/-- The reply of a CJ command with number `own`: at most 64 records from `from_` upward, below its own, and whether more exist. [log 91 DESIGN CHOICE, safe] -/
def cjReply (s : State) (from_ own : Nat) : ConReply :=
  let recs := s.con.records ++ s.con.cmds
  let ns := List.range' (max from_ 1) (min 64 (own - max from_ 1))
  let r := ns.map (cjRecord recs)
  reply 0 (r.flatMap (·.1) ++ [(b2n (decide (max from_ 1 + 64 < own)) : Int)]) (r.flatMap (·.2))

/-- Every COMMAND grain below a number is durable, or held as a retained record. -/
def lowerDurable (s : State) (cjn : Nat) : Bool :=
  s.con.cmds.all (fun c => decide (cjn ≤ c.cjn) || (c.grained && cmdDurable s c.cjn))

/-- The CJ replies whose lower COMMAND grains are durable are formed. -/
def tryCj (s : State) : State :=
  s.con.cmds.foldl (fun a c => match c.phase with
    | .cj n => if lowerDurable a c.cjn then formReply a c.cjn (cjReply a n c.cjn) else a
    | _ => a) s

/-! ### Executing a line -/

/-- What a command's action gives: the state, its reply, and the phase it is left in. -/
structure ActRes where
  st : State
  reply : ConReply
  phase : Phase

/-- An action that succeeds. -/
def ok (s : State) (vals : List Int) : ActRes := ⟨s, reply 0 vals [], .formed⟩

/-- An action that succeeds with bytes in its reply. -/
def okB (s : State) (vals : List Int) (b : List Byte) : ActRes := ⟨s, reply 0 vals b, .formed⟩

/-- An action refused with a code of Table 24.2. -/
def err (s : State) (code : Nat) (vals : List Int) : ActRes := ⟨s, reply code vals [], .formed⟩

/-- What a command's row lists (R573): authority, consoles, modes, whether SEALED means after S9, whether its arguments
match its grammar (stage 6), whether a challenge outlives it (R558), whether it is served before S5 (R566), and whether ROM
recovery serves it (R106, R579). -/
structure CmdSpec where
  auth : Auth
  cons : List Nat
  modes : List DMode
  afterS9 : Bool
  argsOk : Bool
  keepChal : Bool
  early : Bool
  rom : Bool

/-- A command for both consoles. -/
def spec (a : Auth) (modes : List DMode) (argsOk : Bool) : CmdSpec := ⟨a, [0, 1], modes, false, argsOk, false, false, false⟩

/-- Every mode after S5. -/
def allModes : List DMode := [.sealed, .live, .quiet, .audit, .replay, .hold]

/-- Separators reduced to single spaces (R569). -/
def normText : List Byte → List Byte
  | [] => []
  | [a] => if a = 0x09 then [0x20] else [a]
  | a :: b :: l =>
    if (a = 0x20 ∨ a = 0x09) ∧ (b = 0x20 ∨ b = 0x09) then normText (b :: l)
    else (if a = 0x09 then 0x20 else a) :: normText (b :: l)

/-- The tagged record of the last 24 hours that a line's tag names on its console (R569). -/
def findTag (s : State) (l : ConLine) : Option Cmd :=
  (getCon s l.con).tags.find? (fun c => c.tag == l.tag && decide (s.now ≤ c.tai + 86400000000000))

/-- Entries of a console's tag cache (R570). -/
def tagCount (s : State) (c : Nat) : Nat :=
  ((getCon s c).tags.filter (fun k => decide (s.now ≤ k.tai + 86400000000000))).length

/-- A well-formed line takes the next CJN (R562). [log 127 DEDUCED, safe] -/
def takeCjn (s : State) (l : ConLine) : Cmd × State :=
  let c : Cmd :=
    { cjn := s.con.nextCjn, con := l.con, auth := (getCon s l.con).auth, line := l.text, tag := l.tag, tai := s.now, u := s.tim.u,
      phase := .running, reply := reply 0 [] [], grained := false, dup := false, resets := false }
  (c, { s with con.nextCjn := s.con.nextCjn + 1, con.cmds := s.con.cmds ++ [c] })

/-- Stage 7 of Table 22.3: mode, console and authority, in that order (R573). While DRAIN is 1, a command that requires QUIET is
refused as in any other mode (R52). [log 24 DEDUCED, safe] -/
def stage7 (s : State) (l : ConLine) (sp : CmdSpec) : Option (Nat × List Int) :=
  match s.mode with
  | none => some (eMODE, [0])
  | some m =>
    if ¬ sp.modes.contains m ∨ (m = .sealed ∧ sp.afterS9 = true ∧ s.sec.done = false)
        ∨ (m = .quiet ∧ s.sys.drain = true ∧ sp.modes.contains .live = false) then some (eMODE, [(m.code : Int)])
    else if ¬ sp.cons.contains l.con then some (eCONSOLE, [])
    else if (getCon s l.con).auth.code < sp.auth.code then some (eAUTHORITY, [])
    else none

/-- An entry of the health event log for which the specification names no code (R566, R579): its code is a free value. -/
def logOpen (s : State) (par : List Nat) : State :=
  let d := drawFree s
  logEvent d.2 ⟨d.1.toNat % 65536, par, s.now, s.tim.u, false, false⟩

/-- The stored reply as a DUP (R569, R571): cut to the stored length, with the digest of the whole, where it is longer. -/
def dupReply (o : Cmd) (cjn : Nat) : ConReply :=
  let text := replyText o.reply
  let room := 4096 - 52 - o.line.length
  let r : ConReply :=
    if text.length ≤ room then o.reply
    else { o.reply with vals := [], bytes := text.take room ++ digBytes (Config.sha256 text) }
  { r with vals := r.vals ++ [(cjn : Int)], dup := true }

/-- A line before the end of S5: STATE and ATTEST, and in ROM recovery LOAD IMAGE with its parts, are served without a CJN; every
other is refused with NOT_READY (R566, R579). -/
def earlyCmd (l : ConLine) (sp : CmdSpec) (act : Nat → State → ActRes) (s : State) : State :=
  if !(sp.early || (sp.rom && s.sec.recovery)) then sendReply s l.con 0 (reply eNOT_READY [] [])
  else if sp.argsOk = false then sendReply s l.con 0 (reply eARGS [] [])
  else match stage7 s l sp with
    | some e => sendReply s l.con 0 (reply e.1 e.2 [])
    | none =>
      let r := act 0 (if sp.early then logOpen s [] else s)
      if r.phase = .formed then sendReply r.st l.con 0 r.reply
      else
        let c := (takeCjn s l).1
        { r.st with con.cmds := r.st.con.cmds ++ [{ c with cjn := 0, phase := r.phase, reply := r.reply }] }

/-- A line after stage 5: its arguments, its mode, console and authority, and its action. -/
def lateCmd (l : ConLine) (sp : CmdSpec) (act : Nat → State → ActRes) (cjn : Nat) (s : State) : State :=
  if sp.argsOk = false then formReply s cjn (reply eARGS [] [])
  else match stage7 s l sp with
    | some e => formReply s cjn (reply e.1 e.2 [])
    | none =>
      let r := act cjn s
      if r.phase = .formed then formReply r.st cjn r.reply
      else { r.st with con.cmds := r.st.con.cmds.map (fun k => if k.cjn = cjn then { k with phase := r.phase, reply := r.reply } else k) }

/-- Stage 5 of Table 22.3 for a tagged line (R569, R570). -/
def tagged (l : ConLine) (sp : CmdSpec) (act : Nat → State → ActRes) (c : Cmd) (s : State) : State :=
  match findTag s l with
  | none => if tagCount s l.con ≥ 262144 then formReply s c.cjn (reply eTAGCACHE_FULL [] []) else lateCmd l sp act c.cjn s
  | some o =>
    if normText o.line = normText l.text then
      if (getCon s l.con).auth.code < o.auth.code then formReply s c.cjn (reply eAUTHORITY [] [])
      else
        let s2 : State := { s with con.cmds := s.con.cmds.map (fun k => if k.cjn = c.cjn then { k with dup := true } else k) }
        formReply (bumpWrap s2 bCON (0x100 + 0x20 * l.con + 0x10) 0 32 1) c.cjn (dupReply o c.cjn)
    else formReply s c.cjn (reply eTAG_CONFLICT [] [])

/-- The device reads a line: not in reset, not while the console's previous reply is unsent (R562), not while the retained
command buffer is full (R67). [log 25 DEDUCED, safe; log 26 DESIGN CHOICE, safe] -/
def readsLine (s : State) (con : Nat) : Bool :=
  decide (con < 2) && !s.pwr.held && !conBusy s con && (s.jrn.dWritable || decide (s.con.retained.length < 65536))

/-- A line that passes stage 4 (R554, R562 to R569): its CJN, its tag, its arguments, its mode, console and authority, and
then its action. [log 24 DEDUCED, safe] -/
def runCmd (l : ConLine) (sp : CmdSpec) (act : Nat → State → ActRes) (s : State) : State :=
  if readsLine s l.con = false then s
  else
    let s0 := updCon s l.con (fun k => { k with lastLine := s.tim.ticks, chal := if sp.keepChal then k.chal else none })
    let s0 := bumpWrap s0 bCON (0x100 + 0x20 * l.con + 0x08) 0 32 1
    if s.sec.s5done = false then earlyCmd l sp act s0
    else
      let t := takeCjn s0 l
      if l.tag.isEmpty then lateCmd l sp act t.1.cjn t.2 else tagged l sp act t.1 t.2

/-- A waiting command completes (R563, R564): the reply that `f` gives for the first command in a phase that `p` picks. -/
def completePhase (s : State) (p : Phase → Bool) (f : Cmd → ConReply) : State :=
  match s.con.cmds.find? (fun c => p c.phase) with
  | none => s
  | some c => formReply s c.cjn (f c)

end Sys2Proof.Machine
end

