-- ==== Sys2Proof/Machine/Modes.lean ====
section
/-! DEFINITION. Mode changes and entry to HOLD (chapter 2, R594). -/
namespace Sys2Proof.Machine

open Sys2Proof

/-- Causes recorded in a MODE event: 0 a command, 1 logout, 2 break, 3 idle (R49), 0x100 + code a HOLD cause. -/
def mcCommand : Nat := 0
def mcLogout : Nat := 1
def mcBreak : Nat := 2
def mcIdle : Nat := 3

/-- HOLD causes of Table 24.4. -/
def hCOMMAND : Nat := 0x01
def hTAMPER : Nat := 0x02
def hZEROIZE : Nat := 0x03
def hBREACH : Nat := 0x04
def hTHERMAL : Nat := 0x05
def hMODE_VOTE : Nat := 0x06
def hTMR_NOVOTE : Nat := 0x07
def hBOOT_STEP : Nat := 0x08
def hOTP_FAIL : Nat := 0x09
def hMGMT_STOP : Nat := 0x0A
def hMGMT_LOCKSTEP : Nat := 0x0B
def hMEDIA_FULL : Nat := 0x0C
def hMEDIA_LOSS : Nat := 0x0D
def hHOLDUP_LOST : Nat := 0x0E
def hAPPEND_UNIT : Nat := 0x0F
def hREPEAT_FAULT : Nat := 0x10
def hNO_CORES : Nat := 0x11

/-- The code held in SYS.MODE, for a grain that records it. [log 21 DESIGN CHOICE, unsafe] -/
def modeCode (s : State) : Nat := s.sys.mode.maj % 8

/-- SYS.MODE written in all three copies, with its effective instant (R46, R96). -/
def putMode (s : State) (m : DMode) : State :=
  { s with sys.mode := votedOf m.code, sys.modeEff := s.now, sys.modeHist := (s.now, m) :: s.sys.modeHist }

/-- A mode change and its EVENT grain in stream D (R47). [log 21 DESIGN CHOICE, unsafe] -/
def changeMode (s : State) (m : DMode) (cause cjn : Nat) : State :=
  let old := modeCode s
  eventD (putMode s m) 9 1 0x0380 [old, m.code, cause, cjn] cjn

/-- The mode that was in force at an instant (R46). -/
def modeAt (s : State) (t : Nat) : DMode :=
  match s.sys.modeHist.find? (fun p => decide (p.1 ≤ t)) with
  | some p => p.2
  | none => .sealed

/-- The head segment of a stream whose grains end before n and whose rows end before `rowEnd`: it stays closed where it ends within
them, else it is the open segment again. Segments of earlier epochs stand where their rows do. -/
def trimSegs (segs : List Segment) (grains : List Grain) (epoch n rowEnd : Nat) : List Segment :=
  match segs.filter (fun g => if g.epoch = epoch then decide (g.first < n) else decide (g.firstRow < rowEnd)) with
  | [] => []
  | g :: r =>
    if g.epoch ≠ epoch ∨ (g.closed ∧ g.next ≤ n ∧ g.lastRow < rowEnd) then g :: r
    else { g with closed := false, rows := rowEnd - g.firstRow,
                  idxEntries := (grains.filter (fun x => decide (g.first ≤ x.seq ∧ x.seq < n ∧ x.hdr.typ ≤ 3))).length } :: r

/-- The number of the dictionary grain in force among some grains, newest first. -/
def dictOf (grains : List Grain) : Option Nat := (grains.find? (fun g => g.hdr.typ == 6 && g.hdr.kind == 5)).map (·.seq)

/-- A stream cut before grain n, its rows before `rowEnd`: every later grain, number and request is discarded. -/
def cutAt (st : Stream) (n rowEnd : Nat) : Stream :=
  let keep := st.grains.filter (fun g => decide (g.seq < n))
  { st with next := n, reqs := [], numbered := [], chained := n, grains := keep, dur := min st.dur n,
            lastDig := match keep with | g :: _ => g.digest | [] => st.genesis,
            segs := trimSegs st.segs st.grains st.epoch n rowEnd, past := st.past.filter (fun g => decide (g.row < rowEnd)), rowIdx := rowEnd, dict := dictOf keep,
            counts := st.counts.filter (fun c => decide (c.row < rowEnd)) }

/-- The row after the last that holds a grain below n. -/
def rowsTo (st : Stream) (n : Nat) : Nat :=
  (st.grains.filter (fun g => decide (g.seq < n)) ++ st.past).foldl (fun a g => max a (g.row + 1)) st.progRow

/-- A stream cut at its last durable grain (R64). -/
def cutStream (st : Stream) : Stream := cutAt st st.dur (rowsTo st st.dur)

/-- The rows of the buffer after the cut: each holds only durable grains' items (R64). -/
def cutRows (s : State) : List Row :=
  (s.jrn.rows.map (fun r =>
    let st := strm s r.stream
    let gs := (st.grains.filter (fun g => decide (g.seq < st.dur)) ++ st.past).filter (fun g => g.row == r.idx)
    { r with used := gs.foldl (fun a g => max a g.rowEnd) 0 })).filter (fun r => decide (r.used > 0))

/-- The buffer and the streams cut at the last durable grain of each stream (R64). A command whose COMMAND grain is
discarded by the cut goes to the retained command buffer. [log 22 DEDUCED, unsafe] -/
def cutJournal (s : State) : State :=
  let back := s.con.cmds.filter (fun c => c.grained && !((strm s sD).grains.any (fun g => g.hdr.typ == 10 && g.hdr.cjn == c.cjn && decide (g.seq < (strm s sD).dur))))
  let s1 : State := { s with jrn.rows := cutRows s, jrn.streams := s.jrn.streams.map (fun p => (p.1, cutStream p.2)) }
  back.foldl (fun a c =>
    sendReply (keepRecord { a with con.cmds := a.con.cmds.filter (fun k => k.cjn ≠ c.cjn), con.retained := a.con.retained ++ [c] } c)
      c.con c.cjn c.reply) s1

/-- Entry to HOLD ends every completion phase with the mode-refusal error and HOLD as the final mode (R564, 2.2). -/
def endPhases (s : State) : State :=
  { s with con.cmds := s.con.cmds.map (fun c => match c.phase with
      | .running => c
      | .formed => c
      | .hold => c
      | _ => { c with phase := .formed, reply := reply eMODE [6] [] }) }

/-- Entry to HOLD (R64), whatever the cause: the mode, the tenants deactivated, the sequencers, cores and JAU stopped, the
buffer cut; the flush and the HOLD grains follow at HOLD_FLUSH_COMPLETE. Where stream D is not writable the HOLD and MODE
events wait in the health event log (R66). In HOLD it starts no second entry (R48). [log 22 DEDUCED, unsafe] -/
def enterHold (s : State) (cause detail cjn : Nat) : State :=
  if s.inMode .hold then s
  else
    let old := modeCode s
    let hf : HoldFlush := ⟨cause, detail, s.now, s.tim.u, cjn, old, (activeTenants s).filter (fun t => !mirroredHere s t)⟩
    let s1 : State := putMode { s with sys.drain := false, hlt.holdCause := some cause,
                                       sec.holdBooks := ((if s.sec.exitDone then [] else s.sec.holdBooks)
                                         ++ (s.books.filter (fun p => onSale p.2)).map (·.1)).eraseDups,
                                       sec.heldHold := true } .hold
    let s2 : State := { s1 with awp.inputs := [], awp.runq := [], awp.replies := [],
                                cpu.cores := s1.cpu.cores.map (fun p => (p.1, { p.2 with bind := none, present := none, granted := none })) }
    let s3 := cutJournal s2
    let s4 := logEvent s3 ⟨0x0380, [old, 6, 0x100 + cause, cjn], s.now, s.tim.u, true, false⟩
    let s5 := logEvent s4 ⟨0x0381, [cause, detail], s.now, s.tim.u, true, false⟩
    let s6 : State := { s5 with jrn.holdFlush := if s.jrn.dWritable then some hf else none, jrn.closed := !s.jrn.dWritable, jrn.dWritable := false }
    let s7 := evtLine (evtLine s6 ⟨0x0380, [old, 6, 0x100 + cause, cjn]⟩) ⟨0x0381, [cause, detail]⟩
    let s8 := endPhases s7
    if cjn = 0 then appendFormed s8.con.cmds.length s8 else s8

end Sys2Proof.Machine
end

