-- ==== Sys2Proof/Machine/Time.lean ====
section
/-! DEFINITION. Legal time: the tick, the uncertainty, the references' samples, the quality (chapter 5). -/
namespace Sys2Proof.Machine

open Sys2Proof

/-! ### The tick -/

/-- The remaining correction after n ticks: one unit a tick, that is 10 µs per second (R152). -/
def slewRem (rem : Int) (n : Nat) : Int :=
  if rem ≥ 0 then max 0 (rem - n) else min 0 (rem + n)

/-- n TCLK ticks pass: the time base advances 1.25 ns on each, and a remaining correction is removed at 10 ppm (R142,
R152). [log 1 DESIGN CHOICE, unsafe; log 37 DESIGN CHOICE, safe] -/
def advance (s : State) (n : Nat) : State :=
  if s.tim.running then
    let r := slewRem s.tim.rem n
    { s with tim.ticks := s.tim.ticks + n, tim.tai := (((s.tim.tai + 100000 * n : Nat) : Int) + (s.tim.rem - r)).toNat, tim.rem := r }
  else { s with tim.ticks := s.tim.ticks + n }

/-! ### Settings -/

/-- TIM.UMAX: the voted value (R96). -/
def umaxOf (s : State) : Nat := s.tim.umax.maj

/-- The declared accuracy a_ref of a reference, ns (R139). -/
def aRef (s : State) (r : Nat) : Nat := if r < 2 then fget s bTIM 0x2C 0 16 else fget s bTIM 0x2C 16 16

/-- A reference is enabled in TIM.REFEN (R137). -/
def refEnabled (s : State) (r : Nat) : Bool := bit (rawGet s bTIM 0x38) r

/-- Reference r. -/
def getRef (s : State) (r : Nat) : TimeRef := (s.tim.refs[r]?).getD refReset

/-- The state with reference r changed. -/
def updRef (s : State) (r : Nat) (f : TimeRef → TimeRef) : State := { s with tim.refs := upd s.tim.refs r f }

/-- Number of good references. -/
def goodCount (s : State) : Nat := (s.tim.refs.filter (·.good)).length

/-- The steering reference: the first good one in the order of TIM.CTRL.PRIO; none during BREACH (R138, R153). -/
def steering (s : State) : Option Nat :=
  if s.tim.breach then none
  else ((List.range 4).map (fun i => bits (rawGet s bTIM 0x34) (2 * i) 2)).find? (fun r => (getRef s r).good)

/-! ### Uncertainty (R147, R152) -/

/-- u = u0 + d·Δ + ½·a·Δ², for Δ of n ticks, rounded up to whole nanoseconds. u0 is in 1/80,000 ns; TIM.DRIFT is in 0.01
ppb and TIM.AGING in 0.001 ppb per day. The common denominator of the two terms is 2 · 1,000 · 86,400 · (8·10^8)². -/
def uFormula (u0 drift aging n : Nat) : Nat :=
  let a := 110592000000000000000000000
  let num := u0 * a + 80000 * (drift * n * 1382400000000000 + aging * n * n)
  (num + (80000 * a - 1)) / (80000 * a)

/-- The uncertainty for the end of the coming interval (R147), with the remaining correction of R152. -/
def uNow (s : State) : Nat :=
  match s.tim.lastSteer with
  | none => 0xFFFFFFFF
  | some t =>
    let f := uFormula s.tim.u0 (fget s bTIM 0x24 0 16) (fget s bTIM 0x28 0 16) (s.since t + 1024)
    let r := if s.tim.rem = 0 then 0 else (s.tim.rem.natAbs + 79999) / 80000 + aRef s s.tim.remRef
    min (max f r) 0xFFFFFFFF

/-- u as reported and latched, kept with the tick from which it holds. -/
def putU (s : State) : State :=
  let v := uNow s
  { s with tim.u := v, tim.uHist := (s.tim.ticks, v) :: s.tim.uHist.take 63 }

/-! ### Quality (R149, R150) -/

/-- The first state of Table 5.4 whose condition holds. -/
def qualOf (s : State) : Qual :=
  if s.tim.acquired = false then .none
  else if s.tim.breach then .breach
  else if s.tim.u > umaxOf s then .starved
  else if goodCount s = 0 then .holdover
  else if goodCount s = 1 then .degraded
  else .locked

/-- The quality is evaluated; a change writes its TIME grains, sets its cause, and a BREACH with BRHOLD enters HOLD. [log 23 DEDUCED, safe] -/
def putQual (s : State) : State :=
  let q := qualOf s
  if q = s.tim.qual then s
  else
    let s1 := eventAll { s with tim.qual := q } 7 1 0x0580 [s.tim.qual.code, q.code, s.tim.u] 0
    match q with
    | .starved => setCauseAll (bumpSat s1 bTIM 0x84 0 32 1) cSTARVED s1.now 0
    | .breach =>
      let s2 := setCauseAll (bumpSat s1 bTIM 0x80 0 32 1) cBREACH s1.now 0
      if fget s2 bTIM 0x34 8 1 = 1 then enterHold s2 hBREACH 0 0 else s2
    | _ => s1

/-- u recomputed and the quality evaluated. [log 23 DEDUCED, safe] -/
def recompute (s : State) : State := putQual (putU s)

/-! ### Leap seconds (R146) -/

/-- The present leap-second offset and UTCSTALE (R146). [log 40 DEDUCED, safe] -/
def leapNow (s : State) : Int × Bool :=
  let sec := s.now / 1000000000
  match s.tim.leaps with
  | [] => (0, true)
  | (t0, o0) :: _ =>
    if sec < t0 then (o0, true)
    else
      let o := (s.tim.leaps.filter (fun p => decide (p.1 ≤ sec))).foldl (fun _ p => p.2) o0
      (o, match s.tim.leapEnd with | some e => decide (s.now > e * 1000000000) | none => true)

/-- LEAPOFF and UTCSTALE brought up to date. [log 40 DEDUCED, safe] -/
def putLeap (s : State) : State := { s with tim.leapOff := (leapNow s).1, tim.utcStale := (leapNow s).2 }

/-! ### Samples (R137, R138, R148, R152) -/

/-- Consecutive valid samples that qualify a reference (Table 5.2). -/
def qualifyAt (r : Nat) : Nat := if r < 2 then 4 else 8

/-- Time is set in S8 by the first reference to qualify: the time base takes its time, with no breach test (R143). The
setting moves the time base forward. -/
def acquireFirst (s : State) (r : Nat) (off : Int) : State :=
  putLeap { s with tim.tai := ((s.tim.tai : Int) + off).toNat, tim.rem := 0, tim.remRef := r, tim.u0 := 80000 * aRef s r,
                   tim.lastSteer := some s.tim.ticks, tim.acqFirst := some s.tim.ticks }

/-- S8 waits for time (R143). -/
def inS8 (s : State) : Bool := s.sec.step == 8 && !s.sec.done && !s.sec.fail && s.inMode .sealed && s.tim.acqStart.isSome

/-- A valid sample of reference r with its offset (the reference's time minus the time base, in 1/80,000 ns). -/
def validSample (s : State) (r : Nat) (off : Int) : State :=
  let k := getRef s r
  let n := k.valid + 1
  let s1 := updRef s r (fun x => { x with valid := n, invalid := 0, lastSample := some s.tim.ticks })
  let s2 := rawSet s1 bTIM (0x40 + 4 * r) (satSigned 32 (off / 80000))
  if k.good then
    if off.natAbs > 80000 * (s.tim.u + aRef s r) then
      recompute (updRef { s2 with tim.breach := true } r (fun x => { x with failed := true }))
    else
      if steering s2 = some r then
        recompute { s2 with tim.u0 := 80000 * aRef s r + off.natAbs, tim.lastSteer := some s.tim.ticks, tim.rem := off, tim.remRef := r }
      else s2
  else if n ≥ qualifyAt r then
    let s3 := updRef s2 r (fun x => { x with good := true })
    if inS8 s3 && s3.tim.acqFirst.isNone then recompute (acquireFirst s3 r off) else recompute s3
  else s2

/-- An invalid or missing sample of reference r; the third in a row loses a good one (Table 5.2). -/
def invalidSample (s : State) (r : Nat) : State :=
  let k := getRef s r
  let n := k.invalid + 1
  let s1 := updRef s r (fun x => { x with valid := 0, invalid := n })
  if k.good && decide (n ≥ 3) then recompute (bumpSat (updRef s1 r (fun x => { x with good := false })) bTIM 0x88 0 32 1)
  else s1

/-- A UTC instant in seconds and nanoseconds of its label (`sec` counts labels of 86,400 s days; `leap60` marks a label
with second 60) converted to TAI ns, or refused (R145). A label that two offsets give is the later instant, since the earlier
one is then second 60. -/
def utcToTai (s : State) (sec ns : Nat) (leap60 : Bool) : Option Nat :=
  match s.tim.leapEnd, s.tim.leaps with
  | some e, _ :: _ =>
    if leap60 then none
    else
      let hits := s.tim.leaps.zipIdx.filterMap (fun p =>
        let t : Int := sec + p.1.2
        let upper : Option Nat := (s.tim.leaps[p.2 + 1]?).map (·.1)
        if decide (p.2 = 0 ∨ t ≥ p.1.1) && (match upper with | some v => decide (t < v) | none => true) then some t else none)
      match hits.getLast? with
      | some t => if t.toNat * 1000000000 + ns ≤ e * 1000000000 then some (t.toNat * 1000000000 + ns) else none
      | none => none
  | _, _ => none

end Sys2Proof.Machine
end

