-- ==== Sys2Proof/Machine/Mirror0.lean ====
section
/-! DEFINITION. The mirror link's state and its sending side (chapter 16): link changes, frames out, the stream of a tenant
from the primary, the shadow's digests. -/
namespace Sys2Proof.Machine

open Sys2Proof

/-! ### Frame kinds of Table 16.1 -/

def mRECORD : Nat := 2
def mGRAIN : Nat := 3
def mANCHOR : Nat := 4
def mDIGEST : Nat := 5
def mACK : Nat := 6
def mNACK : Nat := 7
def mPOSITION : Nat := 8
def mDIVERGE : Nat := 9

/-- What a device keeps of a tenant of the mirror link before it is attached. -/
def mirReset : MirTen := ⟨0, none, 0, true, 0, false⟩

/-- Tenant t of the mirror link. -/
def getMir (s : State) (t : Nat) : MirTen := lkD s.mir.tens t mirReset

/-- The state with tenant t of the mirror link changed. -/
def updMir (s : State) (t : Nat) (f : MirTen → MirTen) : State := { s with mir.tens := ins s.mir.tens t (f (getMir s t)) }

/-- The quads of the mirror link that are UP (Table 16.3). -/
def upQuads (s : State) : List Nat :=
  (List.range 12).filter (fun q => bit (rawGet s bMIR 0x10) q && (match lk s.lane.ports (q * 4) with | some p => p.state == 3 | none => false))

/-- The selected quads. -/
def linkQuads (s : State) : List Nat := (List.range 12).filter (bit (rawGet s bMIR 0x10))

/-- Every selected quad is UP (R403). -/
def linkReady (s : State) : Bool := !(linkQuads s).isEmpty && upQuads s == linkQuads s

/-- The link runs: after the SEALED exit, not in REPLAY (R417, Table 2.3), on a PRIMARY or SHADOW (Table 2.7). -/
def linkAllowed (s : State) : Bool := s.sec.exitDone && !(s.inMode .replay) && (s.role == .primary || s.role == .shadow)

/-- The first unmatched number of a tenant (R414). -/
def firstUnmatched (s : State) (t : Nat) : Nat := match (getMir s t).matched with | some m => m + 1 | none => 0

/-- The lag of a tenant in grains (R414). -/
def lagOf (s : State) (t : Nat) : Nat := (strm s t).dur - firstUnmatched s t

/-- The age of the oldest unmatched grain in ticks; 0 where every durable grain is matched. -/
def lagAge (s : State) (t : Nat) : Nat :=
  if lagOf s t = 0 then 0
  else match grainAt s t (firstUnmatched s t) with | some g => s.since g.durAt | none => 0

/-! ### Link states (R403, R406) -/

/-- The MIRROR LINK event. -/
def linkEvent (s : State) : State := eventD s 9 9 0x0B80 [s.mir.link, (upQuads s).foldl (fun a q => a + 2 ^ q) 0] 0

/-- The lowest number that the unacknowledged DIGEST frames of a tenant carry, else its next number to report. -/
def digBack (s : State) (t : Nat) : Nat :=
  (s.mir.buf.filter (fun f => f.kind == mDIGEST && f.tenant == t)).foldl (fun a f => min a (ofBe (f.body.take 8))) (getMir s t).digNext

/-- What both sides discard when the link goes DOWN: frames not acknowledged, credits, numbering. Digests of discarded
DIGEST frames wait again (R409). -/
def linkClear (s : State) : State :=
  let tens := s.mir.tens.map (fun p => (p.1, { p.2 with digNext := digBack s p.1 }))
  { s with mir.txNext := 1, mir.txAcked := 0, mir.rxNext := 1, mir.used := 0, mir.limit := 0, mir.buf := [], mir.rxSince := 0,
           mir.ackTick := s.tim.ticks, mir.retxTick := s.tim.ticks, mir.ackSent := s.tim.ticks, mir.tens := tens }

/-- The link takes a state: a change is journaled, or counted in its 1 s window (R363, R406). -/
def linkTo (s : State) (new : Nat) : State :=
  if s.mir.link = new then s
  else
    let s1 : State := { s with mir.link := new }
    let s2 := if new = 0 then bumpSat (linkClear s1) bMIR 0x90 0 16 1 else s1
    match s2.mir.winStart with
    | none => linkEvent { s2 with mir.winStart := some s.tim.ticks, mir.further := 0 }
    | some _ => { s2 with mir.further := s2.mir.further + 1 }

/-- The HELLO that a side sends when every quad is UP (R403); it has no LSEQ. -/
def sendHello (s : State) : State :=
  emitOut (linkTo s 1) (.mirror 0 1 0 (be 1 s.role.code ++ be 3 0 ++ digBytes Config.idHash))

/-- The link follows its quads: HELLO when all are UP, DOWN when none is. -/
def linkFollow (s : State) : State :=
  if s.mir.link = 0 then (if linkReady s && linkAllowed s then sendHello s else s)
  else if (upQuads s).isEmpty then linkTo s 0
  else s

/-- Tenants whose MIRROR bit is clear are detached (Table 16.3). -/
def mirDetach (s : State) : State :=
  { s with mir.tens := s.mir.tens.map (fun p => (p.1, if tenantBit s bMIR 0x40 p.1 then p.2 else { p.2 with st := 0 })) }

/-! ### Sending (R404, R405) -/

/-- Credits that a frame consumes. -/
def mirCredits (kind len : Nat) : Nat := if kind = mACK ∨ kind = mNACK then 0 else (32 + len + 4095) / 4096

/-- Bytes of the 16 MiB retransmit buffer in use. -/
def mirBuffered (s : State) : Nat := s.mir.buf.foldl (fun a f => a + 32 + f.body.length) 0

/-- The frame may be sent now: the link is UP, the peer's credit limit and the retransmit buffer allow it. -/
def mirMay (s : State) (kind len : Nat) : Bool :=
  s.mir.link == 2 && decide (mirCredits kind len = 0 ∨ s.mir.used + mirCredits kind len ≤ s.mir.limit)
    && decide (mirBuffered s + 32 + len ≤ 16 * 2 ^ 20)

/-- A frame is sent under the next LSEQ and kept until an ACK covers it. -/
def mirSend (s : State) (kind tenant : Nat) (body : List Byte) : State :=
  let f : MFrame := ⟨s.mir.txNext, kind, tenant, body⟩
  emitOut { s with mir.txNext := s.mir.txNext + 1, mir.used := s.mir.used + mirCredits kind body.length, mir.buf := s.mir.buf ++ [f],
                   mir.ackTick := if s.mir.buf.isEmpty then s.tim.ticks else s.mir.ackTick } (.mirror f.lseq kind tenant body)

/-- The credit limit that this side grants is its own choice: free. [log 45 DEDUCED, safe] -/
def sendAck (s : State) : State :=
  if mirMay s mACK 16 then
    let d := drawFree s
    mirSend { d.2 with mir.rxSince := 0, mir.ackSent := s.tim.ticks } mACK 0 (be 8 (s.mir.rxNext - 1) ++ be 8 d.1.toNat)
  else s

/-- A NACK names the next LSEQ expected. [log 45 DEDUCED, safe] -/
def sendNack (s : State) : State := if mirMay s mNACK 8 then mirSend s mNACK 0 (be 8 s.mir.rxNext) else s

/-! ### The primary's stream (R407) -/

/-- The bytes of an effect entry (R522). -/
def effectBytes (pos : Nat) (e : Effect) : List Byte :=
  be 2 pos ++ be 1 e.unit ++ be 1 0 ++ be 2 e.op ++ be 1 e.res.length ++ be 1 0 ++ be 8 e.dig.toNat
    ++ (e.res.map (fun w => be 1 w.tag.toNat ++ be 8 w.val.toNat)).flatten

/-- The bytes of a sequenced input (Table 15.8). -/
def inputBytes (i : Input) : List Byte :=
  be 8 i.seq ++ be 8 i.tai ++ be 4 i.u ++ be 1 i.route.lane ++ be 1 (if i.route.v6 then 6 else 4) ++ be 1 i.typ ++ be 1 0
    ++ be 1 i.tenant ++ be 1 0 ++ be 2 i.book ++ be 4 i.terminal ++ be 4 i.session ++ be 6 i.counter
    ++ be 2 i.payload.length ++ be 2 i.route.sport ++ be 2 i.route.dport ++ be 16 i.route.src.toNat
    ++ be 16 i.route.dst.toNat ++ i.payload

/-- The plaintext body of the INPUT item of a grain (Table 21.1): UNPAIRED and RERUN as the grain and its evaluation give them. -/
def recordBody (g : Grain) (i : Input) : List Byte :=
  inputBytes i ++ be 2 (bits g.hdr.flags 1 1 + 2 * b2n i.reran + 4 * b2n (g.hdr.typ == 3)) ++ be 2 i.log.length ++ be 4 0
    ++ (i.log.zipIdx.map (fun p => effectBytes p.2 p.1)).flatten

/-- The frame of a grain: a RECORD for a WAGER or CANCEL, else a GRAIN. -/
def grainFrame (g : Grain) : Nat × List Byte :=
  match g.recd with
  | some i => if g.hdr.typ = 1 ∨ g.hdr.typ = 2 then (mRECORD, recordBody g i) else (mGRAIN, hdrBytes g.hdr g.seq g.body.length ++ g.body)
  | none => (mGRAIN, hdrBytes g.hdr g.seq g.body.length ++ g.body)

/-- The digest of the grain before number k, or the genesis digest. -/
def digestBefore (s : State) (t k : Nat) : Digest :=
  if k = 0 then (strm s t).genesis else match grainAt s t (k - 1) with | some g => g.digest | none => 0

/-- The durable grains of a tenant are sent in order while the credits last, after an ANCHOR where one is due. [log 46 DEDUCED, unsafe] -/
def mirPump : Nat → State → Nat → State
  | 0, s, _ => s
  | n + 1, s, t =>
    let m := getMir s t
    if m.st = 0 ∨ m.st = 3 ∨ m.sendNext ≥ (strm s t).dur then s
    else if m.anchorDue then
      if mirMay s mANCHOR 40 then
        mirPump n (mirSend (updMir s t (fun x => { x with anchorDue := false, st := 2 })) mANCHOR t (be 8 m.sendNext ++ digBytes (digestBefore s t m.sendNext))) t
      else s
    else match grainAt s t m.sendNext with
      | none => s
      | some g =>
        let f := grainFrame g
        if mirMay s f.1 f.2.length then mirPump n (mirSend (updMir s t (fun x => { x with sendNext := x.sendNext + 1 })) f.1 t f.2) t
        else s

/-- The primary sends what it can of a tenant. -/
def mirrorPump (s : State) (t : Nat) : State :=
  if s.role == .primary && tenantBit s bMIR 0x40 t && linkAllowed s then mirPump ((strm s t).dur - (getMir s t).sendNext + 1) s t else s

/-- The primary sends what it can of every tenant. -/
def mirrorPumpAll (s : State) : State := (s.mir.tens.map (·.1)).foldl mirrorPump s

/-! ### Cause MIRROR (R412, R414, R415) -/

/-- The key of a session: tenant (0x40 for a device management session) and session ID (15.3). -/
def skey (t session : Nat) : Nat := t * 2 ^ 32 + session

/-- A CLOSING session with no reply due is freed (R381). -/
def freeIfDone (s : State) (key : Nat) : State :=
  match lk s.awp.sessions key with
  | some x => if !x.opened && x.unreplied == 0 then { s with awp.sessions := del s.awp.sessions key } else s
  | none => s

/-- One reply of a session has been released or discarded: the session's count falls (R381, R394). -/
def replyGone (s : State) (t session : Nat) : State :=
  match lk s.awp.sessions (skey t session) with
  | none => s
  | some x =>
    freeIfDone { s with awp.sessions := ins s.awp.sessions (skey t session) { x with unreplied := x.unreplied - 1 } } (skey t session)

/-- Cause MIRROR is set for a tenant; with SYNC its unreleased replies are discarded and their inputs leave the store. [log 47 DEDUCED, safe] -/
def mirrorCause (s : State) (t : Nat) : State :=
  let s1 := setCauseTenant s t cMIRROR s.now 0
  if syncOn s t then
    let gone := s1.awp.replies.filter (fun r => r.tenant == t)
    let s2 : State := { s1 with awp.replies := s1.awp.replies.filter (fun r => r.tenant ≠ t),
                                awp.inputs := s1.awp.inputs.filter (fun i => !(i.tenant == t && gone.any (fun r => r.seq == i.seq))) }
    gone.foldl (fun a r => replyGone a t r.session) (bumpSat s2 bMIR 0x8C 0 32 gone.length)
  else s1

/-- The lag of a tenant exceeds its limits (R414). -/
def lagBeyond (s : State) (t : Nat) : Bool :=
  decide (lagOf s t > fget s bMIR 0x50 0 16 ∨ lagAge s t > ticksOfMs (fget s bMIR 0x50 16 10))

/-- The lag limits are tested (R414): grains, and the age of the oldest. [log 47 DEDUCED, safe] -/
def lagTest (s : State) (t : Nat) : State :=
  let m := getMir s t
  if !(s.role == .primary && tenantBit s bMIR 0x40 t) || m.st == 3 then s
  else
    let beyond := lagBeyond s t
    if beyond = m.lagged then s
    else
      let s1 := updMir s t (fun x => { x with lagged := beyond })
      if beyond then mirrorCause s1 t else s1

/-! ### What durability and a match bring (R22, R407) -/

/-- Inputs leave the retained-input store once their grain is durable and, with SYNC, matched. -/
def releaseInputs (s : State) (t : Nat) : State :=
  let n := if syncOn s t then min (strm s t).dur (firstUnmatched s t) else (strm s t).dur
  { s with awp.inputs := s.awp.inputs.filter (fun i => !(i.tenant == t && decide (i.seq < n))) }

/-- The code of the `EVT PART` line (the model's own: no event of Table 24.3 has it). -/
def evtPART : Nat := 0x10000

/-- What the durability of one grain brings: a VOID grain counts as its frame's reply (R425); a PART and a CLOSE grain have
their console lines where PRT.EVTCFG selects them (R174). -/
def durableEffect (s : State) (t : Nat) (g : Grain) : State :=
  if g.hdr.typ = 3 ∧ mirroredHere s t = false then replyGone s t g.hdr.session
  else if g.hdr.typ = 4 ∧ fget s bPRT 0x60 0 1 = 1 then
    evtLine s ⟨evtPART, [t, g.hdr.book] ++ (if bit (ofBe (g.body.take 1)) 0 then [] else [ofBe ((g.body.drop 16).take 8)])⟩
  else if g.hdr.typ = 9 ∧ g.hdr.kind = 3 ∧ fget s bPRT 0x60 1 1 = 1 then
    evtLine s ⟨0x0383, [g.hdr.book, ofBe ((g.body.drop 16).take 8)]⟩
  else s

/-- The grains of a stream below a number are durable from now on. [log 62 DEDUCED, safe] -/
def nowDurable (s : State) (t n : Nat) : State :=
  let st := strm s t
  if n ≤ st.dur then s
  else
    let s1 := setDur s t n
    if t = sD then s1
    else
      let fresh := (st.grains.filter (fun g => decide (st.dur ≤ g.seq ∧ g.seq < n))).reverse
      lagTest (mirrorPump (releaseInputs (fresh.foldl (fun a g => durableEffect a t g) s1) t) t) t

end Sys2Proof.Machine
end

