-- ==== Sys2Proof/Machine/Transit.lean ====
section
/-! DEFINITION. Mode transitions, the SEALED exit, the drain (chapter 2, R68, R172). -/
namespace Sys2Proof.Machine

open Sys2Proof

/-- A sequenced input is not yet durable. -/
def inFlight (s : State) (t : Nat) : Nat :=
  (s.awp.inputs.filter (fun i => i.tenant == t && !(isDurable s t i.seq))).length

/-- Some sequenced input of some tenant is not durable (R51). -/
def anyInFlight (s : State) : Bool := s.awp.inputs.any (fun i => !(isDurable s i.tenant i.seq))

/-- The quality allows LIVE (Table 2.2). -/
def qualLive (s : State) : Bool := s.tim.qual == .locked || s.tim.qual == .degraded || s.tim.qual == .holdover

/-- The transitions of Table 2.2 with their preconditions, authority and console apart. `replayOk` is the entry rule of
REPLAY (R535). -/
def transitOk (s : State) (m : DMode) (replayOk : Bool) : Bool :=
  match s.mode, m with
  | some .sealed, .quiet => s.sec.done && s.role != .none
  | some .sealed, .live => s.sec.done && (s.role == .primary || s.role == .shadow) && qualLive s
  | some .live, .quiet => true
  | some .quiet, .live => (s.role == .primary || s.role == .shadow) && qualLive s
  | some .quiet, .audit => !s.sys.drain
  | some .audit, .quiet => true
  | some .quiet, .replay => s.role == .lab && !s.sys.drain && replayOk
  | some .replay, .quiet => true
  | some .hold, _ => false
  | some _, .hold => true
  | _, _ => false

/-- The partings that fell due: each book enters PARTING at its own P_b, and its PART grain is numbered after the
tenant's last grain, in ascending P_b and book order (R68, R172). -/
def deferredPartings (s : State) : State :=
  (dueBooks s s.now).foldl (fun a p => numberPart (partBook a p.1 p.2 a.tim.u true 0) p.1 p.2 4) s

/-- A book in PARTING: where its PART grain is durable it closes; where none is numbered it receives one (R172). -/
def settleParting (s : State) (t b : Nat) : State :=
  let k := getBook s t b
  if k.sales ≠ .parting then s
  else match k.partSeq with
    | some n =>
      if isDurable s t n then
        let s1 := changeBook s t b s.now (fun k => { k with st := votedOf Sales.closed.code })
        eventOwn s1 t 9 3 0x0383 [b, n] s.now s.tim.u b 0 4
      else s
    | none => numberPart (putBook s t b { k with partWait := true, partStep := true, partU := s.tim.u }) t b 4

/-- The actions of the first SEALED exit (R108, R68, R172, R124, R382): partings that fell due, books left in PARTING,
cause HOLD in the books that were on sale when HOLD was entered, the pending SUSPEND reactions, an empty session table; the mirror link may then say HELLO (R417). -/
def sealedExit (s : State) (cjn : Nat) : State :=
  if s.sec.exitDone then s
  else
    let s0 : State := { s with sec.exitDone := true, awp.sessions := [] }
    let s1 := (s0.books.map (fun p => (p.1 / 4096, p.1 % 4096))).foldl (fun a p => settleParting a p.1 p.2) s0
    let s2 := deferredPartings s1
    let s3 := if s2.sec.heldHold then
        setCauses { s2 with sec.heldHold := false, sec.holdBooks := [] } cHOLD
          (s2.sec.holdBooks.map (fun k => (k / 4096, k % 4096))) s2.now cjn
      else s2
    linkFollow (if s3.sec.suspPend then setCauseAll { s3 with sec.suspPend := false } cTAMPER s3.now cjn else s3)

/-- A transition of Table 2.2 is performed (R47, R51, R108). -/
def transit (s : State) (m : DMode) (cause cjn : Nat) : State :=
  match m with
  | .hold => enterHold s hCOMMAND 0 cjn
  | _ =>
    let fromSealed := s.inMode .sealed
    let fromLive := s.inMode .live
    let s1 := changeMode s m cause cjn
    let s2 := if fromSealed then sealedExit s1 cjn else s1
    match m with
    | .quiet => if fromLive then { s2 with sys.drain := anyInFlight s2 } else s2
    | _ => { s2 with sys.drain := false }

/-- The end of the REGULATE authority that entered AUDIT returns the device to QUIET (R49). [log 88 DEDUCED, unsafe] -/
def auditEnds (s : State) (cause : Nat) : State :=
  if s.inMode .audit && s.con.auditHolder then
    transit { s with con.auditHolder := false } .quiet cause 0
  else s

/-- A write to SYS.MODE by the management cluster (R101): an allowed transition, or MODEREF. [log 15 DEDUCED, unsafe] -/
def modeWrite (s : State) (code : Nat) : State :=
  match DMode.ofCode code with
  | some m => if transitOk s m true then transit s m mcCommand 0 else fset s bSYS 0x20 8 1 1
  | none => fset s bSYS 0x20 8 1 1

end Sys2Proof.Machine
end

