-- ==== Sys2Proof/Machine/Groups.lean ====
section
/-! DEFINITION. Buffered registers and update groups (3.4), the operations of PRT.BOOKCMD and the entry writes of the
parting table (chapter 6). -/
namespace Sys2Proof.Machine

open Sys2Proof

/-- The update group of a block (Table 3.1). -/
def groupOf (b : Nat) : Option Nat :=
  if b ≤ 0x07 then some b
  else if b = bSEQ ∨ b = bAWP then some 8
  else if b = bMIR then some 9 else if b = bJRN then some 10 else if b = bFLC then some 11
  else if b = bWIT then some 12 else if 0x10 ≤ b ∧ b ≤ 0x1B then some 13
  else if 0x20 ≤ b ∧ b ≤ 0x2B then some 14
  else if b = bRPL ∨ b = bCON ∨ b = bHLT then some 15 else none

/-- A slot holds a block (R70). -/
def assigned (b : Nat) : Bool := (groupOf b).isSome

/-- The blocks of a group, ascending. -/
def groupBlocks (g : Nat) : List Nat := (List.range 0x40).filter (fun b => groupOf b == some g)

/-- The offsets of a block's buffered registers, ascending. -/
def buOffsets (b : Nat) : List Nat :=
  let all := ((blkFields b).filter (·.bu)).flatMap (fun f =>
    (List.range f.n1).flatMap (fun i => (List.range f.n2).map (fun j => f.off + i * f.s1 + j * f.s2)))
  (all.foldl (fun (a : Map Nat) o => ins a o 0) []).map (·.1)

/-- A register is buffered. -/
def isBu (b off : Nat) : Bool := (fieldsAt b off).any (·.bu)

/-- A register has a key-guarded field. -/
def isKw (b off : Nat) : Bool := (fieldsAt b off).any (fun f => f.acc == .kw)

/-- The stored active value of a buffered register, voted fields by their copies. [log 13 DEDUCED, safe] -/
def activeWord (s : State) (b off : Nat) : Nat :=
  if b = bCLK ∧ off = 0x20 then s.tim.cclk.maj % 16
  else if b = bTIM ∧ off = 0x20 then s.tim.umax.maj
  else rawGet s b off

/-- The shadow of a buffered register: the newest value written to it, or the active value (R81). [log 13 DEDUCED, safe] -/
def shadowWord (s : State) (b off : Nat) : Nat :=
  match lk s.sys.shadow (rkey b off) with
  | some w => w.toNat
  | none => activeWord s b off

/-! ### Consistency tests at the staging edge (R84) -/

/-- The windows of UG7 as their shadows stand: tenant, first block, block after the last; enabled ones only (R310). -/
def windowsShadow (s : State) : List (Nat × Nat × Nat) :=
  ((List.range 64).flatMap (fun t => (List.range 4).map (fun n =>
    (t, shadowWord s bMEM (0x1000 + 0x20 * t + 8 * n), shadowWord s bMEM (0x1004 + 0x20 * t + 8 * n))))).filter
      (fun w => decide (w.2.1 < w.2.2))

/-- R310: an enabled window within the populated DRAM (MEM.SIZE, GiB), none of one tenant overlapping another's. -/
def windowsOk (s : State) : Bool :=
  let ws := windowsShadow s
  let top := fget s bMEM 0x14 0 16 * 512
  ws.all (fun w => decide (w.2.2 ≤ top)) &&
    ws.all (fun a => ws.all (fun b => a.1 == b.1 || decide (a.2.2 ≤ b.2.1) || decide (b.2.2 ≤ a.2.1)))

/-- R399: the sums of SESSMAX and of INFLIGHT. -/
def seqOk (s : State) : Bool :=
  decide (((List.range 64).map (fun t => shadowWord s bAWP (0x1000 + 4 * t))).sum ≤ 4194304) &&
    decide (((List.range 64).map (fun t => shadowWord s bSEQ (0x100 + 4 * t))).sum ≤ 4194304)

/-- Channels that CHMAP enables. -/
def chanCount (m : Nat) : Nat := ((List.range 32).filter (bit m)).length

/-- R503: enough channels for the profile, HOPSTEP prime to their number, every channel in the profile (Table 20.2). -/
def hopOk (s : State) : Bool :=
  let prof := bits (shadowWord s bWIT 0x10) 0 8
  let h := shadowWord s bWIT 0x20
  let m := shadowWord s bWIT 0x24
  let n := chanCount m
  let last := if prof = 1 then 33 else if prof = 2 then 128 else 0
  let fewest := if prof = 1 then 4 else if prof = 2 then 25 else 1
  decide (fewest ≤ n) && decide (Nat.gcd (bits h 16 8) n = 1) &&
    (prof == 0 || (List.range 32).all (fun i => !bit m i || decide (bits h 0 8 + i ≤ last)))

/-- Lanes that a PHY type uses (Table 14.2). -/
def typeLanes (t : Nat) : Nat := if t = 1 ∨ t = 2 then 4 else if t = 3 ∨ t = 4 then 2 else if t = 0 then 0 else 1

/-! ### Group acceptance and application (R84, R85) -/

/-- Live-safe groups (Table 3.4; SYS.UMASK.LIVESAFE). -/
def liveSafe (g : Nat) : Bool := bit 0xBB09 g

/-- Replay groups (Table 3.4; SYS.UMASK.REPLAYOK). -/
def replayOkGroup (g : Nat) : Bool := bit 0xA000 g

/-- A presented group is accepted for the mode (R84). -/
def groupModeOk (s : State) (g : Nat) : Bool :=
  match s.mode with
  | some .sealed => true
  | some .quiet => !s.sys.drain || liveSafe g
  | some .live => liveSafe g
  | some .replay => replayOkGroup g
  | _ => false

/-- Tenants of the set bits of a word that changed, from a base number. -/
def changedBits (a b base : Nat) : List Nat := ((List.range 32).filter (fun i => bit a i != bit b i)).map (· + base)

/-- The tenants whose streams take a CONFIG grain for an apply (R85): the active ones where the group contains their own registers, and,
for registers of one bit per tenant, those whose bit changes. [log 16 DEDUCED, unsafe] -/
def groupTenants (s : State) (g : Nat) : List Nat :=
  let ch (b off base : Nat) : List Nat := changedBits (activeWord s b off) (shadowWord s b off) base
  if g = 7 ∨ g = 8 ∨ g = 10 then activeTenants s
  else if g = 9 then (ch bMIR 0x40 0 ++ ch bMIR 0x44 32 ++ ch bMIR 0x48 0 ++ ch bMIR 0x4C 32).eraseDups
  else if g = 13 then
    ((List.range 12).flatMap (fun c => ch (bCLU + c) 0x100 0 ++ ch (bCLU + c) 0x104 32 ++ ch (bCLU + c) 0x108 0 ++ ch (bCLU + c) 0x10C 32)).eraseDups
  else []

/-- A buffered register takes a new active value; voted fields in all three copies. -/
def putActive (s : State) (b off v : Nat) : State :=
  if b = bCLK ∧ off = 0x20 then { s with tim.cclk := votedOf v, tim.cclkEff := max v (if s.hlt.step = 2 then 4 else if s.hlt.step = 1 then 3 else v) }
  else if b = bTIM ∧ off = 0x20 then { s with tim.umax := votedOf v }
  else rawSet s b off v

/-- The staging copy of a group: its shadows as they stand (R82). -/
def stageGroup (s : State) (g : Nat) : State :=
  (groupBlocks g).foldl (fun a b => (buOffsets b).foldl (fun a off =>
    match lk a.sys.shadow (rkey b off) with
    | some w => { a with sys.staging := ins a.sys.staging (rkey b off) w }
    | none => a) a) s

/-- The staging copy of a block becomes active; a shadow that no later write reached then equals it. -/
def unstageBlock (s : State) (b : Nat) : State :=
  (buOffsets b).foldl (fun a off =>
    match lk a.sys.staging (rkey b off) with
    | some w => let a1 := putActive a b off w.toNat
                { a1 with sys.staging := del a1.sys.staging (rkey b off) }
    | none => a) s

/-- What a block will hold after the apply, for the digest of R85. -/
def stagedWord (s : State) (b off : Nat) : Nat :=
  match lk s.sys.staging (rkey b off) with
  | some w => w.toNat
  | none => activeWord s b off

/-- The applied register images (R85). -/
def imageBytes (s : State) (gs : List Nat) : List Byte :=
  ((List.range 0x40).filter (fun b => match groupOf b with | some g => gs.contains g | none => false)).flatMap (fun b =>
    (buOffsets b).flatMap (fun off => be 1 b ++ be 2 off ++ be 4 (stagedWord s b off)))

/-- The pending state of a posted block. -/
def getPosted (s : State) (b : Nat) : Posted := lkD s.sys.posted b ⟨[], false, false⟩

/-- The state with a posted block's pending state replaced. -/
def putPosted (s : State) (b : Nat) (p : Posted) : State := { s with sys.posted := ins s.sys.posted b p }

/-- The reaction registers are copied into the vault at an apply of UG4 (R126). A loop that is no longer driven starts anew. -/
def copyReactions (s : State) : State :=
  let m := (List.range 8).foldl (fun a n => ins a n (rawGet s bSEC (0x60 + 4 * n))) s.sec.vault.react
  { s with sec.vault.react := ins (ins m 8 (rawGet s bSEC 0x80)) 9 (rawGet s bSEC 0x84),
           wit.loops := s.wit.loops.filter (fun p => fget s bSEC (0x60 + 4 * p.1) 8 1 == 1) }

/-- A quad's lane PLL domain is reset by an apply that changes its mode, port types, polarity or rate: its indirect PHY
space returns to reset, and its ports start again from the state their configuration names (R357). `restart` does the
ports' part. -/
def quadChanged (s : State) (b : Nat) : Bool :=
  let d (off lo w : Nat) : Bool := bits (stagedWord s b off) lo w != bits (activeWord s b off) lo w
  d 0x10 0 1 || d 0x10 8 1 || (List.range 4).any (fun p => d (0x20 + 4 * p) 0 4) ||
    (List.range 4).any (fun i => d (0x100 + 0x40 * i + 0x14) 0 2)

/-- The EVENT grain of an apply in stream D and the CONFIG grains of the tenants concerned (R85). [log 16 DEDUCED, unsafe] -/
def updateGrains (s : State) (gs : List Nat) (req cjn : Nat) : State :=
  let mask := gs.foldl (fun a g => a + 2 ^ g) 0
  let par := [mask, req] ++ digPar (Config.sha256 (imageBytes s gs))
  let ts := (gs.flatMap (groupTenants s)).dedup
  let s1 := ts.foldl (fun a t => eventT a t 6 1 (evBody 0x0180 par) a.now a.tim.u 0 cjn) s
  eventD s1 9 0x0B 0x0180 par cjn

/-- A new BAUD value waits for its console's next line boundary (R548). -/
def baudPending (s : State) : State :=
  [0, 1].foldl (fun a c =>
    let v := bits (rawGet a bCON (0x100 + 0x20 * c)) 0 22
    if v ≠ (getCon a c).baud then updCon a c (fun k => { k with baudNew := some v }) else a) s

/-! ### PRT.BOOKCMD and entry writes (R57 to R60, R161, R174) -/

/-- BOOKSTAT and EFF after a BOOKCMD: reason (0 none), books refused, effective instant. -/
def bookStat (s : State) (reason nref te : Nat) : State :=
  let w := 1 + (if nref > 0 ∨ reason > 0 then 2 else 0) + reason * 16 + (nref % 2 ^ 24) * 256
  set64 (rawSet s bPRT 0x28 w) bPRT 0x2C te

/-- A BOOKCMD operation is refused in this mode (6.5). -/
def bookModeBad (s : State) (op : Nat) : Bool :=
  if op = 5 then !((s.inMode .sealed && !s.sec.s5done) || s.inMode .replay)
  else s.inMode .sealed || s.inMode .audit || s.inMode .hold

/-- OPEN (R58): a DORMANT book with u + margin_b < P_b − now. The reason of the refusal, 0 where it opens. -/
def openReason (s : State) (k : Book) : Nat :=
  if k.sales ≠ .dormant then 1 else if s.tim.u + k.margin * 1000 + s.now < k.pb then 0 else 2

/-- Operation OPEN on one book. [log 32 DEDUCED, unsafe] -/
def cmdOpen (s : State) (scope t b cjn : Nat) : State :=
  if bookModeBad s 1 then bookStat s 3 1 s.now
  else
    let k := getBook s t b
    let r := if scope = 0 then openReason s k else 1
    if r = 0 then bookStat (configBook (openBook s t b s.now) t b k s.now cjn) 0 0 s.now
    else bookStat s r (if scope = 0 then 1 else ((scopeBooks s scope t b).filter (fun p => onSale (getBook s p.1 p.2))).length) s.now

/-- Operation SETCAUSE. [log 32 DEDUCED, unsafe] -/
def cmdSetCause (s : State) (scope t b mask cjn : Nat) : State :=
  if bookModeBad s 2 then bookStat s 3 1 s.now
  else if scope = 0 ∧ onSale (getBook s t b) = false then bookStat s 1 1 s.now
  else bookStat (setCauses s mask (scopeBooks s scope t b) s.now cjn) 0 0 s.now

/-- Operation CLEARCAUSE (R59, R173); `mirrorOk` is the firmware's rule R416 for cause MIRROR. [log 32 DEDUCED, unsafe] -/
def cmdClearCause (s : State) (scope t b mask : Nat) (mirrorOk : Nat → Bool) (cjn : Nat) : State :=
  if bookModeBad s 3 then bookStat s 3 1 s.now
  else if s.tim.qual = .starved ∨ s.tim.qual = .breach then bookStat s 4 1 s.now
  else if scope = 0 ∧ (getBook s t b).sales ≠ .suspended then bookStat s 1 1 s.now
  else
    let bs := scopeBooks s scope t b
    let n := countOutcome s mask bs mirrorOk s.now 3
    let n4 := countOutcome s mask bs mirrorOk s.now 4
    bookStat (clearCauses s mask bs mirrorOk s.now cjn) (if n > 0 then 2 else 0) (n + n4) s.now

/-- Operation RELEASE: CLOSED to DORMANT (R57). [log 31 DEDUCED, unsafe] -/
def cmdRelease (s : State) (scope t b cjn : Nat) : State :=
  if bookModeBad s 4 then bookStat s 3 1 s.now
  else
    let k := getBook s t b
    if scope ≠ 0 ∨ k.sales ≠ .closed then bookStat s 1 1 s.now
    else
      let s1 := changeBook s t b s.now (fun k => { k with st := votedOf 0, cause := 0, settled := false, partSeq := none })
      bookStat (configBook s1 t b k s.now cjn) 0 0 s.now

/-- Operation RESTORE: STATE and CAUSE from BOOKARG, in SEALED before S5 ends and in REPLAY. -/
def cmdRestore (s : State) (scope t b st cause : Nat) : State :=
  if bookModeBad s 5 then bookStat s 3 1 s.now
  else if scope ≠ 0 then bookStat s 1 1 s.now
  else bookStat (changeBook s t b s.now (fun k => { k with st := votedOf st, cause := cause })) 0 0 s.now

/-- The operation that a word written to BOOKCMD names (Table 6.4), with the arguments of BOOKARG. -/
def bookCmd (s : State) (w : Nat) (mirrorOk : Nat → Bool) (cjn : Nat) : State :=
  let b := bits w 0 12
  let t := bits w 12 6
  let scope := bits w 18 2
  let op := bits w 20 4
  if scope = 3 ∨ op = 0 ∨ op > 5 then setStat s bPRT 6
  else
    let s := rawSet s bPRT 0x20 (w % 2 ^ 24)
    let cause := fget s bPRT 0x24 4 7
    match op with
    | 1 => cmdOpen s scope t b cjn
    | 2 => cmdSetCause s scope t b cause cjn
    | 3 => cmdClearCause s scope t b cause mirrorOk cjn
    | 4 => cmdRelease s scope t b cjn
    | _ => cmdRestore s scope t b (fget s bPRT 0x24 0 3) cause

/-- Whether an entry write is accepted (Table 6.2): 0, or the reason 1 STATE, 2 WINDOW, 3 MODE. A book whose P_b the time
base has reached has entered PARTING. [log 31 DEDUCED, unsafe] -/
def entryReason (s : State) (k : Book) (pb margin : Nat) : Nat :=
  let parted := k.sales = .parting ∨ k.sales = .closed ∨ (onSale k = true ∧ k.pb ≤ s.now)
  match s.mode with
  | some .sealed => 0
  | some .replay => 0
  | some .live | some .quiet =>
    if k.sales = .dormant then 0
    else if parted then 1
    else if s.now + s.tim.u + margin * 1000 < pb then 0 else 2
  | _ => if parted then 1 else 3

/-- An entry write of the parting table (R161, R162): refused with a capture in PRT.TREF, or accepted with a CONFIG grain
where it changes the entry. -/
def entryWrite (s : State) (t b pb margin cjn : Nat) : State :=
  let k := getBook s t b
  let r := entryReason s k pb margin
  if r = 0 then
    let s1 := changeBook s t b s.now (fun k => { k with pb := pb, margin := margin })
    let s2 := set64 s1 bPRT 0x2C s.now
    if k.pb = pb ∧ k.margin = margin then s2 else configBook s2 t b k s.now cjn
  else
    let s1 := if fget s bPRT 0x40 8 1 = 1 then s else rawSet s bPRT 0x40 (r + 256 + b * 4096 + t * 2 ^ 24)
    bumpSat s1 bPRT 0x44 0 32 1

end Sys2Proof.Machine
end

