-- ==== Sys2Proof/Machine/Bus.lean ====
section
/-! DEFINITION. The register fabric (chapter 3): every access of a requester to device register space, with its bus
errors, key guard, shadows, posted writes, indirect spaces and the registers that act when written. -/
namespace Sys2Proof.Machine

open Sys2Proof

/-- What an access gives: the state, the value read, and the bus-error reason (0 where it is accepted). -/
structure BusRes where
  st : State
  val : Nat
  reason : Nat

/-- A bus error (R73): it changes nothing but the capture in SYS and the count. -/
def busErr (s : State) (req addr : Nat) (wr : Bool) (reason : Nat) : BusRes :=
  let s1 := bumpSat s bSYS 0x6C 0 32 1
  let s2 := if fget s bSYS 0x68 0 1 = 1 then s1
    else rawSet (set64 s1 bSYS 0x60 (addr % 2 ^ 46)) bSYS 0x68 (1 + 2 * b2n wr + reason * 16 + req * 256)
  ⟨s2, 0, reason⟩

/-! ### The key guard (R77 to R80) -/

/-- The guard of a block is armed: armed, and not past its 256th cycle. -/
def guardOf (s : State) (b : Nat) : Option Guard :=
  match lk s.sys.guards b with
  | some g => if s.sys.cycle - g.since ≤ 256 then some g else none
  | none => none

/-- A write to UNLOCK (R77, R79). -/
def unlockWrite (s : State) (req b v : Nat) : State :=
  if v = 0x5A00 + b then { s with sys.guards := ins s.sys.guards b ⟨req, s.sys.cycle⟩ }
  else setStat { s with sys.guards := del s.sys.guards b } b 2

/-- The value UNLOCK reads (R80, Table 3.7). -/
def unlockRead (s : State) (b : Nat) : Nat :=
  match guardOf s b with
  | some g => (256 - (s.sys.cycle - g.since)) + 512 + g.owner * 65536
  | none => 0

/-- A requester may make a guarded write now (R78). -/
def guardOk (s : State) (req b : Nat) : Bool := match guardOf s b with | some g => g.owner == req | none => false

/-- The guard disarms with the write it accepts (R78). -/
def disarm (s : State) (b : Nat) : State := { s with sys.guards := del s.sys.guards b }

/-! ### Indirect spaces (R90 to R93) -/

/-- An indirect space: the block kind's ADDR offset, words in the space, words of an entry as written and as read,
whether DATA is writable, key-guarded, posted. -/
structure Space where
  addrOff : Nat
  size : Nat
  wlen : Nat
  rlen : Nat
  writable : Bool
  guarded : Bool
  posted : Bool

/-- The spaces of a block. -/
def spacesOf (s : State) (b : Nat) : List Space :=
  if b = bPRT then [⟨0x10, 0x100000, 4, 4, true, true, false⟩, ⟨0x18, 0x80000, 1, 2, false, false, false⟩]
  else if b = bSEC then [⟨0x40, 560, 1, 1, false, false, false⟩]
  else if b = bUCD then [⟨0x20, 1312, 1, 1, true, false, false⟩]
  else if 0x20 ≤ b ∧ b ≤ 0x2B then [⟨0x200, 0x400, 1, 1, true, false, true⟩]
  else if b = bFLC then [⟨0x200, 16 * fget s bFLC 0x10 0 5 * 65536, 1, 8, false, false, true⟩]
  else if b = bWIT then [⟨0x200, 1024, 1, 8, false, false, true⟩]
  else if b = bHLT then [⟨0x300, 805306368, 1, 8, false, false, false⟩, ⟨0x310, 65536, 1, 16, false, false, false⟩]
  else []

/-- The space whose ADDR stands at an offset. -/
def addrSpace (s : State) (b off : Nat) : Option Space := (spacesOf s b).find? (fun p => p.addrOff == off)

/-- The space whose DATA stands at an offset. -/
def dataSpace (s : State) (b off : Nat) : Option Space := (spacesOf s b).find? (fun p => p.addrOff + 4 == off)

/-- An indirect pair before any write of its ADDR (R91). -/
def pairReset : Pair := ⟨0, none, [], [], none⟩

/-- A pair. -/
def getPair (s : State) (b off : Nat) : Pair := lkD s.sys.pairs (rkey b off) pairReset

/-- The state with a pair replaced. -/
def putPair (s : State) (b off : Nat) (p : Pair) : State := { s with sys.pairs := ins s.sys.pairs (rkey b off) p }

/-- A write to ADDR (R91, R92): the writer owns the pair; a partial entry that it leaves is discarded with PARTIAL. -/
def addrWrite (s : State) (req b : Nat) (sp : Space) (v : Nat) : State :=
  let p := getPair s b sp.addrOff
  let moved := v / sp.wlen ≠ p.addr / sp.wlen
  let drop := !p.buf.isEmpty && (decide moved)
  let s1 := if drop then setStat s b 5 else s
  putPair s1 b sp.addrOff { p with addr := v, owner := some req, buf := if moved then [] else p.buf.take (v % sp.wlen), latch := [], latchAt := none }

/-- A bit of the tamper status word (Table 4.8). -/
def tstatWord (s : State) : Nat := s.sec.tstat + 2 ^ 14 * b2n s.sec.suspPend

/-- The words of a digest, bytes 0 to 3 first (4.8). -/
def digWord (d : Digest) (k : Nat) : Nat := bits d.toNat (32 * (7 - k)) 32

/-- The runtime digest of tenant t in the running image, or zeros. -/
def runtimeDigest (s : State) (t : Nat) : Digest :=
  match (s.sec.slots[s.sec.slot]?).join with
  | some im => if s.awp.runtime.contains t then lkD im.tenants t 0 else 0
  | none => 0

/-- TM_t = SHA-256(runtime digest ‖ rule-program digest) (R118). -/
def tmOf (s : State) (t : Nat) : Digest :=
  Config.sha256 (digBytes (runtimeDigest s t) ++ digBytes (match lk s.sec.rules t with | some r => r.digest | none => 0))

/-- TMSET = SHA-256(TM0 ‖ … ‖ TM63) (R118). -/
def tmSet (s : State) : Digest := Config.sha256 ((List.range 64).flatMap (fun t => digBytes (tmOf s t)))

/-- A word of the measurement space (4.8). -/
def measWord (s : State) (i : Nat) : Nat :=
  if i < 32 then digWord ((s.sec.ms[i / 8]?).getD 0) (i % 8)
  else if i < 40 then digWord s.sec.bm (i - 32)
  else if s.sec.step < 7 then 0
  else if i < 552 then digWord (tmOf s ((i - 40) / 8)) ((i - 40) % 8)
  else digWord (tmSet s) (i - 552)

/-- Word k of an entry of the health event log (R607): the entries of each event, oldest first, as their 64 bytes. -/
def elogEntryBytes (e : ElogEvent) : List (List Byte) :=
  let fl (cont : Nat) := b2n e.pend + 2 * b2n e.offPower + 4 * cont
  let first := be 2 e.code ++ be 2 (fl 0) ++ be 2 e.par.length ++ be 2 0 ++ be 8 e.tai ++ be 4 e.u ++ be 4 0
    ++ ((e.par.take 5).map (be 8)).flatten
  let more := (List.range ((e.par.length - 5 + 6) / 7)).map (fun i =>
    be 2 e.code ++ be 2 (fl 1) ++ be 2 (5 + 7 * i) ++ be 2 0 ++ (((e.par.drop (5 + 7 * i)).take 7).map (be 8)).flatten)
  (first :: (if e.par.length ≤ 5 then [] else more)).map (fun l => l ++ List.replicate (64 - l.length) 0)

/-- A word of the EL space. -/
def elWord (s : State) (i : Nat) : Nat :=
  match ((s.hlt.elog.flatMap elogEntryBytes)[i / 16]?) with
  | some b => ofBe ((b.drop (4 * (i % 16))).take 4)
  | none => 0

/-- Periods of a tier and its slots (R606). -/
def tierPeriod (tier : Nat) : Nat := if tier = 0 then 1 else if tier = 1 then 60 else 3600
def tierSlots (tier : Nat) : Nat := if tier = 0 then 86400 else if tier = 1 then 129600 else 43830
/-- Retention of a tier in seconds: 24 h, 90 days, 5 years of 365.25 days (Table 17.4). -/
def tierKept (tier : Nat) : Nat := if tier = 0 then 86400 else if tier = 1 then 7776000 else 157788000

/-- A word of the TM space (R606). -/
def tmWord (s : State) (i : Nat) : Nat :=
  let w := i % 8
  let tier := i / 8 / 131072 / 256
  match lk s.hlt.tiers (i / 8) with
  | none => 0
  | some x =>
    let valid := decide (s.now / 1000000000 < x.start + tierKept tier)
    if w = 0 then satSigned 32 x.min
    else if w = 7 then b2n x.empty + 2 * b2n valid
    else if w = 5 then x.start % 2 ^ 32 else if w = 6 then x.start / 2 ^ 32
    else if tier = 0 then 0
    else if w = 1 then satSigned 32 x.max
    else if w = 2 then satSigned 64 x.sum % 2 ^ 32 else if w = 3 then satSigned 64 x.sum / 2 ^ 32
    else x.count % 2 ^ 32

/-- Dies per channel, as the scan found them. -/
def dpc (s : State) : Nat := fget s bFLC 0x10 0 5

/-- Die d before anything is known of it: GOOD in the population, ABSENT beyond it. -/
def dieReset (n d : Nat) : Die := ⟨if d % 16 < n then 0 else 3, [], [], List.replicate 18 0, 0, 65535⟩

/-- A block that is unused: BOOT in the boot area (R452), else FREE. -/
def blkReset (k : Nat) : Blk :=
  ⟨if (k / 8192 = 0 ∨ k / 8192 = 16) ∧ k % 8192 < 8 then 4 else 0, 0, 0, 0, 0, 0, 0, 0, 65535, 65535, 65535, none, [], 0, 0, 0⟩

/-- Die d, and block k = die × 8,192 + block. -/
def getDie (s : State) (d : Nat) : Die := lkD s.fla.dies d (dieReset (dpc s) d)
def getBlk (s : State) (k : Nat) : Blk := lkD s.fla.blocks k (blkReset k)

/-- Blocks of a die (Table 18.2). -/
def dieBlocks : Nat := 7584

/-- The consumed budget of a block in 0.01 % (R471). [log 58 DEDUCED, safe] -/
def Blk.used (b : Blk) : Nat := (b.peSlc + 20 * b.peTlc) / 6

/-- A block is good: neither factory bad nor grown bad. -/
def Blk.good (b : Blk) : Bool := b.st != 5 && b.st != 6

/-- The listed blocks of a die. -/
def blocksOfDie (s : State) (d : Nat) : List Blk := (s.fla.blocks.filter (fun p => p.1 / 8192 == d)).map (·.2)

/-- The median of a list of numbers, 0 for none. -/
def median (l : List Nat) : Nat :=
  let m := l.foldl (fun (a : Map Nat) x => ins a x (lkD a x 0 + 1)) []
  let flat := m.flatMap (fun p => List.replicate p.2 p.1)
  (flat[flat.length / 2]?).getD 0

/-- A word of the block-information space (Table 18.5). -/
def biWord (s : State) (i : Nat) : Nat :=
  let k := i / 8
  let b := getBlk s k
  if k % 8192 ≥ dieBlocks then 0
  else match i % 8 with
    | 0 => sat 16 b.peSlc + 65536 * sat 16 b.peTlc
    | 1 => b.st + 256 * b.level + 65536 * sat 16 b.rber
    | 2 => sat 32 b.reads
    | 3 => b.eol + 65536 * b.lo
    | 4 => b.hi
    | 5 => b.measSec % 2 ^ 32
    | 6 => sat 32 b.slope
    | _ => sat 14 b.used

/-- The registers of the die that DIESEL names (Table 18.4). [log 129 DESIGN CHOICE, unsafe] -/
def flcView (s : State) (off : Nat) : Option Nat :=
  let d := fget s bFLC 0x100 0 8
  let x := getDie s d
  let bs := blocksOfDie s d
  let bad := (bs.filter (fun b => !b.good)).length
  if off = 0x104 then some (x.st + 65536 * (dieBlocks - bad))
  else if off = 0x108 then
    some (sat 14 (((bs.filter (·.good)).map (·.used)).sum / (dieBlocks - bad)) + 65536 * sat 16 (median ((bs.filter (fun b => b.good && decide (b.measSec > 0))).map (·.rber))))
  else if off = 0x10C then some (x.eol + 65536 * sat 16 (bs.filter (fun b => b.st == 6)).length)
  else if 0x110 ≤ off ∧ off < 0x158 then some (((x.hist[(off - 0x110) / 4]?).getD 0) % 2 ^ 32)
  else none

/-- A tag that is not paired. -/
def tagEmpty : Tag := ⟨0, 0, 0, 0, 0, none, 0, 0, 0, 0, 0, 0, none⟩

/-- Tag a. -/
def getTag (s : State) (a : Nat) : Tag := lkD s.wit.tags a tagEmpty

/-- A word of the tag table (Table 20.9). -/
def ttWord (s : State) (i : Nat) : Nat :=
  let t := getTag s (i / 8)
  match i % 8 with
  | 0 => t.eui.toNat / 2 ^ 32
  | 1 => t.eui.toNat % 2 ^ 32
  | 2 => t.kind + 256 * t.st
  | 3 => t.last
  | 4 => t.status + 256 * t.edgeSeq.getD 0 + 65536 * t.batt + 2 ^ 24 * t.rssi
  | 5 => t.evc
  | 6 => t.losses
  | _ => t.replays

/-- Airtime of the last 3,600 s, in units of 10 µs (R500). -/
def airUsed (s : State) : Nat :=
  ((s.wit.tx.filter (fun p => decide (s.since p.1 < ticksOfS 3600))).map (·.2)).sum

/-- Loop n is driven (20.6). -/
def loopOn (s : State) (n : Nat) : Bool := fget s bSEC (0x60 + 4 * n) 8 1 == 1

/-- Registers of WIT shown from the state (Table 20.8). -/
def witView (s : State) (off : Nat) : Option Nat :=
  let count (st : Nat) : Nat := (s.wit.tags.filter (fun p => p.2.st == st)).length
  if off = 0x30 then some s.wit.evc
  else if off = 0x34 then some s.wit.epoch
  else if off = 0x38 then some (b2n s.wit.run + 2 * b2n s.wit.switch.isSome + 256 * count 2 + 65536 * count 3)
  else if off = 0x3C then some (sat 16 (airUsed s / 36000))
  else if 0x100 ≤ off ∧ off < 0x180 ∧ off % 16 = 4 then
    let n := (off - 0x100) / 16
    let c := match lk s.wit.loops n with | some l => l.cls | none => 0
    some (fget s bWIT off 0 16 + 65536 * (if loopOn s n then c else 4))
  else none

/-- Registers of MIR shown from the state (Table 16.3). -/
def mirView (s : State) (off : Nat) : Option Nat :=
  if off = 0x14 then some (s.mir.link + 16 * (upQuads s).foldl (fun a q => a + 2 ^ q) 0)
  else if 0x1000 ≤ off ∧ off < 0x1400 then
    let t := (off - 0x1000) / 16
    let x := getMir s t
    let prim := s.role == .primary && tenantBit s bMIR 0x40 t
    match off % 16 with
    | 0 => some ((if prim then sat 16 (lagOf s t) else 0) + 65536 * x.st)
    | 4 => some (x.matched.getD 0 % 2 ^ 32)
    | 8 => some (x.matched.getD 0 / 2 ^ 32)
    | _ => some (if prim then sat 32 (lagAge s t / 800) else 0)
  else none

/-- A word of an indirect space as it stands. -/
def spaceWord (s : State) (b : Nat) (sp : Space) (i : Nat) : Nat :=
  if b = bPRT ∧ sp.addrOff = 0x10 then ((bookWords (getBook s (i / 16384) (i / 4 % 4096)))[i % 4]?).getD 0
  else if b = bPRT then
    let k := getBook s (i / 8192) (i / 2 % 4096)
    if i % 2 = 0 then k.late else k.lateu
  else if b = bSEC then measWord s i
  else if b = bHLT ∧ sp.addrOff = 0x310 then elWord s i
  else if b = bHLT then tmWord s i
  else if b = bUCD then ((s.cpu.patch[i]?).getD 0).toNat
  else if b = bFLC then biWord s i
  else if b = bWIT then ttWord s i
  else if 0x20 ≤ b ∧ b ≤ 0x2B then (lkD s.lane.phy ((b - bLQ) * 1024 + i) 0).toNat
  else 0

/-- A read of DATA (R90 to R92): a read of an entry's first word latches the entry. [log 15 DEDUCED, unsafe] -/
def dataRead (s : State) (req addr b : Nat) (sp : Space) : BusRes :=
  let p := getPair s b sp.addrOff
  if p.owner ≠ some req then busErr s req addr false 5
  else if p.addr ≥ sp.size then busErr s req addr false 6
  else
    let base := p.addr - p.addr % sp.rlen
    let p1 : Pair := if p.addr % sp.rlen = 0 then
        { p with latch := (List.range sp.rlen).map (fun k => BitVec.ofNat 32 (spaceWord s b sp (base + k))), latchAt := some base }
      else p
    let v := if p1.latchAt = some base then ((p1.latch[p.addr % sp.rlen]?).getD 0).toNat else spaceWord s b sp p.addr
    ⟨putPair s b sp.addrOff { p1 with addr := p.addr + 1 }, v, 0⟩

/-- A write of DATA of the parting table (R92, R93, R160): words 0 to 2 collect, word 2 completes the entry under one
arm; without the arm the entry is dropped with KEYFAIL and ADDR returns to its first word. -/
def ptDataWrite (s : State) (req addr : Nat) (sp : Space) (v : Nat) : BusRes :=
  let p := getPair s bPRT sp.addrOff
  if req ≠ reqMgmt then busErr s req addr true 7
  else if p.owner ≠ some req then busErr s req addr true 5
  else if p.addr ≥ sp.size then busErr s req addr true 6
  else if p.addr % 4 = 3 then busErr s req addr true 7
  else if p.addr % 4 < 2 then
    ⟨putPair s bPRT sp.addrOff { p with addr := p.addr + 1, buf := p.buf.take (p.addr % 4) ++ List.replicate (p.addr % 4 - p.buf.length) 0 ++ [BitVec.ofNat 32 v] }, 0, 0⟩
  else if guardOk s req bPRT = false then
    ⟨setStat (putPair s bPRT sp.addrOff { p with addr := p.addr - 2, buf := [] }) bPRT 2, 0, 0⟩
  else
    let e := p.addr / 4
    let w (k : Nat) : Nat := ((p.buf[k]?).getD (BitVec.ofNat 32 (spaceWord s bPRT sp (e * 4 + k)))).toNat
    let s1 := putPair (disarm s bPRT) bPRT sp.addrOff { p with addr := p.addr + 1, buf := [] }
    ⟨entryWrite s1 (e / 4096) (e % 4096) (w 0 + w 1 * 2 ^ 32) v 0, 0, 0⟩

/-! ### Posted writes (3.5) -/

/-- Writes of this register are posted (3.5, R475, R519): non-buffered registers of FLC and WIT, apart from the header. -/
def isPosted (b off : Nat) : Bool := (b == bFLC || b == bWIT) && decide (off ≥ 0x10) && !isBu b off

/-- A posted write is accepted by the fabric, or dropped with WRDROP while the block is busy or in reset (R87, R89). -/
def postWrite (s : State) (req b off v : Nat) : State :=
  let p := getPosted s b
  if p.rst || p.xfer || !p.pend.isEmpty then setStat s b 1
  else putPosted s b { p with pend := [(req, off, BitVec.ofNat 32 v)] }

/-! ### Reads -/

/-- STAT as read: the sticky bits, BUSY and RST (R76, R87, R89). -/
def statRead (s : State) (b : Nat) : Nat :=
  let p := getPosted s b
  let busy := (p.xfer || !p.pend.isEmpty) && !p.rst
  bits (rawGet s b 8) 0 7 - bits (rawGet s b 8) 0 1 - bits (rawGet s b 8) 3 1 * 8 + b2n busy + 8 * b2n p.rst

/-- The offset distance of a block's SNAP holding registers (R157, R158, R174, R311, R312, R330, R354, R372, R399, R400,
R419, R448, R475, R497, R519, R546, R572, R609). -/
def snapDelta (b : Nat) : Nat :=
  if b = bCLK ∨ b = bTIM then 0x100
  else if b = bAWP ∨ b = bSEQ ∨ b = bMIR then 0x2000
  else if b = bJRN then 0x4000
  else if b = bSYS ∨ b = bSEC then 0
  else 0x400

/-- An offset is a SNAP holding register. -/
def isHolding (b off : Nat) : Bool :=
  let d := snapDelta b
  decide (d > 0) && decide (off ≥ d) && (fieldsAt b (off - d)).any (·.ctr) && (fieldsAt b off).isEmpty

/-- The active operator slot: the highest-numbered programmed slot whose revocation bit is clear (R111). -/
def activeOp (s : State) : Option Nat :=
  ((List.range 4).reverse).find? (fun i => ((s.sec.otp.ops[i]?).join).isSome && !((s.sec.otp.revoked[i]?).getD false))

/-- The port of a quad lane (Table 14.1); the lanes of a MIRROR quad form port 0 (R364). -/
def viewPort (s : State) (b i : Nat) : Nat :=
  if fget s b 0x10 0 1 = 1 then 0
  else ((List.range 4).find? (fun p => decide (p ≤ i ∧ i < p + typeLanes (fget s b (0x20 + 4 * p) 0 4)))).getD i

/-- The fixed latencies of a resolved type in 1/16 ns, receive and transmit (Table 14.5). -/
def typeLat (t : Nat) : Nat × Nat :=
  if t = 0 then (0, 0) else if t ≤ 4 then (1664, 1088) else if t ≤ 6 then (1536, 1024) else if t ≤ 8 then (1952, 1280)
  else if t ≤ 10 then (2400, 1472) else (1120, 720)

/-- Quad and lane registers shown from the state: STATE, FROZEN, DEGRADED and MARGIN of each lane, the latencies of its
type (Table 14.6). [log 129 DESIGN CHOICE, unsafe] -/
def laneView (s : State) (b off : Nat) : Option Nat :=
  let q := b - bLQ
  if 0x100 ≤ off ∧ off < 0x200 then
    let i := (off - 0x100) / 0x40
    let p := viewPort s b i
    if off % 0x40 = 8 then
      let st := match lk s.lane.ports (q * 4 + p) with | some x => x.state | none => 0
      match lk s.lane.lanes (q * 4 + i) with
      | some l => some (st + 16 * b2n l.frozen + 32 * b2n l.degraded + 64 * fget s b off 6 2 + 256 * l.margin)
      | none => some (st + 64 * fget s b off 6 2)
    else if off % 0x40 = 0xC then
      let t := typeLat (fget s b (0x30 + 4 * p) 0 4)
      some (t.1 + 65536 * t.2)
    else none
  else none

/-- Coprocessor registers of a cluster shown from its cores' bindings (Table 13.3). [log 129 DESIGN CHOICE, unsafe] -/
def cluView (s : State) (b off : Nat) : Option Nat :=
  let core (k : Nat) : Option Bind := match lk s.cpu.cores ((b - bCLU) * 8 + k) with | some c => c.bind | none => none
  if 0x160 ≤ off ∧ off < 0x1A0 then
    match core ((off - 0x160) / 8) with
    | some x => some (if off % 8 = 0 then x.seq % 2 ^ 32 else x.seq / 2 ^ 32 % 2 ^ 32)
    | none => none
  else if 0x1A0 ≤ off ∧ off < 0x1C0 then
    match core ((off - 0x1A0) / 4) with
    | some x => some (x.tenant + 256 + 512 * b2n x.paired + 65536 * (x.pos % 65536))
    | none => none
  else if 0x1C0 ≤ off ∧ off < 0x1D0 then
    let p := (b - bCLU) * 4 + (off - 0x1C0) / 4
    let w := match lk s.cpu.pairs p with | some i => i.window | none => []
    let svc := if p < 32 then bit (rawGet s bHLT 0x24) p else bit (rawGet s bHLT 0x28) (p - 32)
    some (b2n (!svc) + 4 * min 3 (w.filter (· == true)).length + 65536 * w.length)
  else none

/-- Registers whose value is a view of the state; the rest are stored. [log 129 DESIGN CHOICE, unsafe] -/
def viewWord (s : State) (req b off : Nat) : Option Nat :=
  if b = bSYS then
    match off with
    | 0x14 => some s.role.code
    | 0x20 => some (s.sys.mode.maj % 8 + 8 * b2n s.sys.drain + 256 * fget s bSYS 0x20 8 1)
    | 0x28 => some (s.sys.modeEff % 2 ^ 32)
    | 0x2C => some (s.sys.modeEff / 2 ^ 32 % 2 ^ 32)
    | 0x30 => some 0
    | 0x34 => some (s.sys.staged.foldl (fun a g => a + 2 ^ g) 0 + fget s bSYS 0x34 16 16 * 65536)
    | 0x40 => some 0
    | 0x50 => some (s.sys.cycle % 2 ^ 32)
    | 0x54 => some (s.sys.cycle / 2 ^ 32 % 2 ^ 32)
    | 0x70 => some req
    | _ => none
  else if b = bCLK then
    match off with
    | 0x10 => some (s.tim.pllSrc + s.tim.usable * 16 + 256 * b2n s.tim.pllLock)
    | 0x20 => some (s.tim.cclk.maj % 16)
    | 0x24 => some (s.tim.cclkEff + 16 * b2n (decide (s.tim.cclkEff > s.tim.cclk.maj % 16)))
    | _ => none
  else if b = bTIM then
    match off with
    | 0x10 => some (s.now % 2 ^ 32)
    | 0x14 => some (s.now / 2 ^ 32 % 2 ^ 32)
    | 0x18 => some s.tim.u
    | 0x1C =>
      let good := (List.range 4).foldl (fun a r => a + b2n (getRef s r).good * 2 ^ r) 0
      let st := steering s
      some (s.tim.qual.code + 16 * b2n (s.tim.rem ≠ 0) + 32 * b2n s.tim.utcStale + 256 * good
        + 4096 * st.getD 0 + 16384 * b2n st.isSome)
    | 0x20 => some s.tim.umax.maj
    | 0x3C => some (satSigned 16 s.tim.leapOff)
    | 0x50 => some (satSigned 32 s.tim.ppsPhase)
    | 0x54 => some (match s.tim.lastSteer with | some t => sat 32 (s.since t / 800000000) | none => 0xFFFFFFFF)
    | 0x58 => some (s.tim.leapEnd.getD 0 % 2 ^ 32)
    | 0x5C => some (s.tim.leapEnd.getD 0 / 2 ^ 32)
    | _ => none
  else if b = bSEC then
    match off with
    | 0x10 => some (s.sec.step + 16 * b2n s.sec.done + 32 * b2n s.sec.fail + 64 * s.sec.slot + 128 * b2n s.sec.recovery)
    | 0x14 => some s.sec.rstCause
    | 0x18 => some (s.sec.locks.maj % 8)
    | 0x20 => some (b2n s.sec.otp.jhash.isSome + 16 * (activeOp s).getD 0
        + 256 * ((List.range 4).foldl (fun a i => a + b2n ((s.sec.otp.revoked[i]?).getD false) * 2 ^ i) 0) + 65536 * s.sec.otp.rollback)
    | 0x24 => some s.sec.otp.bootCnt
    | 0x28 => some (match (s.sec.slots[s.sec.slot]?).join with | some im => im.ver | none => 0)
    | 0x2C => some (match (s.sec.slots[s.sec.slot]?).join with | some im => im.rollback | none => 0)
    | 0x50 => some (tstatWord s)
    | 0x54 => some (b2n s.sec.vault.zeroized + 2 * b2n s.sec.vault.zpend + 256 * s.sec.vault.zcount)
    | 0x58 => some s.sec.vault.ovf
    | _ => none
  else if b = bSEQ then
    if 0x400 ≤ off ∧ off < 0x400 + 8 * 65 then
      let n := (strm s ((off - 0x400) / 8)).next
      some (if (off - 0x400) % 8 = 0 then n % 2 ^ 32 else n / 2 ^ 32 % 2 ^ 32)
    else if 0x800 ≤ off ∧ off < 0xC00 ∧ off % 16 = 4 then some (inFlight s ((off - 0x800) / 16))
    else none
  else if b = bAWP then (if off = 0x14 then some s.awp.sessions.length else none)
  else if b = bJRN then
    if off = 0x24 then some ((occ s + 1023) / 1024)
    else if 0x300 ≤ off ∧ off < 0x300 + 16 * 65 then
      let st := strm s ((off - 0x300) / 16)
      let dur := (st.dur + (2 ^ 64 - 1)) % 2 ^ 64
      let sealedTo := (st.segs.filter (fun g => g.sealTai.isSome)).foldl (fun a g => max a g.next) 0
      let sl := (sealedTo + (2 ^ 64 - 1)) % 2 ^ 64
      some (match off % 16 with
        | 0 => dur % 2 ^ 32 | 4 => dur / 2 ^ 32 | 8 => sl % 2 ^ 32 | _ => sl / 2 ^ 32)
    else if 0x1000 ≤ off ∧ off < 0x3000 then
      let v := lkD s.jrn.counters ((off - 0x1000) / 8) 0
      some (if off % 8 = 0 then v % 2 ^ 32 else v / 2 ^ 32 % 2 ^ 32)
    else none
  else if b = bCON then
    if off = 0x10 then some (s.con.nextCjn % 2 ^ 32)
    else if off = 0x14 then some (s.con.nextCjn / 2 ^ 32 % 2 ^ 32)
    else if 0x100 ≤ off ∧ off < 0x140 ∧ off % 0x20 = 4 then
      let c := (off - 0x100) / 0x20
      let k := getCon s c
      let locked := match k.lockUntil with | some t => decide (s.tim.ticks < t) | none => false
      some (k.auth.code + 4 * b2n k.chal.isSome + 8 * b2n locked + 16 * b2n (!(s.inMode .hold && decide (s.con.retained.length ≥ 65536))) + 32 * b2n k.rts
        + 64 * b2n (s.con.cmds.any (fun x => x.con == c)) + 65536 * sat 16 (s.since k.lastLine / 800000000))
    else if 0x100 ≤ off ∧ off < 0x140 ∧ off % 0x20 = 0x1C then some (sat 18 (tagCount s ((off - 0x100) / 0x20)))
    else none
  else if b = bPWR then
    match off with
    | 0x10 => some (s.pwr.eclass.maj % 4 + 256 * fget s bPWR 0x10 8 1)
    | 0x44 => some (s.sec.vault.vbatMv + 65536 * b2n s.pwr.vbatLow)
    | 0x80 => some s.sec.vault.pfCnt
    | 0x84 => some s.sec.vault.pfLat
    | _ => none
  else if b = bUCD then
    if (off = 0x10 ∨ off = 0x14 ∨ off = 0x18) ∧ s.cpu.patch.isEmpty then some (resetWord b off) else none
  else if b = bRPL then
    if s.role ≠ .lab then some (resetWord b off)
    else
      let t := fget s bRPL 0x10 0 6
      let st := lkD s.rpl.stats t ⟨0, 0, 0⟩
      let set := lk s.rpl.sets t
      match off with
      | 0x28 => some (b2n s.rpl.run.isSome)
      | 0x78 => some (areaFree s)
      | 0x70 => some (st.state + 256 * st.reason)
      | 0x74 => some (match set with | some x => if st.state = 4 then st.seg else x.segs | none => st.seg)
      | 0xA0 => some (match set with | some x => x.first % 2 ^ 32 | none => 0)
      | 0xA4 => some (match set with | some x => x.first / 2 ^ 32 | none => 0)
      | 0xA8 => some (match set with | some x => x.last % 2 ^ 32 | none => 0)
      | 0xAC => some (match set with | some x => x.last / 2 ^ 32 | none => 0)
      | _ =>
        if 0x80 ≤ off ∧ off < 0xA0 then some (match set with | some x => digWord x.att ((off - 0x80) / 4) | none => 0)
        else none
  else if b = bFLC then flcView s off
  else if b = bWIT then witView s off
  else if b = bMIR then mirView s off
  else if 0x20 ≤ b ∧ b ≤ 0x2B then laneView s b off
  else if 0x10 ≤ b ∧ b ≤ 0x1B then cluView s b off
  else if b = bHLT then
    match off with
    | 0x10 => some (match s.hlt.holdCause with | some c => c + 256 | none => 0)
    | 0x80 => some (elogUsed s.hlt.elog)
    | 0x84 => some (elogUsed (s.hlt.elog.filter (·.pend)))
    | 0x88 => some s.hlt.lost
    | _ => none
  else none

/-- The active value of a register as a requester reads it. [log 129 DESIGN CHOICE, unsafe] -/
def regValue (s : State) (req b off : Nat) : Nat :=
  if off = 0 then b + 0x100
  else if off = 4 then unlockRead s b
  else if off = 8 then statRead s b
  else match (spacesOf s b).find? (fun p => p.addrOff == off) with
    | some sp => (getPair s b sp.addrOff).addr
    | none =>
      if isHolding b off then (lkD s.sys.holding (rkey b off) 0).toNat
      else match viewWord s req b off with
        | some v => v
        | none => rawGet s b off

/-- An offset holds a register of the block: header, table or SNAP holding register (R73, R76). [log 14 DEDUCED, safe] -/
def known (b off : Nat) : Bool := off == 0 || off == 4 || off == 8 || !(fieldsAt b off).isEmpty || isHolding b off

/-- The address of a register. -/
def regAddr (b off : Nat) : Nat := 0x3F0000000000 + b * 0x10000 + off

/-- The reason of the bus error that an access meets before it reaches a register, 0 where none does (Table 3.2). -/
def accessReason (b off width : Nat) (wr : Bool) : Nat :=
  if width ≠ 32 ∨ off % 4 ≠ 0 then 1
  else if assigned b = false then 3
  else if off ≥ 0x8000 then
    (if isBu b (off - 0x8000) = false then (if known b off then 0 else 4) else if wr then 4 else 0)
  else if known b off then 0 else 2

/-- A read of one register by a requester; in a domain that is in reset it returns the reset value (R89). -/
def busRead (s : State) (req b off width : Nat) : BusRes :=
  let addr := regAddr b off
  let r := accessReason b off width false
  if r ≠ 0 then busErr s req addr false r
  else if off ≥ 0x8000 then ⟨s, shadowWord s b (off - 0x8000), 0⟩
  else match dataSpace s b off with
    | some sp => dataRead s req addr b sp
    | none =>
      if (getPosted s b).rst ∧ off ≥ 0x10 ∧ (b = bFLC ∨ b = bWIT) then ⟨s, resetWord b off, 0⟩
      else ⟨s, regValue s req b off, 0⟩

/-! ### Writes -/

/-- The BAUD rates of Table 22.1. -/
def baudRates : List Nat :=
  [9600, 19200, 38400, 57600, 115200, 230400, 460800, 921600, 1000000, 1500000, 2000000, 3000000]

/-- The bounds of a region profile (Table 20.2): power, CCA threshold, shortest listen (0.1 ms), widest backoff (ms),
duty ceiling (0.1 %), as two's complement where signed. -/
def profileBound (p : Nat) : Int × Int × Nat × Nat × Nat :=
  if p = 2 then (20, -80, 5, 10, 100) else (14, -85, 50, 10, 10)

/-- A byte as a signed number. -/
def sByte (v : Nat) : Int := if v ≥ 128 then (v : Int) - 256 else v

/-- Values that a field's table defines beyond its range (R75): PORT, BAUD, prefix lengths, floors of reactions, radio
settings looser than the profile. `w` is the whole word written. -/
def defined (s : State) (b off : Nat) (f : Fld) (v w : Nat) : Bool :=
  if b = bAWP ∧ off = 0x10 ∧ f.lo = 0 then decide (v ≠ 0 ∧ v ≠ 319 ∧ v ≠ 320)
  else if b = bAWP ∧ 0x200 ≤ off ∧ off < 0x400 ∧ f.lo = 0 ∧ f.w = 8 then decide (v ≤ if bit w 8 then 128 else 32)
  else if b = bCON ∧ f.lo = 0 ∧ f.w = 22 then baudRates.contains v
  else if b = bSEC ∧ off = 0x84 then (if f.lo = 2 then decide (v ≥ 1) else decide (v ≥ 2))
  else if b = bPWR ∧ (0x50 ≤ off ∧ off ≤ 0x70) then
    let cls := s.pwr.eclass.maj
    if cls = 0 then decide (v = f.rst)
    else if off = 0x70 then decide (v ≤ if cls = 1 then 1 else 2)
    else if f.lo = 4 then decide (v ≤ if cls = 1 then 4 else if cls = 2 then 8 else 20)
    else true
  else if b = bWIT ∧ (off = 0x10 ∨ off = 0x14) ∧ f.w = 8 then
    let p := bits (shadowWord s bWIT 0x10) 0 8
    let q := profileBound p
    if off = 0x10 ∧ f.lo = 0 then decide (v ≤ 2)
    else if p = 0 then true
    else if off = 0x10 then decide (sByte v ≤ q.1)
    else if f.lo = 0 then decide (sByte v ≤ q.2.1)
    else if f.lo = 8 then decide (v ≥ q.2.2.1)
    else if f.lo = 16 then decide (v ≤ q.2.2.2.1)
    else decide (v ≤ q.2.2.2.2)
  else true

/-- The word that a write leaves, field by field, and whether a field held an undefined value (R75). Fields are taken
with their access codes; `old` is the value that keeps. -/
def mergeWrite (s : State) (b off : Nat) (old w : Nat) : Nat × Bool :=
  (fieldsAt b off).foldl (fun a f =>
    let v := bits w f.lo f.w
    match f.acc with
    | .ro => a
    | .w1c => (setBits a.1 f.lo f.w (bits a.1 f.lo f.w &&& ((2 ^ f.w - 1) ^^^ v)), a.2)
    | _ =>
      if f.mn ≤ v ∧ v ≤ f.mx ∧ defined s b off f v w = true then (setBits a.1 f.lo f.w v, a.2) else (a.1, true)) (old, false)

/-- A change of PROFILE resets the listen, backoff, threshold, duty and power fields to the profile's limits (R501). -/
def profileReset (s : State) (p : Nat) : State :=
  if p = 0 then s
  else
    let q := profileBound p
    let put (s : State) (off v : Nat) : State := { s with sys.shadow := ins s.sys.shadow (rkey bWIT off) (BitVec.ofNat 32 v) }
    let s1 := put s 0x10 (p + (q.1 % 256).toNat * 256)
    put s1 0x14 ((q.2.1 % 256).toNat + q.2.2.1 * 256 + q.2.2.2.1 * 65536 + q.2.2.2.2 * 2 ^ 24)

/-- A plain write: to the shadow where the register is buffered, else to the register (R75, R81). [log 14 DEDUCED, safe] -/
def plainWrite (s : State) (b off w : Nat) : State :=
  if isBu b off then
    let old := shadowWord s b off
    let r := mergeWrite s b off old w
    let s1 : State := { s with sys.shadow := ins s.sys.shadow (rkey b off) (BitVec.ofNat 32 r.1) }
    let s2 := if b = bWIT ∧ off = 0x10 ∧ bits r.1 0 8 ≠ bits old 0 8 then profileReset s1 (bits r.1 0 8) else s1
    if r.2 then setStat s2 b 6 else s2
  else
    let r := mergeWrite s b off (rawGet s b off) w
    let s1 := rawSet s b off r.1
    if r.2 then setStat s1 b 6 else s1

/-- A copy of every statistics counter into its holding register (R94). -/
def snapAll (s : State) : State :=
  let one (s : State) (b : Nat) : State :=
    ((blkFields b).filter (·.ctr)).foldl (fun a f =>
      (List.range f.n1).foldl (fun a i => (List.range f.n2).foldl (fun a j =>
        let off := f.off + i * f.s1 + j * f.s2
        let k := rkey b (off + snapDelta b)
        let h := (lkD a.sys.holding k 0).toNat
        { a with sys.holding := ins a.sys.holding k (BitVec.ofNat 32 (setBits h f.lo f.w (bits (regValue a reqMgmt b off) f.lo f.w))) }) a) a) s
  let s1 := ((List.range 0x40).filter (fun b => decide (snapDelta b > 0) && assigned b)).foldl one s
  bumpWrap s1 bSYS 0x44 0 32 1

/-- TIM.REFEN written (R153): each change writes a TIME grain; a disabled reference is lost; the breach resolves when
every reference whose sample failed is disabled. In AUDIT and HOLD a breach is not resolved so. -/
def refenWrite (s : State) (v cjn : Nat) : State :=
  let old := bits (rawGet s bTIM 0x38) 0 4
  if old = v then s
  else
    let s1 := rawSet s bTIM 0x38 v
    let s2 := (List.range 4).foldl (fun a r =>
      if bit v r = false then updRef a r (fun k => { refReset with failed := k.failed, lastEdge := k.lastEdge }) else a) s1
    let s3 := eventD s2 7 4 0x0583 [old, v] cjn
    let resolved := s3.tim.breach && !(s3.inMode .audit) && !(s3.inMode .hold) && (List.range 4).all (fun r => !(getRef s3 r).failed || !bit v r)
    let s4 : State := if resolved then { s3 with tim.breach := false, tim.refs := s3.tim.refs.map (fun k => { k with failed := false }) } else s3
    recompute s4

end Sys2Proof.Machine
end

