-- ==== Sys2Proof/Machine/Lanes.lean ====
section
/-! DEFINITION. Lanes and quads (chapter 14): ports and link states, equalization, the PHY space, and the meanings of the
lane events. -/
namespace Sys2Proof.Machine

open Sys2Proof

/-- A port before its configuration names a type. -/
def portReset : PortSt := ⟨0, 0, 0, none, 0, 0⟩

/-- A lane after a reset. -/
def laneReset : LaneInfo := ⟨false, false, [], 0, 0, 0⟩

/-- Port p of quad q. -/
def getPort (s : State) (q p : Nat) : PortSt := lkD s.lane.ports (q * 4 + p) portReset

/-- The state with a port replaced. -/
def putPort (s : State) (q p : Nat) (x : PortSt) : State := { s with lane.ports := ins s.lane.ports (q * 4 + p) x }

/-- Lane k. -/
def getLane (s : State) (k : Nat) : LaneInfo := lkD s.lane.lanes k laneReset

/-- The state with a lane replaced. -/
def putLane (s : State) (k : Nat) (x : LaneInfo) : State := { s with lane.lanes := ins s.lane.lanes k x }

/-- A quad is in MIRROR mode (R355). -/
def quadMirror (s : State) (q : Nat) : Bool := fget s (bLQ + q) 0x10 0 1 == 1

/-- The configured type of a port. -/
def portType (s : State) (q p : Nat) : Nat := fget s (bLQ + q) (0x20 + 4 * p) 0 4

/-- The quad lanes of a port (Table 14.1); the four lanes of a mirror quad form its port 0 (R364). -/
def portLanes (s : State) (q p : Nat) : List Nat :=
  if quadMirror s q then (if p = 0 then [0, 1, 2, 3] else [])
  else (List.range (typeLanes (portType s q p))).map (· + p)

/-- The port that a lane belongs to, as quad and port. -/
def laneToPort (s : State) (k : Nat) : Nat × Nat :=
  (k / 4, ((List.range 4).find? (fun p => (portLanes s (k / 4) p).contains (k % 4))).getD (k % 4))

/-- The link state of a lane's port. -/
def laneState (s : State) (k : Nat) : Nat := (getPort s (laneToPort s k).1 (laneToPort s k).2).state

/-- The port of a lane is UP. -/
def laneUp (s : State) (k : Nat) : Bool := laneState s k == 3

/-- The offset of register r of quad lane i (R372). -/
def laneOff (i r : Nat) : Nat := 0x100 + 0x40 * i + r

/-- The state from which a port starts: AN or TRAIN where its configuration names a type, OFF elsewhere (Table 14.3,
R358, R360, R364). -/
def portStart (s : State) (q p : Nat) : Nat :=
  if s.role = .none then 0
  else if quadMirror s q then (if p = 0 ∧ (s.role = .primary ∨ s.role = .shadow) then 2 else 0)
  else if portType s q p = 0 then 0
  else if fget s (bLQ + q) (0x20 + 4 * p) 4 1 = 1 then 1 else 2

/-- The grandmasters on a port's lanes are lost when it leaves UP (R363). -/
def gmLost (s : State) (q p : Nat) : State :=
  [2, 3].foldl (fun a r =>
    let lane := fget a bTIM (0x60 + 0x10 * (r - 2)) 0 6
    if (getRef a r).good && decide (laneToPort a lane = (q, p)) then
      recompute (bumpSat (updRef a r (fun k => { k with good := false, valid := 0 })) bTIM 0x88 0 32 1)
    else a) s

/-- The LANE STATE event (Table 24.3) of a port. -/
def laneStateEvent (s : State) (q p old new further : Nat) : State :=
  eventD s 9 0x0C 0x0E80 [q * 4 + (portLanes s q p).headD p, p, old, new, (getPort s q p).rtype, further] 0

/-- A port takes a link state (R362, R363, R365, R367): a change to or from UP is journaled or counted in its window;
leaving UP counts LINKDN on each lane, ends FROZEN and DEGRADED and loses grandmasters; reaching UP freezes again the
lanes whose FREEZE is set; the mirror link follows its quads (R403, R406). -/
def changePort (s : State) (q p new : Nat) : State :=
  let x := getPort s q p
  let old := x.state
  if old = new then s
  else
    let s1 := putPort s q p { x with state := new, faultAt := if new = 4 then s.tim.ticks else x.faultAt }
    let s2 := (portLanes s q p).foldl (fun a i =>
      let k := q * 4 + i
      let l := getLane a k
      if old = 3 then bumpSat (putLane a k { l with frozen := false, degraded := false, lows := [], goods := 0 }) (bLQ + q) (laneOff i 0x2C) 0 32 1
      else if new = 3 then putLane a k { l with frozen := fget a (bLQ + q) (laneOff i 0) 0 1 == 1, lows := [], goods := 0 }
      else a) s1
    if old = 3 ∨ new = 3 then
      let y := getPort s2 q p
      let s3 := match y.winStart with
        | none => laneStateEvent (putPort s2 q p { y with winStart := some s.tim.ticks, further := 0 }) q p old new 0
        | some _ => putPort s2 q p { y with further := y.further + 1, lastOld := old }
      linkFollow (if old = 3 then gmLost s3 q p else s3)
    else s2

/-- A quad's ports go to OFF and start again from the state that the configuration names (R357). -/
def restartQuad (s : State) (q : Nat) : State :=
  let s1 : State := { s with lane.phy := s.lane.phy.filter (fun x => x.1 / 1024 != q) }
  let s2 := (List.range 4).foldl (fun a p => changePort a q p 0) s1
  let s3 : State := { s2 with sys.pairs := del s2.sys.pairs (rkey (bLQ + q) 0x200) }
  let p := getPosted s3 (bLQ + q)
  let s4 := if p.pend.isEmpty then s3 else setStat (putPosted s3 (bLQ + q) { p with pend := [] }) (bLQ + q) 4
  let s5 := fset s4 (bLQ + q) 0x14 2 1 0
  (List.range 4).foldl (fun a p => changePort a q p (portStart a q p)) s5

/-- R355 as the shadows stand: the types of a MIRROR quad OFF; no overlap; only the placements of Table 14.1. -/
def quadOk (s : State) (q : Nat) : Bool :=
  let ty (p : Nat) : Nat := bits (shadowWord s (bLQ + q) (0x20 + 4 * p)) 0 4
  if bits (shadowWord s (bLQ + q) 0x10) 0 1 = 1 then (List.range 4).all (fun p => ty p == 0)
  else
    (List.range 4).all (fun p => decide (p + typeLanes (ty p) ≤ 4) && decide (typeLanes (ty p) ≤ 1 ∨ p % typeLanes (ty p) = 0)) &&
      (List.range 4).all (fun i => decide (((List.range 4).filter (fun p => decide (p ≤ i ∧ i < p + typeLanes (ty p)))).length ≤ 1))

/-! ### The PHY space (R365, R368, R373) -/

/-- A PHY word as stored. -/
def phyWord (s : State) (q i : Nat) : Nat := (lkD s.lane.phy (q * 1024 + i) 0).toNat

/-- A 7-bit two's complement magnitude. -/
def mag7 (v : Nat) : Nat := if v % 128 ≥ 64 then 128 - v % 128 else v % 128

/-- A write of a PHY word is taken by the lane domain. -/
def phyTake (s : State) (q i v : Nat) : State :=
  let b := bLQ + q
  let lane := i / 256
  let w := i % 256
  let put (v : Nat) : State := { s with lane.phy := ins s.lane.phy (q * 1024 + i) (BitVec.ofNat 32 v) }
  if lane > 3 then setStat s b 6
  else if w ≤ 3 then
    let sum := ((List.range 4).map (fun k => mag7 (if k = w then v else phyWord s q (lane * 256 + k)))).sum
    if sum > 63 then setStat s b 6 else put (v % 128)
  else if w = 4 then put (v % 2)
  else if w = 8 ∨ (0x10 ≤ w ∧ w ≤ 0x23) then
    if (getLane s (q * 4 + lane)).frozen then (if w = 8 then put (v % 32) else put (v % 256))
    else fset s b (laneOff lane 8) 7 1 1
  else setStat s b 6

/-! ### LCTL and LMARG (R365 to R367) -/

/-- FREEZE written: while the lane is UP it is frozen, or its adaptation resumes and DEGRADED clears. -/
def freezeWrite (s : State) (q i v : Nat) : State :=
  let k := q * 4 + i
  let s1 := fset s (bLQ + q) (laneOff i 0) 0 1 v
  let l := getLane s1 k
  if v % 2 = 1 then putLane s1 k { l with frozen := laneUp s1 k, lows := if l.frozen then l.lows else [] }
  else putLane s1 k { l with frozen := false, degraded := false, lows := [], goods := 0 }

/-- FLOOR and ADAPT_GUARD written under an arm: each change writes an EVENT grain to stream D (R367). -/
def lmargWrite (s : State) (q i v cjn : Nat) : State :=
  let b := bLQ + q
  let old := rawGet s b (laneOff i 4)
  let r := mergeWrite s b (laneOff i 4) old v
  let s1 := rawSet s b (laneOff i 4) r.1
  let s2 := if r.2 then setStat s1 b 6 else s1
  if r.1 = old then s2 else eventD s2 9 0x0C 0x0E83 [q * 4 + i, bits r.1 8 1, bits r.1 0 8] cjn

/-! ### Timestamps (R369, R370) -/

/-- A 16-bit two's complement number. -/
def s16 (v : Nat) : Int := if v % 65536 ≥ 32768 then ((v % 65536 : Nat) : Int) - 65536 else ((v % 65536 : Nat) : Int)

/-- LATRX and LATTX of lane k, in 1/16 ns. -/
def laneLat (s : State) (k : Nat) : Nat := (laneView s (bLQ + k / 4) (laneOff (k % 4) 0x0C)).getD 0

/-- The corrected receive timestamp, in whole ns, of a frame that the MAC of lane k detected `age` ticks ago; `var` is its
codeword-position delay VAR_rx in 1/16 ns. [log 43 DEDUCED, safe] -/
def rxStamp (s : State) (k age var : Nat) : Int :=
  ((s.tim.tai : Int) - 100000 * (age : Int)
    - 5000 * ((bits (laneLat s k) 0 16 : Int) + (var : Int) + s16 (fget s (bLQ + k / 4) (laneOff (k % 4) 0x10) 0 16))) / 80000

/-- The corrected transmit timestamp, in whole ns, of a frame that the MAC of lane k sent at `t`, with its VAR_tx; both are in
1/16 ns. -/
def txStamp (s : State) (k : Nat) (t : Int) (var : Nat) : Int :=
  (t + (bits (laneLat s k) 16 16 : Int) + (var : Int) + s16 (fget s (bLQ + k / 4) (laneOff (k % 4) 0x10) 16 16)) / 16

/-! ### Meanings of the lane events -/

/-- Types that a port advertises (R360). -/
def advertised (s : State) (q p : Nat) : List Nat :=
  let t := portType s q p
  let adv := fget s (bLQ + q) (0x20 + 4 * p) 8 3
  if t < 5 then [t]
  else
    let even := if t % 2 = 0 then 1 else 0
    t :: ([(7 + even, 0), (9 + even, 1), (11, 2)].filter (fun x => bit adv x.2 && decide (x.1 > t))).map (·.1)

/-- AN_COMPLETE (R360): negotiation with a partner that advertises `partner` types ends; the fastest common type resolves
and the port trains, or the attempt counts in ANFAIL. -/
def execAnComplete (q p : Nat) (partner : List Nat) (rsFec : Bool) (s : State) : Host.Outcome State Fault Refusal :=
  if (getPort s q p).state ≠ 1 then .next s
  else
    match (advertised s q p).find? (fun t => partner.contains t && (rsFec || !(t == 9 || t == 10))) with
    | some t => .next (changePort (fset (putPort s q p { getPort s q p with rtype := t }) (bLQ + q) (0x30 + 4 * p) 0 4 t) q p 2)
    | none => .next (bumpSat s (bLQ + q) (0x30 + 4 * p) 16 16 1)

/-- TRAINING_COMPLETE (R362, R364, R368): the port goes UP; a mirror quad whose partner trains at another rate stays in
TRAIN with RATEMIS. `taps` are the transmitter taps that training set, four words for each lane of the port; a lane with
TXOVR keeps the written ones. -/
def execTrainingComplete (q p : Nat) (rateOk : Bool) (taps : List (List Nat)) (s : State) : Host.Outcome State Fault Refusal :=
  if (getPort s q p).state ≠ 2 then .next s
  else if quadMirror s q && !rateOk then .next (fset s (bLQ + q) 0x14 2 1 1)
  else
    let t := if (getPort s q p).rtype ≠ 0 then (getPort s q p).rtype else portType s q p
    let s1 := fset (putPort s q p { getPort s q p with rtype := t }) (bLQ + q) (0x30 + 4 * p) 0 4 t
    let s2 := ((portLanes s q p).zip taps).foldl (fun a x =>
      if phyWord a q (x.1 * 256 + 4) % 2 = 1 then a
      else (List.range 4).foldl (fun a k => { a with lane.phy := ins a.lane.phy (q * 1024 + x.1 * 256 + k) (BitVec.ofNat 32 ((x.2[k]?).getD 0 % 128)) }) a) s1
    .next (changePort (fset s2 (bLQ + q) 0x14 2 1 0) q p 3)

/-- TRAINING_TIMEOUT (R362): from TRAIN to FAULT. -/
def execTrainingTimeout (q p : Nat) (s : State) : Host.Outcome State Fault Refusal :=
  if (getPort s q p).state = 2 then .next (changePort s q p 4) else .next s

/-- PCS_LOCK_LOSS (R362): lock lost, or more than 16 uncorrectable codewords in 1 ms; from UP to FAULT. `txCut` frames in
transmission are lost and counted in TXABORT of the lane; `rxCut` received frames are cut and discarded at A1. -/
def execPcsLockLoss (q p rxCut txCut : Nat) (s : State) : Host.Outcome State Fault Refusal :=
  if (getPort s q p).state = 3 then
    let k := (portLanes s q p).headD p
    let s1 := bumpSat s (bLQ + q) (laneOff k 0x38) 16 16 txCut
    let s2 := bumpWrap s1 bAWP (0x400 + 0x10 * (q * 4 + k)) 0 32 rxCut
    .next (changePort s2 q p 4)
  else .next s

/-- FAULT_TIMEOUT (R362): after 10 ms in FAULT the port returns to AN or TRAIN. -/
def execFaultTimeout (q p : Nat) (s : State) : Host.Outcome State Fault Refusal :=
  let x := getPort s q p
  if x.state = 4 ∧ s.since x.faultAt ≥ ticksOfMs 10 then .next (changePort (putPort s q p { x with rtype := 0 }) q p (portStart s q p))
  else .next s

/-- The window of the mirror link ends (R406). -/
def mirrorWindowEnd (s : State) : State :=
  match s.mir.winStart with
  | some t =>
    if s.since t < ticksOfS 1 then s
    else
      let s1 : State := { s with mir.winStart := none, mir.further := 0 }
      if s.mir.further > 0 then linkEvent s1 else s1
  | none => s

/-- LINK_EVENT_WINDOW_END (R363): the 1 s window ends; one grain records the further changes and the final state. Quad 12
stands for the mirror link. -/
def execLinkEventWindowEnd (q p : Nat) (s : State) : Host.Outcome State Fault Refusal :=
  let x := getPort s q p
  if q = 12 then .next (mirrorWindowEnd s)
  else match x.winStart with
  | some t =>
    if s.since t < ticksOfS 1 then .next s
    else
      let s1 := putPort s q p { x with winStart := none, further := 0 }
      .next (if x.further > 0 then laneStateEvent s1 q p x.lastOld x.state x.further else s1)
  | none => .next s

/-- MARGIN_MEASURE (R366, R367): the eye openings of a lane, in mV. The margin is the smallest. Three measurements in a
row of a frozen lane below FLOOR reach the floor: ADAPT_GUARD overrides the freeze, else the lane is degraded. -/
def execMarginMeasure (k : Nat) (eyes : List Nat) (s : State) : Host.Outcome State Fault Refusal :=
  if laneUp s k = false ∨ eyes = [] then .next s
  else
    let q := k / 4
    let i := k % 4
    let b := bLQ + q
    let m := sat 8 (eyes.foldl min (eyes.headD 0))
    let eye := sat 8 ((eyes[0]?).getD 0) + sat 8 ((eyes[1]?).getD 0) * 256 + sat 8 ((eyes[2]?).getD 0) * 65536
    let s0 : State := { s with lane.phy := ins s.lane.phy (q * 1024 + i * 256 + 0x30) (BitVec.ofNat 32 eye) }
    let floor := fget s b (laneOff i 4) 0 8
    let l := getLane s k
    let goods := if m ≥ floor + 3 then l.goods + 1 else 0
    let lows := if l.frozen && decide (m < floor) then l.lows ++ [m] else []
    let degr := l.degraded && decide (goods < 100)
    let l1 : LaneInfo := { l with margin := m, goods := goods, lows := lows, degraded := degr }
    if lows.length ≥ 3 then
      let ms := lows.drop (lows.length - 3)
      if fget s b (laneOff i 4) 8 1 = 1 then
        let s1 := putLane s0 k { l1 with frozen := false, lows := [] }
        let s2 := fset (fset s1 b (laneOff i 0) 0 1 0) b (laneOff i 8) 6 1 1
        .next (eventD (bumpSat s2 b (laneOff i 0x30) 0 16 1) 9 5 0x0E81 ([k] ++ ms ++ [floor]) 0)
      else if l1.degraded then .next (putLane s0 k { l1 with lows := ms })
      else
        let s1 := putLane s0 k { l1 with degraded := true, lows := ms, goods := 0 }
        .next (eventD (bumpSat s1 b (laneOff i 0x30) 16 16 1) 9 0x0C 0x0E82 [k, m, floor] 0)
    else .next (putLane s0 k l1)

/-- BER_ESTIMATE (14.6): the codewords and symbols that a lane's FEC corrected or could not correct in the second, and the
pre-FEC estimate BERLOG = round(−16 × log10(BER)), `berlog`, 0xFFFF where no error was seen. On a quad of the mirror link
the uncorrectable codewords count in FECUNC (Table 16.3). -/
def execBerEstimate (k corr unc sym berlog : Nat) (s : State) : Host.Outcome State Fault Refusal :=
  let b := bLQ + k / 4
  let i := k % 4
  let s1 := bumpWrap (bumpWrap (bumpWrap s b (laneOff i 0x20) 0 32 corr) b (laneOff i 0x24) 0 32 unc) b (laneOff i 0x28) 0 32 sym
  let s1 := if quadMirror s (k / 4) && bit (rawGet s bMIR 0x10) (k / 4) then bumpWrap s1 bMIR 0x84 0 32 unc else s1
  .next (fset s1 b (laneOff i 0x34) 0 16 (if sym = 0 then 0xFFFF else sat 16 berlog))

end Sys2Proof.Machine
end

