-- ==== Sys2Proof/Machine/Replay0.lean ====
section
/-! DEFINITION. Starting a replay run and writing a replay journal (R536, R537). -/
namespace Sys2Proof.Machine

open Sys2Proof

/-- The replay journal of a tenant, newest grain first. -/
def rjournal (s : State) (t : Nat) : List ImpGrain := lkD s.rpl.journals t []

/-- A grain joins a tenant's replay journal. -/
def rjAppend (s : State) (t : Nat) (g : ImpGrain) : State :=
  bumpWrap { s with rpl.journals := ins s.rpl.journals t (g :: rjournal s t) } bRPL 0x64 0 32 1

/-- The MEAS item in force at a grain: the last that names a grain at or below it (R525). -/
def measAt (m : List (Nat × Digest × Digest)) (n : Nat) : Option (Nat × Digest × Digest) :=
  (m.filter (fun x => decide (x.1 ≤ n))).getLast?

/-- The reason for which a start is refused (R536): 1 MODE, 2 NOSET, 3 RANGE, 4 RULES, 5 AREA, 6 MEAS; 0 where it is
accepted. -/
def startReason (s : State) (t : Nat) (cross : Bool) (fr th : Nat) : Nat :=
  if s.role ≠ .lab ∨ s.inMode .replay = false ∨ s.rpl.run.isSome then 1
  else match lk s.rpl.sets t with
    | none => 2
    | some set =>
      if fr > th ∨ fr < set.first ∨ th > set.last then 3
      else if !(s.awp.runtime.contains t) || (lk s.sec.rules t).isNone then 4
      else if areaFree s < set.segs then 5
      else if !cross && (match measAt set.meas fr with
          | some m => m.2.1 ≠ s.sec.bm ∨ m.2.2 ≠ tmOf s t
          | none => False) then 6
      else 0

/-- A start of a run (R535 to R537): refused with its reason, or the tenant's replay journal erased and the grains below
FROM written into it unchanged. -/
def replayStart (s : State) : State :=
  let t := fget s bRPL 0x10 0 6
  let cross := fget s bRPL 0x10 8 1 = 1
  let fr := get64 s bRPL 0x18
  let th := get64 s bRPL 0x20
  let r := startReason s t cross fr th
  if r ≠ 0 then rawSet s bRPL 0x2C (5 + 256 * r)
  else
    let gs := match lk s.rpl.sets t with | some x => x.grains | none => []
    let s1 : State := { s with rpl.journals := ins s.rpl.journals t [],
                               rpl.run := some ⟨t, cross, fr, th, fr, false, none, false⟩ }
    let s2 := (gs.filter (fun g => decide (g.seq < fr))).foldl (fun a g => rjAppend a t g) s1
    set64 (rawSet s2 bRPL 0x2C 1) bRPL 0x30 fr

end Sys2Proof.Machine
end

