-- ==== Sys2Proof/Machine/BusWrite.lean ====
section
/-! DEFINITION. Writes of register space (chapter 3): UPDATE with its groups, the registers that act when written, posted
writes, and the whole write access. -/
namespace Sys2Proof.Machine

open Sys2Proof

/-! ### SYS.UPDATE (R82 to R85) -/

/-- A presented group is accepted: its mode, no staging copy waiting, its consistency rule (R84). -/
def groupOk (s : State) (g : Nat) : Bool :=
  groupModeOk s g && !s.sys.staged.contains g &&
    (match g with
      | 7 => windowsOk s
      | 8 => seqOk s
      | 12 => hopOk s
      | 14 => (List.range 12).all (quadOk s)
      | _ => true)

/-- The groups of a mask. -/
def maskGroups (w : Nat) : List Nat := (List.range 16).filter (bit w)

/-- The open row and the open segment of a stream close (R435), as those of stream D at a UG10 strobe (R444); a stream without an open segment has none
to close. [log 17 DEDUCED, unsafe] -/
def closeStream (s : State) (t : Nat) : State :=
  let st := strm s t
  match st.segs with
  | [] => s
  | g :: _ =>
    if g.closed then s
    else
      let c := rowsAtClose s.jrn t st g s.tim.ticks
      let s1 := setStrm { s with jrn.rows := c.1, jrn.order := s.jrn.order + c.2.1 } t
        { st with rowIdx := st.rowIdx + c.2.1, segs := closeSegment st.segs s.now st.lastDig st.chained (st.rowIdx + c.2.1 - 1) }
      bumpWrap s1 bJRN 0x48 0 32 c.2.2

/-- The loop drive settings are copied into the vault at an apply of UG5 (R494). [log 35 DEDUCED, safe] -/
def copyDrives (s : State) : State :=
  { s with sec.vault.react := (List.range 8).foldl (fun a n => ins a (16 + n) (BitVec.toNat (BitVec.ofNat 32 (rawGet s bPWR (0x50 + 4 * n))))) s.sec.vault.react }

/-- The staging copies of groups become active in every block at once, with what each group's apply does besides: lanes
restart (R357), reactions and drives go to the vault (R126, R494), tenants no longer mirrored detach, a new BAUD waits (R548); UG11 posts the transfer. [log 17 DEDUCED, unsafe] -/
def applyGroups (s : State) (gs : List Nat) : State :=
  let qs := if gs.contains 14 then (List.range 12).filter (fun q => quadChanged s (bLQ + q)) else []
  let bs := (gs.filter (fun g => g ≠ 11)).flatMap groupBlocks
  let s1 := bs.foldl unstageBlock s
  let s2 := if gs.contains 11 then putPosted s1 bFLC { getPosted s1 bFLC with xfer := true } else s1
  let s3 := qs.foldl restartQuad s2
  let s4 := if gs.contains 4 then copyReactions s3 else s3
  let s5 := if gs.contains 5 then copyDrives s4 else s4
  let s6 := if gs.contains 9 then linkFollow (mirDetach s5) else s5
  if gs.contains 15 then baudPending s6 else s6

/-- A group apply (R85): its grains and its registers. -/
def applyWith (s : State) (gs : List Nat) (req cjn : Nat) : State :=
  if gs.isEmpty then s else applyGroups (updateGrains s gs req cjn) gs

/-- A write to SYS.UPDATE. UG12 waits for the next witness event instant; the close of stream D's segment is the boundary
at which UG10 applies. -/
def updateWrite (s : State) (req w cjn : Nat) : State :=
  let gs := maskGroups w
  let acc := gs.filter (groupOk s)
  let bad := gs.filter (fun g => !groupOk s g)
  let s1 := fset s bSYS 0x34 16 16 (fget s bSYS 0x34 16 16 ||| bad.foldl (fun a g => a + 2 ^ g) 0)
  let s2 := acc.foldl stageGroup s1
  let s3 := applyWith s2 (acc.filter (fun g => g ≠ 10 ∧ g ≠ 12)) req cjn
  let s4 := if acc.contains 10 then applyWith (closeStream s3 sD) [10] req cjn else s3
  if acc.contains 12 then { s4 with sys.staged := 12 :: s4.sys.staged, sys.stagedReq := req } else s4

/-! ### Registers that act when written -/

/-- A write of PWR.ECLASS (R484): one accepted write per SEALED, and only in SEALED; each writes the ECLASS event. [log 35 DEDUCED, safe] -/
def eclassWrite (s : State) (v cjn : Nat) : State :=
  let okw := s.inMode .sealed && !s.pwr.written
  let s1 : State := if okw then { s with pwr.eclass := votedOf v, pwr.written := true } else fset s bPWR 0x10 8 1 1
  eventD s1 9 0x0C 0x048A [v, b2n okw] cjn

/-- A write of RPL.RUN by the management cluster (R535): 1 starts a run. -/
def rplRunWrite (s : State) (v : Nat) : State := if bit v 0 then replayStart s else s

/-- A write of SEC.LOCKS: bits are only set. -/
def locksWrite (s : State) (v : Nat) : State := { s with sec.locks := votedOf (s.sec.locks.maj ||| (v % 8)) }

/-- The register belongs to a lane: its lane and the register's offset within the lane. -/
def laneReg (b off : Nat) : Option (Nat × Nat) :=
  if 0x20 ≤ b ∧ b ≤ 0x2B ∧ 0x100 ≤ off ∧ off < 0x200 then some ((off - 0x100) / 0x40, (off - 0x100) % 0x40) else none

/-- A key-guarded write that the guard has accepted. -/
def guardedWrite (s : State) (b off v cjn : Nat) : State :=
  if b = bSYS ∧ off = 0x20 then modeWrite (if bit v 8 then fset s bSYS 0x20 8 1 0 else s) (v % 8)
  else if b = bPRT ∧ off = 0x20 then bookCmd s v (fun _ => true) cjn
  else if b = bTIM ∧ off = 0x38 then refenWrite s (v % 16) cjn
  else if b = bPWR ∧ off = 0x10 then eclassWrite (if bit v 8 then fset s bPWR 0x10 8 1 0 else s) (v % 4) cjn
  else if b = bSEC ∧ off = 0x18 then locksWrite s v
  else match laneReg b off with
    | some (i, 4) => lmargWrite s (b - bLQ) i v cjn
    | _ => plainWrite s b off v

/-- A write that needs no arm. [log 15 DEDUCED, unsafe] -/
def openWrite (s : State) (req b off v cjn : Nat) : State :=
  if b = bSYS ∧ off = 0x30 then updateWrite s req v cjn
  else if b = bSYS ∧ off = 0x40 then snapAll s
  else if b = bRPL ∧ off = 0x28 then rplRunWrite s v
  else if off = 8 then
    rawSet s b 8 (bits (rawGet s b 8) 0 7 &&& (127 ^^^ (v &&& 0x76)))
  else match addrSpace s b off with
    | some sp => addrWrite s req b sp v
    | none => match laneReg b off with
      | some (i, 0) => freezeWrite s (b - bLQ) i (v % 2)
      | _ => plainWrite s b off v

/-- The register's meaning forbids the write to this requester (reason 0x7): UNLOCK and SYS.MODE from the console (R100, R101), SYS.MODE, BOOKCMD,
BOOKARG and RPL.RUN from any but the management cluster, TSTAT, and DATA of read-only spaces and of patch RAM (R327). -/
def forbidden (s : State) (req b off : Nat) (console : Bool) : Bool :=
  (console && (off == 4 || (b == bSYS && off == 0x20))) || (b == bSEC && off == 0x50)
    || (decide (req ≠ reqMgmt) && ((b == bSYS && off == 0x20) || (b == bPRT && (off == 0x20 || off == 0x24)) || (b == bRPL && off == 0x28)))
    || (match dataSpace s b off with | some sp => !sp.writable || b == bUCD | none => false)

/-- A write of a DATA register of the PHY space: posted, entry by entry of one word (R87, R373). -/
def phyDataWrite (s : State) (req addr b : Nat) (sp : Space) (v : Nat) : BusRes :=
  let p := getPair s b sp.addrOff
  let q := getPosted s b
  if p.owner ≠ some req then busErr s req addr true 5
  else if p.addr ≥ sp.size then busErr s req addr true 6
  else if q.rst || !q.pend.isEmpty then ⟨setStat s b 1, 0, 0⟩
  else
    let s1 := putPair s b sp.addrOff { p with addr := p.addr + 1 }
    ⟨putPosted s1 b { q with pend := [(req, 0x1000 + p.addr, BitVec.ofNat 32 v)] }, 0, 0⟩

/-- A write of one register by a requester (R70 to R93). [log 14 DEDUCED, safe] -/
def busWrite (s : State) (req b off width v : Nat) (console : Bool) (cjn : Nat) : BusRes :=
  let addr := regAddr b off
  let v := v % 2 ^ 32
  let r := accessReason b off width true
  if r ≠ 0 then busErr s req addr true r
  else if forbidden s req b off console then busErr s req addr true 7
  else if off = 4 then ⟨unlockWrite s req b v, 0, 0⟩
  else match dataSpace s b off with
    | some sp => if b = bPRT then ptDataWrite s req addr sp v else phyDataWrite s req addr b sp v
    | none =>
      if isPosted b off then ⟨postWrite s req b off v, 0, 0⟩
      else if isKw b off then
        if guardOk s req b then ⟨guardedWrite (disarm s b) b off v cjn, 0, 0⟩ else ⟨setStat s b 2, 0, 0⟩
      else ⟨openWrite s req b off v cjn, 0, 0⟩

/-- The slow domain takes what waits (R87): a posted write, or UG11's transfer. [log 13 DEDUCED, safe] -/
def postedTaken (s : State) (b : Nat) : State :=
  let p := getPosted s b
  if p.rst then s
  else
    let s0 := putPosted s b ⟨[], false, false⟩
    let s1 := if p.xfer then unstageBlock s0 b else s0
    p.pend.foldl (fun a w =>
      if 0x20 ≤ b ∧ b ≤ 0x2B then phyTake a (b - bLQ) (w.2.1 - 0x1000) w.2.2.toNat
      else match addrSpace a b w.2.1 with
        | some sp => addrWrite a w.1 b sp w.2.2.toNat
        | none => plainWrite a b w.2.1 w.2.2.toNat) s1

end Sys2Proof.Machine
end

