-- ==== Sys2Proof/Machine/Tags.lean ====
section
/-! DEFINITION. Tagged words: the tags of Table 7.1, what each level may create and load, numbers and their limbs, traps
and the results of an instruction (chapters 7 to 9). -/
namespace Sys2Proof.Machine

open Sys2Proof

/-! ### Tags (Table 7.1) -/

def tINT : BitVec 8 := 0x00
def tMONEY : BitVec 8 := 0x01
def tCHAR : BitVec 8 := 0x02
def tBOOL : BitVec 8 := 0x03
def tSYMBOL : BitVec 8 := 0x04
def tNIL : BitVec 8 := 0x05
def tUNBOUND : BitVec 8 := 0x06
def tTIME : BitVec 8 := 0x07
def tCONS : BitVec 8 := 0x10
def tVECTOR : BitVec 8 := 0x11
def tSTRING : BitVec 8 := 0x12
def tBIGNUM : BitVec 8 := 0x13
def tRECORD : BitVec 8 := 0x14
def tCLOSURE : BitVec 8 := 0x15
def tCODE : BitVec 8 := 0x16
def tFORWARD : BitVec 8 := 0x17
def tHEADER : BitVec 8 := 0x18
def tRATIO : BitVec 8 := 0x19
def tSAVELINK : BitVec 8 := 0x1F
def tRETADDR : BitVec 8 := 0x20
def tSTACKPTR : BitVec 8 := 0x21
def tCTXREF : BitVec 8 := 0x22
def tRAW : BitVec 8 := 0x30
def tPOISON : BitVec 8 := 0xFF

/-- Every tag that is not reserved (R176). -/
def allTags : List (BitVec 8) :=
  [tINT, tMONEY, tCHAR, tBOOL, tSYMBOL, tNIL, tUNBOUND, tTIME, tCONS, tVECTOR, tSTRING, tBIGNUM, tRECORD, tCLOSURE, tCODE,
   tFORWARD, tHEADER, tRATIO, tSAVELINK, tRETADDR, tSTACKPTR, tCTXREF, tRAW, tPOISON]

/-- The heap pointer tags of R283, which are also the OBJECT class of Table 7.9. -/
def heapTags : List (BitVec 8) := [tCONS, tVECTOR, tSTRING, tBIGNUM, tRECORD, tCLOSURE, tRATIO]

/-- The word is a heap pointer. -/
def isHeap (w : TWord) : Bool := heapTags.contains w.tag

/-- Base tags of R218 by level. -/
def baseTags (lvl : Nat) : List (BitVec 8) :=
  if lvl = 0 then [tSTACKPTR]
  else [tCONS, tVECTOR, tSTRING, tBIGNUM, tRECORD, tCLOSURE, tRATIO, tFORWARD, tSAVELINK, tSTACKPTR, tRAW]

/-- An explicit retag to a tag is permitted at a level (Table 7.3). A CTXREF at S is of the own tenant only, which
`ownTenant` says of the payload. -/
def retagOk (lvl : Nat) (t : BitVec 8) (ownTenant : Bool) : Bool :=
  if t = tINT ∨ t = tMONEY ∨ t = tCHAR ∨ t = tBOOL ∨ t = tNIL then true
  else if t = tPOISON then false
  else if lvl = 0 then false
  else if t = tRETADDR ∨ t = tSAVELINK then lvl == 2
  else if t = tCTXREF then lvl == 2 || ownTenant
  else true

/-- A tag may be loaded at a level (Table 7.3). -/
def loadOk (lvl : Nat) (t : BitVec 8) : Bool :=
  lvl != 0 || !(t == tFORWARD || t == tHEADER || t == tCTXREF || t == tSAVELINK || t == tRAW)

/-- The payload is one that Table 7.1 allows for the tag (R216). -/
def payloadOk (t : BitVec 8) (v : BitVec 64) : Bool :=
  if t = tCHAR then decide (v.toNat ≤ 0x10FFFF) && !(decide (0xD800 ≤ v.toNat ∧ v.toNat ≤ 0xDFFF))
  else if t = tBOOL then decide (v.toNat ≤ 1)
  else if t = tNIL then v == 0
  else if t = tTIME then decide (v.toNat < 2 ^ 63)
  else if t = tCTXREF then v.toNat % 2 ^ 48 == 0
  else true

/-! ### Words -/

/-- A word from a tag and a number. -/
def tw (t : BitVec 8) (n : Nat) : TWord := ⟨t, BitVec.ofNat 64 n⟩

/-- An INT word. -/
def wInt (n : Int) : TWord := ⟨tINT, BitVec.ofInt 64 n⟩

/-- A MONEY word. -/
def wMoney (n : Int) : TWord := ⟨tMONEY, BitVec.ofInt 64 n⟩

/-- A BOOL word. -/
def wBool (b : Bool) : TWord := ⟨tBOOL, if b then 1 else 0⟩

/-- NIL. -/
def wNil : TWord := ⟨tNIL, 0⟩

/-- RAW 0, which every swept word of DRAM holds (R309). -/
def wZero : TWord := ⟨tRAW, 0⟩

/-- The nine bytes of a word in a digest (R343): the tag, then the payload big-endian. -/
def twBytes (w : TWord) : List Byte := w.tag :: be 8 w.val.toNat

/-- A pointer payload obeys R177. -/
def ptrOk (v : BitVec 64) : Bool := decide (v.toNat < 2 ^ 48) && v.toNat % 8 == 0

/-- A RETADDR payload obeys R177. -/
def retOk (v : BitVec 64) : Bool := decide (v.toNat < 2 ^ 48) && v.toNat % 4 == 0

/-- A number lies in the range of a signed 64-bit integer. -/
def in64 (n : Int) : Bool := decide (-(2 ^ 63 : Int) ≤ n ∧ n < 2 ^ 63)

/-- Limbs of an integer: the fewest 64-bit words of two's complement that hold it (R180). -/
def limbsOf (n : Int) : Nat := (Nat.log2 (if n < 0 then (-n - 1).toNat else n.toNat) + 1) / 64 + 1

/-- The limbs of an integer, least significant first. -/
def limbWords (n : Int) : List TWord :=
  (List.range (limbsOf n)).map (fun i => ⟨tRAW, BitVec.ofInt 64 (n / 2 ^ (64 * i))⟩)

/-- The integer that limbs spell. -/
def ofLimbs (l : List TWord) : Int :=
  let n : Nat := l.foldr (fun w (a : Nat) => w.val.toNat + 2 ^ 64 * a) 0
  if 2 * n ≥ 2 ^ (64 * l.length) then (n : Int) - 2 ^ (64 * l.length) else n

/-- A HEADER word (R178). -/
def header (kind len ident : Nat) : TWord := tw tHEADER (kind * 2 ^ 56 + len * 2 ^ 40 + ident)

/-- Kind, length and identity number of a HEADER. -/
def hdrKind (w : TWord) : Nat := w.val.toNat / 2 ^ 56
def hdrLen (w : TWord) : Nat := bits w.val.toNat 40 16
def hdrIdent (w : TWord) : Nat := bits w.val.toNat 0 40

/-! ### Traps -/

/-- A synchronous cause with its trap information (R245): cause of Table 9.4, reason, address, kind; `next` where the saved
return address is that of the next instruction. -/
structure Trap where
  cause : Nat
  reason : Nat
  addr : Nat
  kind : Nat
  next : Bool
deriving DecidableEq, Repr

def cTAGTRAP : Nat := 1
def cTLBMISS : Nat := 2
def cACCESS : Nat := 3
def cBUSERR : Nat := 4
def cSSMISMATCH : Nat := 5
def cMCHECK : Nat := 6
def cSYSCALL : Nat := 7
def cRESTART : Nat := 0x0F
def cDISPATCH : Nat := 0x10
def cSTIMER : Nat := 0x11
def cIPI_S : Nat := 0x12
def cDEVINT : Nat := 0x13
def cIPI_M : Nat := 0x14
def cMTIMER : Nat := 0x15

/-- Reasons of Table 7.4. -/
def rTYPE : Nat := 1
def rOVERFLOW : Nat := 2
def rDIVZERO : Nat := 3
def rUNBOUND : Nat := 4
def rRESERVED : Nat := 5
def rPRIV : Nat := 6
def rALLOC : Nat := 7
def rBADPTR : Nat := 8
def rLIMIT : Nat := 9

/-- ACCESS reasons of Table 9.5. -/
def aREAD : Nat := 1
def aWRITE : Nat := 2
def aNOEXEC : Nat := 3
def aNOTCODE : Nat := 4
def aPAGETYPE : Nat := 5
def aUSER : Nat := 6
def aILLEGAL : Nat := 7
def aPRIV_INSN : Nat := 8
def aBOUNDS : Nat := 9
def aCTXWIN : Nat := 10

/-- A tag trap that concerns no address. -/
def tagTrap (r : Nat) : Trap := ⟨cTAGTRAP, r, 0, 0, false⟩

/-- An access fault that concerns no address. -/
def accFault (r : Nat) : Trap := ⟨cACCESS, r, 0, 0, false⟩

/-- A machine check. -/
def mCheck (r : Nat) : Trap := ⟨cMCHECK, r, 0, 0, false⟩

/-- POISON consumed (R186). -/
def poisonTrap (kind addr : Nat) : Trap := ⟨cBUSERR, 1, addr, kind, false⟩

/-- What an access or a part of an instruction gives: a state and a value, or a trap in a state in which nothing of the
instruction has been performed but accessed and dirty updates, dropped TLB entries and bus-error captures. -/
inductive Acs (α : Type) where
  | ok (s : State) (v : α)
  | trap (s : State) (t : Trap)

/-- One part after another. -/
def Acs.bind {α β : Type} (x : Acs α) (f : State → α → Acs β) : Acs β :=
  match x with
  | .ok s v => f s v
  | .trap s t => .trap s t

/-- A list of parts, in order. -/
def Acs.each {α β : Type} (f : State → α → Acs β) : List α → State → Acs (List β)
  | [], s => .ok s []
  | a :: l, s => (f s a).bind fun s1 b => (Acs.each f l s1).bind fun s2 bs => .ok s2 (b :: bs)

/-- How an instruction ends: retired at the next instruction, retired at a target, held or interrupted without retiring,
trapped, or with its core stopped. -/
inductive IRes where
  | done (s : State)
  | goto (s : State) (pc : Nat)
  | stay (s : State)
  | trap (s : State) (t : Trap)

/-- A part that decides how the instruction ends. -/
def Acs.fin {α : Type} (x : Acs α) (f : State → α → IRes) : IRes :=
  match x with
  | .ok s v => f s v
  | .trap s t => .trap s t

/-- The trap of the first condition of a list that holds. [log 112 DEDUCED, unsafe] -/
def firstTrap : List (Bool × Trap) → Option Trap
  | [] => none
  | (c, t) :: l => if c then some t else firstTrap l

/-- The trap that consuming operands raises: POISON, then UNBOUND (R185, R186, R250). [log 112 DEDUCED, unsafe] -/
def consumeTrap (ws : List TWord) : Option Trap :=
  if ws.any (fun w => w.tag == tPOISON) then some (poisonTrap 0 0)
  else if ws.any (fun w => w.tag == tUNBOUND) then some (tagTrap rUNBOUND)
  else none

end Sys2Proof.Machine
end

