-- ==== Sys2Proof/Machine/Mem.lean ====
section
/-! DEFINITION. Memory as a core sees it: its control fields, translation with the accessed and dirty updates, words of
DRAM, of the firmware window and of register space, and the two collector barriers (chapters 10 and 11). -/
namespace Sys2Proof.Machine

open Sys2Proof

/-! ### Cores -/

/-- A core after reset: STATUS at M, pc at the start of the firmware window, CARDBASE and CTXWIN NIL, condemned ranges 0,
replacement pointer 8; the other registers RAW 0. [log 6 DESIGN CHOICE, unsafe] -/
def coreReset : Core :=
  { regs := List.replicate 32 wZero, pc := 0x3E0000000000, status := 2, epc := wZero, estatus := wZero, tinfo := wZero,
    sstack := wZero, alimit := wZero, idctr := wZero, ctxhead := wZero, cardbase := wNil,
    condemn := List.replicate 8 wZero, ssp := wZero, uicnt := wZero, mepc := wZero, mestatus := wZero, mtinfo := wZero,
    mstack := wZero, ctxwin := wNil, outstanding := 0, dropped := false, tlb := [], repl := 8, egCount := 0, pend := [],
    runs := true, srArea := [], srCount := 0, srTicks := [], restart := false, tenant := none, bind := none,
    present := none, lastRet := 0, stops := [], ipiFrom := [], granted := none, tested := false }

/-- Core c: 0x00 to 0x5F the rule cores, 0x60 the management cluster. -/
def getCore (s : State) (c : Nat) : Core := lkD s.cpu.cores c coreReset

/-- The state with core c replaced. -/
def setCore (s : State) (c : Nat) (k : Core) : State := { s with cpu.cores := ins s.cpu.cores c k }

/-- The state with core c changed. -/
def updCore (s : State) (c : Nat) (f : Core → Core) : State := setCore s c (f (getCore s c))

/-- STATUS fields (Table 9.2). -/
def Core.level (k : Core) : Nat := bits k.status 0 2
def Core.mask (k : Core) : Nat := bits k.status 4 3
def Core.eg (k : Core) : Bool := bit k.status 7
def Core.lmprog (k : Core) : Nat := bits k.status 12 5
def Core.sr (k : Core) : Bool := bit k.status 20
def Core.asid (k : Core) : Nat := bits k.status 24 8

/-- The level of core c. -/
def lvlOf (s : State) (c : Nat) : Nat := (getCore s c).level

/-- The ASID under which a core translates (R266). -/
def asidOf (k : Core) : Nat := if k.level = 2 then 0xFF else k.asid

/-- Register w of core c. -/
def reg (s : State) (c w : Nat) : TWord := ((getCore s c).regs[w]?).getD wZero

/-- Register w written, with its DIRTY bit (R204). -/
def putReg (s : State) (c w : Nat) (v : TWord) : State :=
  updCore s c (fun k => { k with regs := upd k.regs w (fun _ => v), status := setBits k.status (8 + w / 8) 1 1 })

/-- R205: at U, w30 takes only a STACKPTR. -/
def destBad (s : State) (c w : Nat) (v : TWord) : Bool := lvlOf s c == 0 && w == 30 && v.tag != tSTACKPTR

/-- A result delivered to a register. -/
def deliver (s : State) (c w : Nat) (v : TWord) : IRes :=
  if destBad s c w v then .trap s (tagTrap rTYPE) else .done (putReg s c w v)

/-! ### Memory words (R300, R309) -/

/-- A word of memory by physical address. [log 7 DESIGN CHOICE, unsafe] -/
def memGet (m : Map TWord) (a : Nat) : TWord := lkD m (a / 8) wZero

/-- A word of memory replaced; a word that reads as RAW 0 is not listed. -/
def memPut (m : Map TWord) (a : Nat) (w : TWord) : Map TWord := if w = wZero then del m (a / 8) else ins m (a / 8) w

/-- The canonical form of memory: rising addresses, no word listed that reads as RAW 0 unlisted. -/
def Memory.wf (m : Map TWord) : Bool :=
  (m.map (·.1)).Pairwise (· < ·) && m.all (fun p => decide (p.2 ≠ wZero))

/-- A word of the device's memory. [log 7 DESIGN CHOICE, unsafe] -/
def mem (s : State) (a : Nat) : TWord := memGet s.cpu.mem a

/-- The state with a word of memory replaced. -/
def putMem (s : State) (a : Nat) (w : TWord) : State := { s with cpu.mem := memPut s.cpu.mem a w }

/-! ### Translation (R246 to R277) -/

/-- Fields of a PTE image (Table 10.3). -/
def pteTyp (e : TlbEnt) : Nat := bits e.img.toNat 7 2
def pteGen (e : TlbEnt) : Nat := bits e.img.toNat 9 2
def pteBit (e : TlbEnt) (i : Nat) : Bool := bit e.img.toNat i

/-- Bytes of a page by its size code. -/
def pageBytes (sz : Nat) : Nat := if sz = 0 then 0x2000 else if sz = 1 then 0x200000 else 0x40000000

/-- The entry of a TLB that matches an ASID and address (R272). -/
def lookup (l : Map TlbEnt) (asid va : Nat) : Option (Nat × TlbEnt) :=
  l.find? (fun p => p.2.asid == asid && decide (p.2.va ≤ va ∧ va < p.2.va + pageBytes p.2.size))

/-- What answers at a physical address. -/
inductive Tgt where
  | dram | steady | aperture | device
deriving DecidableEq, Repr

/-- A translated access: virtual and physical address, target, page type (4 in the firmware window), generation, whether W
is granted. -/
structure Xl where
  va : Nat
  pa : Nat
  tgt : Tgt
  typ : Nat
  gen : Nat
  w : Bool
deriving DecidableEq, Repr

/-- An address lies in the firmware window (R248). -/
def inWindow (va : Nat) : Bool := decide (0x3E0000000000 ≤ va ∧ va < 0x3E0001000000)

/-- The target of an address of the firmware window (10.1). -/
def windowTgt (va : Nat) : Tgt :=
  if 0x3E0000020000 ≤ va ∧ va < 0x3E0000021000 then .steady
  else if 0x3E0000040000 ≤ va ∧ va < 0x3E0000042000 then .aperture else .dram

/-- The access kinds of R245. -/
def kFETCH : Nat := 1
def kLOAD : Nat := 2
def kSTORE : Nat := 3
def kPUSH : Nat := 4
def kPOP : Nat := 5
def kCARD : Nat := 6
def kREG : Nat := 7

/-- The kind writes. -/
def isWrite (kind : Nat) : Bool := kind == kSTORE || kind == kPUSH || kind == kCARD

/-- The access-fault reason of an access through an entry (Tables 9.5 and 10.4), in the order of the codes; 0 where it is
permitted. U and W do not concern shadow pushes and pops, since a SHADOW page has U clear and must not be mapped W. [log 109 DEDUCED, unsafe] -/
def permReason (e : TlbEnt) (lvl kind : Nat) : Nat :=
  let shadow := kind == kPUSH || kind == kPOP
  let rBad := (kind == kLOAD || kind == kPOP) && !pteBit e 1
  let wBad := (kind == kSTORE || kind == kCARD) && !pteBit e 2
  let xBad := kind == kFETCH && !pteBit e 3
  let ty := pteTyp e
  let typeBad :=
    if shadow then decide (ty ≠ 2)
    else if ty = 0 then false
    else if ty = 1 then kind == kFETCH || lvl == 0
    else if ty = 2 then decide (kind ≠ kLOAD) || lvl == 0
    else kind == kFETCH || decide (lvl ≠ 2)
  let userBad := !shadow && (pteBit e 4 != (lvl == 0))
  if rBad then aREAD else if wBad then aWRITE else if xBad then aNOEXEC else if typeBad then aPAGETYPE
  else if userBad then aUSER else 0

/-- The compare-and-swap of R276 through entry n: the image with A, and D for a write, where memory still holds the
image; else the entry is dropped and the access misses. -/
def setAD (s : State) (c n : Nat) (e : TlbEnt) (write : Bool) (miss : Trap) : Acs TlbEnt :=
  if pteBit e 5 && (!write || pteBit e 6) then .ok s e
  else
    let img := BitVec.ofNat 64 (setBits (if write then setBits e.img.toNat 6 1 1 else e.img.toNat) 5 1 1)
    if mem s e.pte = ⟨tRAW, e.img⟩ then
      let e' := { e with img := img }
      .ok (putMem (updCore s c (fun k => { k with tlb := ins k.tlb n e' })) e.pte ⟨tRAW, img⟩) e'
    else .trap (updCore s c (fun k => { k with tlb := del k.tlb n })) miss

/-- Translation of an access at a virtual address, under the level's rules, with the accessed and dirty updates (R248,
R266, R270, R274, R276). In the firmware window only loads, stores and fetches of M are accepted; a store into the
aperture faults (R264). [log 109 DEDUCED, unsafe] -/
def xlate (s : State) (c va kind : Nat) : Acs Xl :=
  let k := getCore s c
  if k.level = 2 ∧ inWindow va = true then
    if kind = kPUSH ∨ kind = kPOP then .trap s ⟨cACCESS, aPAGETYPE, va, kind, false⟩
    else if windowTgt va = .aperture ∧ isWrite kind = true then .trap s ⟨cACCESS, aCTXWIN, va, kind, false⟩
    else .ok s ⟨va, va, windowTgt va, 4, 3, true⟩
  else
    let miss : Trap := ⟨cTLBMISS, 0, va, kind, false⟩
    match lookup k.tlb (asidOf k) va with
    | none => .trap s miss
    | some (n, e) =>
      let r := permReason e k.level kind
      if r ≠ 0 then .trap s ⟨cACCESS, r, va, kind, false⟩
      else (setAD s c n e (isWrite kind) miss).bind fun s1 e1 =>
        let pa := bits e1.img.toNat 13 33 * 0x2000 + (va - e1.va)
        .ok s1 ⟨va, pa, if pteTyp e1 = 3 then .device else .dram, pteTyp e1, pteGen e1, pteBit e1 2⟩

/-! ### Words at their targets -/

/-- The requester ID of a core (R71). -/
def reqOf (c : Nat) : Nat := c

/-- A word of a core's steady-rest area (9.6). -/
def srGet (s : State) (c va : Nat) : TWord := lkD (getCore s c).srArea (va % 0x1000 / 8) wZero

/-- A word of a core's steady-rest area replaced. -/
def srPut (s : State) (c va : Nat) (w : TWord) : State :=
  updCore s c (fun k => { k with srArea := ins k.srArea (va % 0x1000 / 8) w })

/-- The bank that a CTXREF names (9.7). -/
def bankOf (s : State) (w : TWord) : Option Bank :=
  s.cpu.banks.find? (fun b => b.tenant == w.val.toNat / 2 ^ 56 && b.ctx == bits w.val.toNat 48 8)

/-- R265: the window may show the bank that a CTXREF names to core c now. [log 110 DEDUCED, unsafe] -/
def windowOk (s : State) (c : Nat) (w : TWord) : Bool :=
  s.inMode .audit || s.inMode .hold ||
    ((bankOf s w).isSome && w.val.toNat / 2 ^ 56 == (getCore s c).asid / 4)

/-- A register read at a DEVICE page: RAW, zero-extended (R74), or BUSERR (R249). [log 111 DEDUCED, safe] -/
def devRead (s : State) (c : Nat) (x : Xl) (width : Nat) : Acs TWord :=
  let o := x.pa - 0x3F0000000000
  let r := busRead s (reqOf c) (o / 0x10000) (o % 0x10000) width
  if r.reason = 0 then .ok r.st (tw tRAW r.val) else .trap r.st ⟨cBUSERR, 0x10 + r.reason, x.va, kREG, false⟩

/-- A register write at a DEVICE page: an INT or RAW word, else a tag trap before the fabric (R74). [log 111 DEDUCED, safe] -/
def devWrite (s : State) (c : Nat) (x : Xl) (w : TWord) (width : Nat) : Acs Unit :=
  if w.tag ≠ tINT ∧ w.tag ≠ tRAW then .trap s (tagTrap rTYPE)
  else
    let o := x.pa - 0x3F0000000000
    let r := busWrite s (reqOf c) (o / 0x10000) (o % 0x10000) width w.val.toNat false 0
    if r.reason = 0 then .ok r.st () else .trap r.st ⟨cBUSERR, 0x10 + r.reason, x.va, kREG, false⟩

/-- A word read at its target. `width` is 32 for the plain loads, 64 for every other access (R219, Table 3.2). [log 110 DEDUCED, unsafe] -/
def rdAt (s : State) (c : Nat) (x : Xl) (width : Nat) : Acs TWord :=
  match x.tgt with
  | .dram => .ok s (mem s x.pa)
  | .steady => .ok s (srGet s c x.va)
  | .aperture =>
    let k := getCore s c
    match (if k.ctxwin.tag = tCTXREF ∧ windowOk s c k.ctxwin = true then bankOf s k.ctxwin else none) with
    | some b => .ok s (mem s (b.pa + x.va % 0x2000))
    | none => .trap s ⟨cACCESS, aCTXWIN, x.va, kLOAD, false⟩
  | .device => devRead s c x width

/-- A word written at its target. [log 110 DEDUCED, unsafe] -/
def wrAt (s : State) (c : Nat) (x : Xl) (w : TWord) (width : Nat) : Acs Unit :=
  match x.tgt with
  | .dram => .ok (putMem s x.pa w) ()
  | .steady => .ok (srPut s c x.va w) ()
  | .aperture => .trap s ⟨cACCESS, aCTXWIN, x.va, kSTORE, false⟩
  | .device => devWrite s c x w width

/-- Words written at targets that have all been checked: one that lies in register space is refused for its width before
any is performed. -/
def wrAll (s : State) (c : Nat) (l : List (Xl × TWord)) : Acs Unit :=
  match l.find? (fun p => p.1.tgt == .device) with
  | some p => wrAt s c p.1 p.2 64
  | none => (Acs.each (fun s (p : Xl × TWord) => wrAt s c p.1 p.2 64) l s).bind fun s1 _ => .ok s1 ()

/-- A pointer's payload obeys R177, else BADPTR. -/
def ptrChk (s : State) (v : BitVec 64) (kind : Nat) : Acs Nat :=
  if ptrOk v then .ok s v.toNat else .trap s ⟨cTAGTRAP, rBADPTR, v.toNat % 2 ^ 48, kind, false⟩

/-- An address inside the 48-bit range, else BADPTR. [log 109 DEDUCED, unsafe] -/
def addrChk (s : State) (a : Int) (kind : Nat) : Acs Nat :=
  if 0 ≤ a ∧ a < 2 ^ 48 then .ok s a.toNat else .trap s ⟨cTAGTRAP, rBADPTR, 0, kind, false⟩

/-- A load of one word without barrier. -/
def ldWord (s : State) (c va kind width : Nat) : Acs (Xl × TWord) :=
  (xlate s c va kind).bind fun s1 x => (rdAt s1 c x width).bind fun s2 w => .ok s2 (x, w)

/-! ### The write barrier (R283 to R285) -/

/-- The barrier applies to a stored word at a level. [log 114 DEDUCED, safe] -/
def barrierOn (s : State) (c : Nat) (w : TWord) : Bool := lvlOf s c != 2 && isHeap w

/-- A card is to be marked for a pointer stored in a page of generation `gen` (R284). [log 114 DEDUCED, safe] -/
def cardDue (s : State) (c gen : Nat) (w : TWord) : Bool :=
  let k := getCore s c
  barrierOn s c w && k.cardbase.tag != tNIL &&
    (match lookup k.tlb (asidOf k) w.val.toNat with
     | none => true
     | some (_, e) => decide (pteGen e < gen))

/-- A word with byte i (bits 8i+7 : 8i) replaced. -/
def setByte (v : BitVec 64) (i b : Nat) : BitVec 64 := BitVec.ofNat 64 (setBits v.toNat (8 * i) 8 b)

/-- Byte i of a word. -/
def getByte (v : BitVec 64) (i : Nat) : Nat := bits v.toNat (8 * i) 8

/-- The word that holds a card, reached with the permissions of a store. -/
def ldCard (s : State) (c va : Nat) : Acs (Xl × TWord) :=
  (xlate s c va kCARD).bind fun s1 x => (rdAt s1 c x 64).bind fun s2 w => .ok s2 (x, w)

/-- The card word that a store must also write, checked (R285): its target and marked content. [log 114 DEDUCED, safe] -/
def cardOf (s : State) (c : Nat) (x : Xl) (w : TWord) : Acs (List (Xl × TWord)) :=
  if cardDue s c x.gen w then
    (addrChk s ((getCore s c).cardbase.val.toNat + x.va / 512) kCARD).bind fun s0 a =>
    (ldCard s0 c (a - a % 8)).bind fun s1 y =>
      if y.2.tag = tRAW then .ok s1 [(y.1, ⟨tRAW, setByte y.2.val (a % 8) 1⟩)]
      else .trap s1 ⟨cTAGTRAP, rTYPE, a, kCARD, false⟩
  else .ok s []

/-- A store of one word with the write barrier: both writes checked, then the card, then the word. -/
def stWord (s : State) (c va : Nat) (w : TWord) (width : Nat) : Acs Unit :=
  (xlate s c va kSTORE).bind fun s1 x =>
  (cardOf s1 c x w).bind fun s2 card =>
  (wrAll s2 c card).bind fun s3 _ => wrAt s3 c x w width

/-- Stores of several words, each with the write barrier, all checked before any is performed (CONS, MAKEV). -/
def stWords (s : State) (c : Nat) (l : List (Nat × TWord)) : Acs Unit :=
  (Acs.each (fun s (p : Nat × TWord) =>
    (xlate s c p.1 kSTORE).bind fun s1 x => (cardOf s1 c x p.2).bind fun s2 card => .ok s2 (card, (x, p.2))) l s).bind fun s1 ys =>
  (wrAll s1 c (ys.flatMap (·.1))).bind fun s2 _ => wrAll s2 c (ys.map (·.2))

/-! ### The read barrier (R286, R287) -/

/-- An address lies in an enabled condemned range. -/
def condemned (k : Core) (a : Nat) : Bool :=
  (List.range 4).any (fun n =>
    let b := ((k.condemn[2 * n]?).getD wZero).val.toNat
    let l := ((k.condemn[2 * n + 1]?).getD wZero).val.toNat
    decide (l > b ∧ b ≤ a ∧ a < l))

/-- The healing write of a slot: skipped where its page lacks W or is not NORMAL; it takes the dirty update and the write
barrier as a store does. -/
def heal (s : State) (c : Nat) (x : Xl) (old new : TWord) : Acs Unit :=
  if x.typ ≠ 0 ∨ x.w = false then .ok s ()
  else
    (xlate s c x.va kSTORE).bind fun s1 y =>
      if mem s1 y.pa = old then
        (cardOf s1 c y new).bind fun s2 card => (wrAll s2 c card).bind fun s3 _ => wrAt s3 c y new 64
      else .ok s1 ()

/-- The word that a load with the read barrier delivers from a slot. -/
def barrierLoad (s : State) (c : Nat) (x : Xl) (w : TWord) : Acs TWord :=
  let k := getCore s c
  if k.level ≠ 2 ∧ isHeap w = true ∧ condemned k w.val.toNat = true then
    (ptrChk s w.val kLOAD).bind fun s0 a =>
    (ldWord s0 c a kLOAD 64).bind fun s1 y =>
      if y.2.tag = tFORWARD ∧ condemned k y.2.val.toNat = false then
        let new : TWord := ⟨w.tag, y.2.val⟩
        (heal s1 c x w new).bind fun s2 _ => .ok s2 new
      else .trap s1 ⟨cTAGTRAP, rTYPE, x.va, kLOAD, false⟩
  else .ok s w

/-- The tag of a loaded word is one that may be delivered at the level (R176, R181). -/
def tagChk (s : State) (c : Nat) (w : TWord) : Acs TWord :=
  if !allTags.contains w.tag then .trap s (tagTrap rRESERVED)
  else if loadOk (lvlOf s c) w.tag then .ok s w else .trap s (tagTrap rPRIV)

/-- A load of R224 into register rd: the slot's word, with its tag and destination checked, under the read barrier. -/
def loadSlot (s : State) (c rd va width : Nat) : Acs TWord :=
  (ldWord s c va kLOAD width).bind fun s1 y =>
  (tagChk s1 c y.2).bind fun s2 w =>
  if destBad s2 c rd w then .trap s2 (tagTrap rTYPE) else barrierLoad s2 c y.1 w

end Sys2Proof.Machine
end

