-- ==== Sys2Proof/Machine/Exc.lean ====
section
/-! DEFINITION. Taking an exception: targets, escalation, the stack check, entry, the steady-rest handler, core stops and
the abandonment of evaluations (chapters 9 and 13, R595 to R600). -/
namespace Sys2Proof.Machine

open Sys2Proof

/-- KIND of an EVENT FAULT and of an EVENT OTHER grain (Table 17.2). -/
def kFAULT : Nat := 8
def kOTHER : Nat := 0xC

/-! ### Service and evaluations -/

/-- A rule core's CORESVC bit; the management cluster is always in service (Table 24.8). -/
def inService (s : State) (c : Nat) : Bool :=
  c == 0x60 || (decide (c < 0x60) && bit (rawGet s bHLT (0x18 + 4 * (c / 32))) (c % 32))

/-- A core taken out of service or returned. -/
def setService (s : State) (c : Nat) (on : Bool) : State := fset s bHLT (0x18 + 4 * (c / 32)) (c % 32) 1 (b2n on)

/-- A core may execute: in service, not stopped, the device powered; rule cores stand in HOLD (R64). -/
def coreAble (s : State) (c : Nat) : Bool :=
  decide (c ≤ 0x60) && inService s c && (getCore s c).runs && !s.pwr.held && (c == 0x60 || !s.inMode .hold)

/-- The other core of a pair (R345). -/
def partner (c : Nat) : Nat := if c % 2 = 0 then c + 1 else c - 1

/-- A pair's PAIRSVC bit, pair k holding cores 2k and 2k + 1. -/
def pairInService (s : State) (k : Nat) : Bool := bit (rawGet s bHLT (0x24 + 4 * (k / 32))) (k % 32)

/-- A pair taken out of service or returned. -/
def setPairService (s : State) (k : Nat) (on : Bool) : State := fset s bHLT (0x24 + 4 * (k / 32)) (k % 32) 1 (b2n on)

/-- A retained input. -/
def inputAt (s : State) (t n : Nat) : Option Input := s.awp.inputs.find? (fun i => i.tenant == t && i.seq == n)

/-- The state with a retained input changed. -/
def updInput (s : State) (t n : Nat) (f : Input → Input) : State :=
  { s with awp.inputs := s.awp.inputs.map (fun i => if i.tenant = t ∧ i.seq = n then f i else i) }

/-- The cores that hold the evaluation of core c: c, and its partner where the binding runs paired. -/
def evalCores (s : State) (c : Nat) : List Nat :=
  match (getCore s c).bind with
  | some b => if b.paired then [c, partner c] else [c]
  | none => [c]

/-- A core's binding, presentation and delivered result fall away. -/
def dropBind (s : State) (c : Nat) : State :=
  updCore s c (fun k => { k with bind := none, present := none, granted := none })

/-- Tenant and sequence number of a core's binding, 0 and 0 where it has none. -/
def bindTS (s : State) (c : Nat) : Nat × Nat :=
  match (getCore s c).bind with | some b => (b.tenant, b.seq) | none => (0, 0)

/-- An evaluation is abandoned before its APPEND has issued (R27, R596): its input awaits a re-run, counted by the kind of
its abandonment; the fourth by core faults enters HOLD (R597). In a replay run the run's input is abandoned (R540). -/
def abandon (s : State) (c cause reason : Nat) (pair : Bool) : State :=
  match (getCore s c).bind with
  | none => s
  | some b =>
    let f (i : Input) : Input :=
      { i with rerun := true, bound := false, avoid := evalCores s c, abandons := i.abandons + b2n (!pair), pairFaults := i.pairFaults + b2n pair }
    let s1 := bumpSat ((evalCores s c).foldl dropBind s) bHLT 0x50 0 32 1
    let s2 : State := if b.replay then { s1 with rpl.run := s1.rpl.run.map (fun r => { r with cur := r.cur.map f }) }
      else updInput s1 b.tenant b.seq f
    let n := match inputAt s2 b.tenant b.seq with | some i => i.abandons | none => 0
    let s3 := eventD s2 9 kFAULT 0x0C87 [c, b.tenant, b.seq, cause, reason, n] 0
    if !b.replay && !pair && decide (n ≥ 4) then enterHold s3 hREPEAT_FAULT 0 0 else s3

/-- A core fault (R258): counted, and its evaluation abandoned. [log 117 DEDUCED, unsafe] -/
def coreFault (s : State) (c cause reason : Nat) : State :=
  abandon (bumpSat s bHLT 0x40 0 32 1) c cause reason false

/-- The body of a VOID grain (Table 17.3). -/
def voidBody (reason ityp : Nat) : List Byte := be 2 reason ++ be 1 ityp ++ be 1 0

/-- The header of a grain that carries a sequenced input (R421). -/
def inputHdr (i : Input) (typ flags tlen rule : Nat) : Hdr :=
  { stream := i.tenant, typ := typ, kind := 0, flags := flags, tlen := tlen, tai := i.tai, u := i.u, terminal := i.terminal,
    session := i.session, counter := i.counter, book := i.book, lane := i.route.lane, rule := rule, cjn := 0 }

/-- A VOID grain takes the number of an input that cannot be re-run (R40). -/
def voidInput (s : State) (t n reason : Nat) : State :=
  match inputAt s t n with
  | none => s
  | some i =>
    let st := strm s t
    let s1 := updInput s t n (fun i => { i with rerun := false, bound := true })
    let s2 := setStrm s1 t { st with numbered := ins st.numbered n ⟨inputHdr i 3 0 0 0, voidBody reason i.typ⟩ }
    cascade (st.numbered.length + 1) (bumpSat s2 bHLT 0x58 0 32 1) t

/-! ### Core stops (R261, R263, R281, R599) -/

/-- The ACKs that the firmware writes for the IPI_S pending on a stopped core (R281). -/
def ackFor (s : State) (froms : List Nat) : State :=
  froms.foldl (fun a i => updCore a i (fun k => { k with outstanding := k.outstanding - 1 })) s

/-- A rule core is in service. -/
def anyCore (s : State) : Bool := (List.range 0x60).any (inService s)

/-- A core stops: its evaluation is abandoned, it leaves service with its TLB emptied and its IPI_S acknowledged, and the
stop is journaled. A stop of the management cluster enters HOLD MGMT_STOP; the last rule core enters NO_CORES. [log 117 DEDUCED, unsafe] -/
def stopCore (s : State) (c cause reason : Nat) : State :=
  let k := getCore s c
  let mepc := if k.level = 2 then k.pc else k.mepc.val.toNat
  let s1 := bumpSat (coreFault s c cause reason) bHLT 0x48 0 32 1
  let s2 := updCore s1 c (fun k => { k with runs := false, tlb := [], pend := [], ipiFrom := [], tenant := none, stops := s.tim.ticks :: k.stops.take 3 })
  let s3 := ackFor s2 k.ipiFrom
  let s4 := eventD (if c < 0x60 then setService s3 c false else s3) 9 kFAULT 0x0C81 [c, cause, mepc] 0
  if c = 0x60 then enterHold s4 hMGMT_STOP 0 0
  else if anyCore s4 then s4 else enterHold s4 hNO_CORES 0 0

/-! ### Entry (R251 to R254) -/

/-- The level of a cause (Table 9.4); none for SYSCALL and RESTART. -/
def causeLevel (c : Nat) : Option Nat :=
  if c = cTAGTRAP then some 2 else if c = cTLBMISS then some 3 else if c = cACCESS then some 4
  else if c = cBUSERR then some 5 else if c = cSSMISMATCH then some 6 else if c = cMCHECK then some 7
  else if c = cDISPATCH ∨ c = cSTIMER then some 1 else if c = cIPI_S then some 4 else if c = cDEVINT then some 5
  else if c = cIPI_M then some 6 else if c = cMTIMER then some 7 else none

/-- The target level of a cause that arises at a level (R246). -/
def causeTarget (c lvl : Nat) : Nat :=
  if c = cBUSERR ∨ c = cMCHECK ∨ c = cDEVINT ∨ c = cIPI_M ∨ c = cMTIMER then 2
  else if c = cDISPATCH ∨ c = cSTIMER ∨ c = cIPI_S ∨ c = cRESTART then 1
  else if c = cSYSCALL then lvl + 1
  else if lvl = 2 then 2 else 1

/-- The target of a synchronous cause on a core (R246): a TLB miss on an M-space address, ASID 0xFF, always goes to M. -/
def syncTarget (k : Core) (cause : Nat) : Nat := if cause = cTLBMISS ∧ asidOf k = 0xFF then 2 else causeTarget cause k.level

/-- The vector of a cause at a level (R247). -/
def vector (c lvl : Nat) : Nat := (if lvl = 2 then 0x3E0000010000 else 0x1000) + 64 * c

/-- The payload of TINFO (R245). -/
def tinfoOf (t : Trap) : Nat :=
  if t.cause = cSYSCALL then t.reason else t.addr % 2 ^ 48 + t.reason * 2 ^ 48 + t.kind * 2 ^ 56

/-- The stack check of R254 for a target level. -/
def stackOk (k : Core) (lvl : Nat) : Bool :=
  let w := if lvl = 2 then k.mstack else k.sstack
  let a := w.val.toNat
  w.tag == tSTACKPTR && a % 16 == 0 && decide (16 ≤ a) &&
    (match lookup k.tlb (if lvl = 2 then 0xFF else k.asid) (a - 16) with
     | some (_, e) => pteBit e 1 && pteBit e 2 && !pteBit e 4 && pteTyp e == 0
     | none => false)

/-- The entry of R253 to a target level: saved address, status and information; the new status; w30 exchanged with the
stack register; the vector. [log 117 DEDUCED, unsafe] -/
def enterCore (k : Core) (lvl cause ret info : Nat) : Core :=
  let w30 := (k.regs[30]?).getD wZero
  let st := setBits (setBits (setBits k.status 0 2 lvl) 7 1 1) 12 5 0
  let st := match causeLevel cause with | some l => setBits st 4 3 l | none => st
  let k1 :=
    if lvl = 2 then
      { k with mepc := tw tRETADDR ret, mestatus := tw tRAW k.status, mtinfo := tw tRAW info, mstack := w30,
               regs := upd k.regs 30 (fun _ => k.mstack) }
    else
      { k with epc := tw tRETADDR ret, estatus := tw tRAW k.status, tinfo := tw tRAW info, sstack := w30,
               regs := upd k.regs 30 (fun _ => k.sstack) }
  { k1 with status := st, egCount := 0, pc := vector cause lvl, present := none }

/-- The steady-rest record before entry (Table 9.6). -/
def srRecord (k : Core) (cause target esc : Nat) : List TWord :=
  [k.mstack, k.epc, k.estatus, k.tinfo, k.mepc, k.mestatus, k.mtinfo,
   tw tRAW (cause + target * 2 ^ 6 + esc * 2 ^ 8 + ((causeLevel cause).getD 0) * 2 ^ 16 + sat 32 k.srCount * 2 ^ 32)]

/-- Steady-rest entry (R260). `esc` is the escalation reason: 1 LEVEL, 2 STACK, 3 GUARD. [log 117 DEDUCED, unsafe] -/
def srEnter (k : Core) (cause target esc ret info tick : Nat) : Core :=
  let saved := tw tRAW (if esc = 2 then setBits k.status 21 1 1 else k.status)
  let w30 := (k.regs[30]?).getD wZero
  { k with
    srArea := ((srRecord k cause target esc).zipIdx).foldl (fun a p => ins a p.2 p.1) k.srArea
    mepc := tw tRETADDR ret, mestatus := saved, estatus := if target = 1 then saved else k.estatus
    mtinfo := tw tRAW info
    status := setBits (setBits (setBits (setBits (setBits k.status 0 2 2) 4 3 7) 20 1 1) 7 1 0) 12 5 0
    mstack := w30, regs := upd k.regs 30 (fun _ => tw tSTACKPTR 0x3E0000021000)
    pc := 0x3E0000011000, srCount := k.srCount + 1, srTicks := tick :: k.srTicks.take 15, present := none }

/-- An escalated cause: steady-rest entry, a core fault with its event (R258, R262); the firmware stops a core that enters
again before the tenant runtime has left RESTART, or sixteen times within 1 s (R262, R598). [log 117 DEDUCED, unsafe] -/
def escalate (s : State) (c cause reason target esc ret info : Nat) : State :=
  let k := getCore s c
  let ts := bindTS s c
  let s1 := bumpSat (updCore s c (fun k => srEnter k cause target esc ret info s.tim.ticks)) bHLT 0x44 0 32 1
  let s2 := eventD s1 9 kFAULT 0x0C80 [c, cause, esc, ret, ts.1, ts.2] 0
  let s3 := updCore (coreFault s2 c cause reason) c (fun k => { k with restart := true })
  let ticks := (getCore s3 c).srTicks
  let many := decide (ticks.length ≥ 16) && ticks.all (fun t => decide (s.since t ≤ ticksOfS 1))
  if k.restart || many then stopCore s3 c cause reason else s3

/-- The cause is a core fault wherever it is handled (R258). -/
def isCoreFault (t : Trap) : Bool := t.cause == cMCHECK || (t.cause == cBUSERR && (t.reason == 1 || t.reason == 2))

/-- A synchronous cause is raised on core c (R246, R252, R253, R260, R261). `ret` is the saved return address. -/
def raiseAt (s : State) (c : Nat) (t : Trap) (ret : Nat) : State :=
  let s := if t.cause = cSSMISMATCH then bumpSat s bHLT 0x5C 0 32 1 else s
  let k := getCore s c
  let lvl := syncTarget k t.cause
  let low := match causeLevel t.cause with | some l => decide (l ≤ k.mask) | none => false
  if k.sr then stopCore s c t.cause t.reason
  else if low then escalate s c t.cause t.reason lvl 1 ret (tinfoOf t)
  else if k.eg then escalate s c t.cause t.reason lvl 3 ret (tinfoOf t)
  else if stackOk k lvl = false then escalate s c t.cause t.reason lvl 2 ret (tinfoOf t)
  else
    let s1 := updCore s c (fun k => enterCore k lvl t.cause ret (tinfoOf t))
    if isCoreFault t then coreFault s1 c t.cause t.reason else s1

/-- A trap of the instruction at the core's pc. -/
def raiseTrap (s : State) (c : Nat) (t : Trap) : State :=
  let pc := (getCore s c).pc
  raiseAt s c t (if t.next then pc + 4 else pc)

/-- RESTART delivered to a core by the firmware (R348, Table 9.4): its status word is saved, MASK stays. -/
def deliverRestart (s : State) (c : Nat) : State :=
  let k := getCore s c
  if coreAble s c = false ∨ k.sr = true then s
  else if stackOk k 1 = false then escalate s c cRESTART 0 1 2 k.pc 0
  else updCore s c (fun k => enterCore k 1 cRESTART k.pc 0)

/-- RESTART on the partner where core c has lost a paired evaluation to a core fault between two states (R348). -/
def restartPartner (s0 s1 : State) (c : Nat) : State :=
  match (getCore s0 c).bind, (getCore s1 c).bind with
  | some b, none => if b.paired then deliverRestart s1 (partner c) else s1
  | _, _ => s1

/-- A trap of core c as raised, with what it means for its pair partner. -/
def trapCore (s : State) (c : Nat) (t : Trap) : State := restartPartner s (raiseTrap s c t) c

/-! ### Pair faults (R348 to R350) -/

/-- What the device keeps of pair k. -/
def getPairInfo (s : State) (k : Nat) : PairInfo := lkD s.cpu.pairs k ⟨[], [], false⟩

/-- A pair leaves service with its event: 1 a fault, 2 latent divergences. -/
def removePair (s : State) (p kind : Nat) : State :=
  let i := getPairInfo s p
  eventD { setPairService s p false with cpu.pairs := ins s.cpu.pairs p { i with removals := s.tim.ticks :: i.removals.take 3 } }
    9 kOTHER 0x0C85 [p, kind] 0

/-- A pair fault of core c's evaluation, or of a TAKE that a pair presents unbound: kind 1 DIFFER, 2 TIMEOUT, 3 LOG. MCHECK
PAIR on every core of the evaluation; the evaluation is abandoned; a second fault of one number sets cause PAIR and voids
it; DIFFER and TIMEOUT remove the pair. -/
def pairFault (s : State) (c kind pos unit op : Nat) : State :=
  let k := getCore s c
  let cs := match k.bind with | some _ => evalCores s c | none => [c, partner c]
  let ts := match k.bind with | some b => (b.tenant, b.seq) | none => (k.asid / 4, 0)
  let live := match k.bind with | some b => !b.replay | none => false
  let p := c / 2
  let s1 := bumpSat (bumpSat s bHLT 0x4C 0 32 1) (bCLU + c / 8) (0x1D0 + 4 * (p % 4)) 0 32 1
  let s2 := cs.foldl dropBind (abandon s1 c cMCHECK 5 true)
  let s3 := eventD s2 9 kFAULT 0x0C83 [p, ts.1, ts.2, pos, unit, op, kind] 0
  let s4 := if kind = 3 then s3 else removePair s3 p 1
  let again := match inputAt s4 ts.1 ts.2 with | some i => decide (i.pairFaults ≥ 2) | none => false
  let s5 := if again && live then voidInput (setCauseTenant s4 ts.1 cPAIR s4.now 0) ts.1 ts.2 2 else s4
  cs.foldl (fun a d => raiseAt a d (mCheck 5) (getCore a d).pc) s5

end Sys2Proof.Machine
end

