-- ==== Sys2Proof/Machine/Insn.lean ====
section
/-! DEFINITION. One instruction of a core: the encodings of Table 8.2, the fetch, retirement (chapter 8). A row of the
instruction set occurs on a core whose pc holds that instruction; where the pc holds another, nothing happens; where the
fetch meets a condition, or the pc holds an encoding that the tables do not define, the core takes that exception. -/
namespace Sys2Proof.Machine

open Sys2Proof

/-! ### Encodings (Table 8.2) -/

/-- R format. -/
def encR (op : Nat) (f : RF) (func : Nat) : Nat :=
  op * 2 ^ 26 + f.rd.toNat * 2 ^ 21 + f.ra.toNat * 2 ^ 16 + f.rb.toNat * 2 ^ 11 + f.rd2.toNat * 2 ^ 6 + func

/-- I format. -/
def encI (op : Nat) (f : IF) : Nat := op * 2 ^ 26 + f.rd.toNat * 2 ^ 21 + f.ra.toNat * 2 ^ 16 + f.imm.toNat

/-- B format. -/
def encB (op : Nat) (f : BF) : Nat := op * 2 ^ 26 + f.ra.toNat * 2 ^ 21 + f.rb.toNat * 2 ^ 16 + f.off.toNat

/-- J format. -/
def encJ (op : Nat) (off : BitVec 26) : Nat := op * 2 ^ 26 + off.toNat

/-- C format. -/
def encC (f : CF) (unit op : Nat) : Nat :=
  0x38 * 2 ^ 26 + f.rd.toNat * 2 ^ 21 + f.ra.toNat * 2 ^ 16 + f.rb.toNat * 2 ^ 11 + unit * 2 ^ 9 + op

/-- The operations that the units define (Table 13.1). -/
def copOps (unit : Nat) : List Nat :=
  if unit = 0 then [1, 2, 3, 4, 5, 6, 7, 8] else if unit = 1 then [1, 2, 0x10] else if unit = 2 then [1] else [1, 2, 3, 4]

/-- The function codes that an R-format opcode defines (Tables 8.4 to 8.12). -/
def funcCount (op : Nat) : Nat :=
  if op = 0x01 then 6 else if op = 0x04 ∨ op = 0x0C ∨ op = 0x0D ∨ op = 0x30 then 7
  else if op = 0x0E ∨ op = 0x2A then 3 else if op = 0x17 then 2 else if op = 0x18 then 4 else 0

/-- Opcode and function code are defined (R208, R211). [log 108 DEDUCED, unsafe] -/
def definedOp (w : Nat) : Bool :=
  let op := w / 2 ^ 26
  if op = 0x38 then (copOps (bits w 9 2)).contains (bits w 0 9)
  else if funcCount op ≠ 0 then decide (w % 64 < funcCount op)
  else decide ((2 ≤ op ∧ op ≤ 0x0B) ∨ (0x10 ≤ op ∧ op ≤ 0x16) ∨ (0x20 ≤ op ∧ op ≤ 0x29) ∨ (0x31 ≤ op ∧ op ≤ 0x33))

/-! ### Fetch (R206, R207, R250) -/

/-- The instruction at a core's pc. [log 108 DEDUCED, unsafe] -/
def fetch (s : State) (c : Nat) : Acs Nat :=
  let pc := (getCore s c).pc
  (ldWord s c pc kFETCH 64).bind fun s1 y =>
    if y.2.tag = tPOISON then .trap s1 ⟨cBUSERR, 2, pc, kFETCH, false⟩
    else if y.2.tag ≠ tCODE then .trap s1 ⟨cACCESS, aNOTCODE, pc, kFETCH, false⟩
    else .ok s1 (if pc % 8 = 0 then y.2.val.toNat % 2 ^ 32 else y.2.val.toNat / 2 ^ 32)

/-! ### Retirement (R210, R255) -/

/-- UICNT raised by one. -/
def countU (k : Core) : Core := { k with uicnt := ⟨k.uicnt.tag, k.uicnt.val + 1⟩ }

/-- An instruction that began at a level retires and the core continues at an address. -/
def retire (s : State) (c lvl pc : Nat) : State :=
  updCore s c (fun k =>
    let k1 := if lvl = 0 then countU k else k
    let k2 := if k1.eg then
        (if k1.egCount + 1 ≥ 16 then { k1 with status := setBits k1.status 7 1 0, egCount := 0 }
         else { k1 with egCount := k1.egCount + 1 })
      else { k1 with egCount := 0 }
    { k2 with pc := pc % 2 ^ 48, lastRet := s.tim.ticks })

/-- The end of an instruction that began in a state. -/
def endInsn (s0 : State) (c : Nat) (r : IRes) : State :=
  let pc := (getCore s0 c).pc
  let lvl := lvlOf s0 c
  match r with
  | .done s => retire s c lvl (pc + 4)
  | .goto s a => retire s c lvl a
  | .stay s => s
  | .trap s t => trapCore s c t

/-- An instruction row on core c: the encoding that the pc must hold, and the instruction's body. [log 108 DEDUCED, unsafe] -/
def runInsn (c enc : Nat) (body : State → IRes) (s : State) : Host.Outcome State Fault Refusal :=
  if coreAble s c = false then .next s
  else match fetch s c with
    | .trap s1 t => .next (trapCore s1 c t)
    | .ok s1 w =>
      if definedOp w = false then .next (trapCore s1 c (accFault aILLEGAL))
      else if w ≠ enc then .next s
      else .next (endInsn s1 c (body s1))

/-! ### Checks of a body, in the order of R250 -/

/-- The first condition that holds, else the rest. -/
def chk (s : State) (l : List (Bool × Trap)) (f : IRes) : IRes :=
  match firstTrap l with
  | some t => .trap s t
  | none => f

/-- The encoding is ILLEGAL where a condition holds. -/
def ill (b : Bool) : Bool × Trap := (b, accFault aILLEGAL)

/-- PRIV_INSN where a condition holds. -/
def prv (b : Bool) : Bool × Trap := (b, accFault aPRIV_INSN)

/-- A tag trap where a condition holds. -/
def tagIf (b : Bool) (r : Nat) : Bool × Trap := (b, tagTrap r)

/-- BOUNDS where a condition holds. -/
def bnd (b : Bool) : Bool × Trap := (b, accFault aBOUNDS)

/-- Operands consumed (R184 to R186), then the rest. [log 112 DEDUCED, unsafe] -/
def consume (s : State) (ws : List TWord) (f : IRes) : IRes :=
  match consumeTrap ws with
  | some t => .trap s t
  | none => f

end Sys2Proof.Machine

namespace Sys2Proof

/-- The register fields of an R-format instruction as numbers. -/
def RF.d (f : RF) : Nat := f.rd.toNat
def RF.a (f : RF) : Nat := f.ra.toNat
def RF.b (f : RF) : Nat := f.rb.toNat
def RF.e (f : RF) : Nat := f.rd2.toNat

end Sys2Proof
end

