-- ==== Sys2Proof/Machine/Number.lean ====
section
/-! DEFINITION. Numbers in memory and allocation: reading BIGNUM and RATIO objects with the canonical-form check, and
delivering results with the objects they allocate (R178 to R180, R195 to R197). -/
namespace Sys2Proof.Machine

open Sys2Proof

/-! ### Objects -/

/-- The address of word i of an object, its header being word 0. -/
def slotAt (a i : Nat) : Nat := a + 8 * i

/-- Word i of an object, read for an operation that consumes it. -/
def objWord (s : State) (c a i : Nat) : Acs TWord :=
  (addrChk s (slotAt a i) kLOAD).bind fun s0 va =>
  (ldWord s0 c va kLOAD 64).bind fun s1 y =>
    if y.2.tag = tPOISON then .trap s1 (poisonTrap kLOAD va) else .ok s1 y.2

/-- Words of an object. -/
def objWords (s : State) (c a : Nat) (is : List Nat) : Acs (List TWord) := Acs.each (fun s i => objWord s c a i) is s

/-- The header of the object at a pointer, checked for its kind: another word there is no object of the tag (TYPE). -/
def objHeader (s : State) (c : Nat) (w : TWord) : Acs (Nat × Nat) :=
  (ptrChk s w.val kLOAD).bind fun s0 a =>
  (objWord s0 c a 0).bind fun s1 h =>
    if h.tag = tHEADER ∧ hdrKind h = w.tag.toNat then .ok s1 (a, hdrLen h) else .trap s1 (tagTrap rTYPE)

/-! ### Reading numbers (R180) -/

/-- A rational operand n / d with the limbs of each; an integer has d = 1 (R197). -/
structure Rn where
  n : Int
  d : Nat
  ln : Nat
  ld : Nat
deriving DecidableEq, Repr

/-- An integer operand: INT, or a BIGNUM in canonical form, with its limbs. -/
def readInt (s : State) (c : Nat) (w : TWord) : Acs (Int × Nat) :=
  if w.tag = tINT then .ok s (w.val.toInt, 1)
  else if w.tag = tBIGNUM then
    (objHeader s c w).bind fun s1 h =>
      if h.2 < 2 ∨ h.2 > 1024 then .trap s1 (tagTrap rTYPE)
      else (objWords s1 c h.1 ((List.range h.2).map (· + 1))).bind fun s2 ws =>
        let v := ofLimbs ws
        if ws.all (fun x => x.tag == tRAW) && limbsOf v == h.2 then .ok s2 (v, h.2) else .trap s2 (tagTrap rTYPE)
  else .trap s (tagTrap rTYPE)

/-- A rational operand: integer, or a RATIO in canonical form. -/
def readNum (s : State) (c : Nat) (w : TWord) : Acs Rn :=
  if w.tag = tRATIO then
    (objHeader s c w).bind fun s1 h =>
      if h.2 ≠ 2 then .trap s1 (tagTrap rTYPE)
      else (objWord s1 c h.1 1).bind fun s2 p => (objWord s2 c h.1 2).bind fun s3 q =>
        (readInt s3 c p).bind fun s4 n => (readInt s4 c q).bind fun s5 d =>
          if d.1 > 1 ∧ Nat.gcd n.1.natAbs d.1.natAbs = 1 then .ok s5 ⟨n.1, d.1.toNat, n.2, d.2⟩
          else .trap s5 (tagTrap rTYPE)
  else (readInt s c w).bind fun s1 n => .ok s1 ⟨n.1, 1, n.2, 1⟩

/-- The tag is INT or BIGNUM. -/
def isInteger (w : TWord) : Bool := w.tag == tINT || w.tag == tBIGNUM

/-- The tag is INT, BIGNUM or RATIO. -/
def isRational (w : TWord) : Bool := isInteger w || w.tag == tRATIO

/-! ### Allocation (R179, R196, R197) -/

/-- An object to allocate: its kind, none for a list cell, and its body. -/
structure NewObj where
  kind : Option Nat
  body : List TWord
deriving DecidableEq, Repr

/-- Bytes of an object. -/
def NewObj.size (o : NewObj) : Nat := 8 * (o.body.length + b2n o.kind.isSome)

/-- Bytes of several objects. -/
def objsSize (l : List NewObj) : Nat := l.foldl (fun a o => a + o.size) 0

/-- The words that objects put in memory from an address on, identity numbers taken in order. -/
def objStores : Nat → Nat → List NewObj → List (Nat × TWord)
  | _, _, [] => []
  | a, id, o :: l =>
    let ws := match o.kind with
      | some k => header k o.body.length id :: o.body
      | none => o.body
    (ws.zipIdx).map (fun p => (a + 8 * p.2, p.1)) ++ objStores (a + o.size) (id + b2n o.kind.isSome) l

/-- The identity counter admits n more numbers (R179): its trap where it does not. -/
def idTrap (s : State) (c n : Nat) : Option Trap :=
  let w := (getCore s c).idctr
  if n = 0 then none
  else if w.tag ≠ tINT then some (tagTrap rTYPE)
  else if w.val.toNat + n > 2 ^ 40 then some (tagTrap rOVERFLOW)
  else none

/-- Stores of several words without barrier, all checked before any is performed. -/
def plainWords (s : State) (c : Nat) (l : List (Nat × TWord)) : Acs Unit :=
  (Acs.each (fun s (p : Nat × TWord) => (xlate s c p.1 kSTORE).bind fun s1 x => .ok s1 (x, p.2)) l s).bind fun s1 ys => wrAll s1 c ys

/-- Results written to their registers. -/
def putRegs (s : State) (c : Nat) (dests : List (Nat × TWord)) : State := dests.foldl (fun a p => putReg a c p.1 p.2) s

/-- Objects are allocated at ALLOC after the reservation has been judged, results delivered, ALLOC advanced by what is
used. `barrier` says whether the stores carry the write barrier (R283). [log 113 DEDUCED, unsafe] -/
def allocDeliver (s : State) (c reserve : Nat) (barrier : Bool) (objs : List NewObj) (dests : List (Nat × TWord)) : IRes :=
  let k := getCore s c
  let w := reg s c 31
  let ids := (objs.filter (fun o => o.kind.isSome)).length
  let size := objsSize objs
  if dests.any (fun p => destBad s c p.1 p.2) then .trap s (tagTrap rTYPE)
  else if reserve > 0 ∧ w.val.toNat + reserve > k.alimit.val.toNat then .trap s (tagTrap rALLOC)
  else match idTrap s c ids with
    | some t => .trap s t
    | none =>
      if size = 0 then .done (putRegs s c dests)
      else (ptrChk s w.val kSTORE).fin fun s0 a =>
        let l := objStores a k.idctr.val.toNat objs
        (if barrier then stWords s0 c l else plainWords s0 c l).fin fun s1 _ =>
          let s2 := updCore s1 c (fun k => { k with idctr := ⟨k.idctr.tag, k.idctr.val + BitVec.ofNat 64 ids⟩ })
          let s3 := putRegs s2 c dests
          let al := reg s3 c 31
          .done (putReg s3 c 31 ⟨al.tag, al.val + BitVec.ofNat 64 size⟩)

/-! ### Numeric results -/

/-- The word of an integer whose object, if it needs one, stands at an address; the objects; the address after them. -/
def intPlan (a : Nat) (n : Int) : TWord × List NewObj × Nat :=
  if in64 n then (wInt n, [], a)
  else
    let o : NewObj := ⟨some 0x13, limbWords n⟩
    (tw tBIGNUM a, [o], a + o.size)

/-- The word of a rational n / d in lowest terms, numerator then denominator then ratio object (R197). -/
def ratPlan (a : Nat) (n : Int) (d : Nat) : TWord × List NewObj :=
  if d = 1 then ((intPlan a n).1, (intPlan a n).2.1)
  else
    let p := intPlan a n
    let q := intPlan p.2.2 d
    (tw tRATIO q.2.2, p.2.1 ++ q.2.1 ++ [⟨some 0x19, [p.1, q.1]⟩])

/-- A rational n / d in lowest terms with a positive denominator. -/
def lowest (n d : Int) : Int × Nat :=
  let g := Nat.gcd n.natAbs d.natAbs
  let m := if d < 0 then -n else n
  (m / (g : Int), d.natAbs / g)

/-- A numeric result n / d (d not 0) with its reservation: canonical, OVERFLOW above 1,024 limbs. -/
def deliverNum (s : State) (c rd : Nat) (n d : Int) (reserve : Nat) : IRes :=
  let q := lowest n d
  if reserve > 0 ∧ (reg s c 31).val.toNat + reserve > (getCore s c).alimit.val.toNat then .trap s (tagTrap rALLOC)
  else if limbsOf q.1 > 1024 ∨ limbsOf q.2 > 1024 then .trap s (tagTrap rOVERFLOW)
  else
    let p := ratPlan (reg s c 31).val.toNat q.1 q.2
    allocDeliver s c reserve false p.2 [(rd, p.1)]

/-- Reservations of R197: sums and products of two rationals, by whether a RATIO takes part. -/
def sumReserve (x y : Rn) : Nat :=
  if x.d = 1 ∧ y.d = 1 then 8 * (max x.ln y.ln + 2)
  else 8 * (max (x.ln + y.ld) (y.ln + x.ld) + 2) + 8 * (x.ld + y.ld + 1) + 24

def mulReserve (x y : Rn) : Nat :=
  if x.d = 1 ∧ y.d = 1 then 8 * (x.ln + y.ln + 1)
  else 8 * (x.ln + y.ln + 1) + 8 * (x.ld + y.ld + 1) + 24

def divReserve (x y : Rn) : Nat := 8 * (x.ln + y.ld + 1) + 8 * (x.ld + y.ln + 1) + 24

end Sys2Proof.Machine
end

