-- ==== Sys2Proof/Machine/Arith.lean ====
section
/-! DEFINITION. Arithmetic, logic and tag instructions: GEN, BIT, MISC and the immediate forms (R187 to R194, R212 to
R217). -/
namespace Sys2Proof.Machine

open Sys2Proof

/-! ### Generic arithmetic -/

/-- The signed number of a word's payload. -/
def sval (w : TWord) : Int := w.val.toInt

/-- A MONEY result, OVERFLOW out of range (R193). -/
def deliverMoney (s : State) (c rd : Nat) (n : Int) : IRes :=
  if in64 n then deliver s c rd (wMoney n) else .trap s (tagTrap rOVERFLOW)

/-- A TIME result, OVERFLOW outside 0 to 2^63 − 1. -/
def deliverTime (s : State) (c rd : Nat) (n : Int) : IRes :=
  if 0 ≤ n ∧ n < 2 ^ 63 then deliver s c rd ⟨tTIME, BitVec.ofInt 64 n⟩ else .trap s (tagTrap rOVERFLOW)

/-- ADD, and SUB where `neg` (Table 7.5). -/
def genSum (s : State) (c rd : Nat) (x y : TWord) (neg : Bool) : IRes :=
  let sg : Int := if neg then -1 else 1
  consume s [x, y] <|
  if x.tag = tINT ∧ y.tag = tINT then
    let r := sval x + sg * sval y
    if in64 r then deliver s c rd (wInt r) else deliverNum s c rd r 1 24
  else if isRational x && isRational y then
    (readNum s c x).fin fun s1 a => (readNum s1 c y).fin fun s2 b =>
      deliverNum s2 c rd (a.n * b.d + sg * (b.n * a.d)) (a.d * b.d) (sumReserve a b)
  else if x.tag = tMONEY ∧ y.tag = tMONEY then deliverMoney s c rd (sval x + sg * sval y)
  else if x.tag = tTIME ∧ y.tag = tINT then deliverTime s c rd (sval x + sg * sval y)
  else if x.tag = tINT ∧ y.tag = tTIME ∧ neg = false then deliverTime s c rd (sval x + sval y)
  else if x.tag = tTIME ∧ y.tag = tTIME ∧ neg = true then deliver s c rd (wInt (sval x - sval y))
  else .trap s (tagTrap rTYPE)

/-- MUL of MONEY m by an integer. -/
def moneyByInt (s : State) (c rd : Nat) (m y : TWord) : IRes :=
  (readInt s c y).fin fun s1 n => deliverMoney s1 c rd (sval m * n.1)

/-- MUL of MONEY m by a RATIO: quotient to rd, breakage numerator to rd2 (R194). -/
def moneyByRatio (s : State) (c rd rd2 : Nat) (m y : TWord) : IRes :=
  (readNum s c y).fin fun s1 r =>
    let p := sval m * r.n
    let q := Int.tdiv p r.d
    let n := p - r.d * q
    let reserve := 8 * (r.ld + 1)
    if (reg s1 c 31).val.toNat + reserve > (getCore s1 c).alimit.val.toNat then .trap s1 (tagTrap rALLOC)
    else if in64 q = false then .trap s1 (tagTrap rOVERFLOW)
    else
      let b := intPlan (reg s1 c 31).val.toNat n
      allocDeliver s1 c reserve false b.2.1 [(rd, wMoney q), (rd2, b.1)]

/-- MUL (Table 7.6). -/
def genMul (s : State) (c rd rd2 : Nat) (x y : TWord) : IRes :=
  consume s [x, y] <|
  if x.tag = tINT ∧ y.tag = tINT then
    let r := sval x * sval y
    if in64 r then deliver s c rd (wInt r) else deliverNum s c rd r 1 24
  else if isRational x && isRational y then
    (readNum s c x).fin fun s1 a => (readNum s1 c y).fin fun s2 b =>
      deliverNum s2 c rd (a.n * b.n) (a.d * b.d) (mulReserve a b)
  else if x.tag = tMONEY ∧ isInteger y = true then moneyByInt s c rd x y
  else if y.tag = tMONEY ∧ isInteger x = true then moneyByInt s c rd y x
  else if x.tag = tMONEY ∧ y.tag = tRATIO then moneyByRatio s c rd rd2 x y
  else if y.tag = tMONEY ∧ x.tag = tRATIO then moneyByRatio s c rd rd2 y x
  else .trap s (tagTrap rTYPE)

/-- DIV (Table 7.6). -/
def genDiv (s : State) (c rd : Nat) (x y : TWord) : IRes :=
  consume s [x, y] <|
  if isRational x && isRational y then
    (readNum s c x).fin fun s1 a => (readNum s1 c y).fin fun s2 b =>
      if b.n = 0 then .trap s2 (tagTrap rDIVZERO)
      else deliverNum s2 c rd (a.n * b.d) (a.d * b.n) (divReserve a b)
  else .trap s (tagTrap rTYPE)

/-- MDIVI (Table 7.7): truncating quotient to rd, remainder to rd2. -/
def genMdivi (s : State) (c rd rd2 : Nat) (x y : TWord) : IRes :=
  consume s [x, y] <|
  let mi := x.tag == tMONEY && y.tag == tINT
  let mm := x.tag == tMONEY && y.tag == tMONEY
  let ii := x.tag == tINT && y.tag == tINT
  if (mi || mm || ii) = false then .trap s (tagTrap rTYPE)
  else if sval y = 0 then .trap s (tagTrap rDIVZERO)
  else
    let q := Int.tdiv (sval x) (sval y)
    let r := Int.tmod (sval x) (sval y)
    let rw := if ii then wInt r else wMoney r
    if mi then
      if in64 q then allocDeliver s c 0 false [] [(rd, wMoney q), (rd2, rw)] else .trap s (tagTrap rOVERFLOW)
    else
      let p := intPlan (reg s c 31).val.toNat q
      allocDeliver s c 24 false p.2.1 [(rd, p.1), (rd2, rw)]

/-- −1, 0 or +1 (R190). -/
def ordInt (a b : Int) : Int := if a < b then -1 else if a = b then 0 else 1

/-- CMP (Table 7.8). -/
def genCmp (s : State) (c rd : Nat) (x y : TWord) : IRes :=
  consume s [x, y] <|
  if isRational x && isRational y then
    (readNum s c x).fin fun s1 a => (readNum s1 c y).fin fun s2 b =>
      deliver s2 c rd (wInt (ordInt (a.n * b.d) (b.n * a.d)))
  else if x.tag = y.tag ∧ (x.tag = tMONEY ∨ x.tag = tTIME) then deliver s c rd (wInt (ordInt (sval x) (sval y)))
  else if x.tag = y.tag ∧ (x.tag = tCHAR ∨ x.tag = tBOOL ∨ x.tag = tSYMBOL ∨ x.tag = tNIL) then
    deliver s c rd (wInt (ordInt x.val.toNat y.val.toNat))
  else .trap s (tagTrap rTYPE)

/-- ADD (R187, R212). -/
def execAdd (core : Nat) (f : RF) : State → Host.Outcome State Fault Refusal :=
  runInsn core (encR 0x01 f 0) fun s => chk s [ill (f.e ≠ 0)] (genSum s core f.d (reg s core f.a) (reg s core f.b) false)

/-- SUB. -/
def execSub (core : Nat) (f : RF) : State → Host.Outcome State Fault Refusal :=
  runInsn core (encR 0x01 f 1) fun s => chk s [ill (f.e ≠ 0)] (genSum s core f.d (reg s core f.a) (reg s core f.b) true)

/-- MUL; rd2 equal to rd is ILLEGAL. -/
def execMul (core : Nat) (f : RF) : State → Host.Outcome State Fault Refusal :=
  runInsn core (encR 0x01 f 2) fun s => chk s [ill (f.e = f.d)] (genMul s core f.d f.e (reg s core f.a) (reg s core f.b))

/-- DIV. -/
def execDiv (core : Nat) (f : RF) : State → Host.Outcome State Fault Refusal :=
  runInsn core (encR 0x01 f 3) fun s => chk s [ill (f.e ≠ 0)] (genDiv s core f.d (reg s core f.a) (reg s core f.b))

/-- MDIVI; rd2 equal to rd is ILLEGAL. -/
def execMdivi (core : Nat) (f : RF) : State → Host.Outcome State Fault Refusal :=
  runInsn core (encR 0x01 f 4) fun s => chk s [ill (f.e = f.d)] (genMdivi s core f.d f.e (reg s core f.a) (reg s core f.b))

/-- CMP. -/
def execCmp (core : Nat) (f : RF) : State → Host.Outcome State Fault Refusal :=
  runInsn core (encR 0x01 f 5) fun s => chk s [ill (f.e ≠ 0)] (genCmp s core f.d (reg s core f.a) (reg s core f.b))

/-! ### Bits (R213) -/

/-- INT with INT gives INT, RAW with RAW gives RAW; else TYPE. -/
def bitOp (s : State) (c rd : Nat) (x y : TWord) (op : BitVec 64 → BitVec 64 → BitVec 64) : IRes :=
  consume s [x, y] <|
  if x.tag = y.tag ∧ (x.tag = tINT ∨ x.tag = tRAW) then deliver s c rd ⟨x.tag, op x.val y.val⟩
  else .trap s (tagTrap rTYPE)

/-- A shift, which also takes RAW with an INT amount. -/
def shiftOp (s : State) (c rd : Nat) (x y : TWord) (op : BitVec 64 → Nat → BitVec 64) : IRes :=
  consume s [x, y] <|
  if (x.tag = y.tag ∧ (x.tag = tINT ∨ x.tag = tRAW)) ∨ (x.tag = tRAW ∧ y.tag = tINT) then
    deliver s c rd ⟨x.tag, op x.val (y.val.toNat % 64)⟩
  else .trap s (tagTrap rTYPE)

/-- A BIT instruction: rd2 must be zero. -/
def bitInsn (core : Nat) (f : RF) (func : Nat) (op : BitVec 64 → BitVec 64 → BitVec 64) :
    State → Host.Outcome State Fault Refusal :=
  runInsn core (encR 0x04 f func) fun s => chk s [ill (f.e ≠ 0)] (bitOp s core f.d (reg s core f.a) (reg s core f.b) op)

/-- A BIT shift: rd2 must be zero. -/
def shiftInsn (core : Nat) (f : RF) (func : Nat) (op : BitVec 64 → Nat → BitVec 64) :
    State → Host.Outcome State Fault Refusal :=
  runInsn core (encR 0x04 f func) fun s => chk s [ill (f.e ≠ 0)] (shiftOp s core f.d (reg s core f.a) (reg s core f.b) op)

/-- AND. -/
def execAnd (core : Nat) (f : RF) : State → Host.Outcome State Fault Refusal := bitInsn core f 0 (· &&& ·)

/-- OR. -/
def execOr (core : Nat) (f : RF) : State → Host.Outcome State Fault Refusal := bitInsn core f 1 (· ||| ·)

/-- XOR. -/
def execXor (core : Nat) (f : RF) : State → Host.Outcome State Fault Refusal := bitInsn core f 2 (· ^^^ ·)

/-- ANDN. -/
def execAndn (core : Nat) (f : RF) : State → Host.Outcome State Fault Refusal := bitInsn core f 3 (fun a b => a &&& ~~~b)

/-- SLL. -/
def execSll (core : Nat) (f : RF) : State → Host.Outcome State Fault Refusal := shiftInsn core f 4 (fun a n => a <<< n)

/-- SRL. -/
def execSrl (core : Nat) (f : RF) : State → Host.Outcome State Fault Refusal := shiftInsn core f 5 (fun a n => a >>> n)

/-- SRA. -/
def execSra (core : Nat) (f : RF) : State → Host.Outcome State Fault Refusal := shiftInsn core f 6 (fun a n => a.sshiftRight n)

/-! ### MISC (R217) -/

/-- MOV carries any word. -/
def execMov (core : Nat) (f : RF) : State → Host.Outcome State Fault Refusal :=
  runInsn core (encR 0x0E f 0) fun s => chk s [ill (f.b ≠ 0 ∨ f.e ≠ 0)] (deliver s core f.d (reg s core f.a))

/-- TAG. -/
def execTag (core : Nat) (f : RF) : State → Host.Outcome State Fault Refusal :=
  runInsn core (encR 0x0E f 1) fun s => chk s [ill (f.b ≠ 0 ∨ f.e ≠ 0)] (deliver s core f.d (wInt (reg s core f.a).tag.toNat))

/-- NOP: every register field zero. -/
def execNop (core : Nat) (f : RF) : State → Host.Outcome State Fault Refusal :=
  runInsn core (encR 0x0E f 2) fun s => chk s [ill (f.d ≠ 0 ∨ f.a ≠ 0 ∨ f.b ≠ 0 ∨ f.e ≠ 0)] (.done s)

/-! ### Immediate forms (R214 to R217) -/

/-- The sign-extended immediate. -/
def simm (f : IF) : Int := f.imm.toInt

/-- The zero-extended immediate. -/
def uimm (f : IF) : Nat := f.imm.toNat

/-- ADDI. -/
def execAddi (core : Nat) (f : IF) : State → Host.Outcome State Fault Refusal :=
  runInsn core (encI 0x02 f) fun s => genSum s core f.rd.toNat (reg s core f.ra.toNat) (wInt (simm f)) false

/-- CMPI. -/
def execCmpi (core : Nat) (f : IF) : State → Host.Outcome State Fault Refusal :=
  runInsn core (encI 0x03 f) fun s => genCmp s core f.rd.toNat (reg s core f.ra.toNat) (wInt (simm f))

/-- ANDI: the immediate takes the tag of ra, which must be INT or RAW. -/
def execAndi (core : Nat) (f : IF) : State → Host.Outcome State Fault Refusal :=
  runInsn core (encI 0x05 f) fun s =>
    let x := reg s core f.ra.toNat
    bitOp s core f.rd.toNat x (tw x.tag (uimm f)) (· &&& ·)

/-- ORI. -/
def execOri (core : Nat) (f : IF) : State → Host.Outcome State Fault Refusal :=
  runInsn core (encI 0x06 f) fun s =>
    let x := reg s core f.ra.toNat
    bitOp s core f.rd.toNat x (tw x.tag (uimm f)) (· ||| ·)

/-- SHI: amount imm[5:0], kind imm[7:6]. -/
def execShi (core : Nat) (f : IF) : State → Host.Outcome State Fault Refusal :=
  runInsn core (encI 0x07 f) fun s =>
    let kind := bits (uimm f) 6 2
    chk s [ill (kind = 3 ∨ uimm f ≥ 256)]
      (shiftOp s core f.rd.toNat (reg s core f.ra.toNat) (wInt (bits (uimm f) 0 6))
        (fun a n => if kind = 0 then a <<< n else if kind = 1 then a >>> n else a.sshiftRight n))

/-- LI. -/
def execLi (core : Nat) (f : IF) : State → Host.Outcome State Fault Refusal :=
  runInsn core (encI 0x08 f) fun s => chk s [ill (f.ra ≠ 0)] (deliver s core f.rd.toNat (wInt (simm f)))

/-- LIX: rd must hold an INT. -/
def execLix (core : Nat) (f : IF) : State → Host.Outcome State Fault Refusal :=
  runInsn core (encI 0x09 f) fun s =>
    let x := reg s core f.rd.toNat
    chk s [ill (f.ra ≠ 0)] <| consume s [x] <|
      if x.tag = tINT then deliver s core f.rd.toNat ⟨tINT, (x.val <<< 16) ||| BitVec.ofNat 64 (uimm f)⟩
      else .trap s (tagTrap rTYPE)

/-- Tags whose words no operation at U turns into another tag (R182). -/
def sealedTags : List (BitVec 8) :=
  [tCONS, tVECTOR, tSTRING, tBIGNUM, tRECORD, tCLOSURE, tRATIO, tFORWARD, tSAVELINK, tSTACKPTR, tRETADDR, tCODE]

/-- RETAG (R216). -/
def execRetag (core : Nat) (f : IF) : State → Host.Outcome State Fault Refusal :=
  runInsn core (encI 0x0A f) fun s =>
    let x := reg s core f.ra.toNat
    let t := BitVec.ofNat 8 (uimm f)
    let k := getCore s core
    chk s [ill (uimm f ≥ 256)] <| consume s [x] <|
      chk s [tagIf (!allTags.contains t) rRESERVED,
             tagIf (!retagOk k.level t (x.val.toNat / 2 ^ 56 == k.asid / 4) || (k.level == 0 && sealedTags.contains x.tag)) rPRIV,
             tagIf (!payloadOk t x.val) rTYPE]
        (deliver s core f.rd.toNat ⟨t, x.val⟩)

/-- The answer of TYPEP for a selector (R191); none where the selector is neither a tag nor a class. -/
def typepOf (sel : Nat) (t : BitVec 8) : Option Bool :=
  if sel = 0xE0 then some (t == tINT || t == tBIGNUM || t == tRATIO)
  else if sel = 0xE1 then some (t == tINT || t == tBIGNUM)
  else if sel = 0xE2 then some (heapTags.contains t)
  else if sel = 0xE3 then some (t == tCONS || t == tNIL)
  else if sel = 0xE4 then some (decide (t.toNat ≤ 7))
  else if allTags.contains (BitVec.ofNat 8 sel) then some (t == BitVec.ofNat 8 sel)
  else none

/-- TYPEP. -/
def execTypep (core : Nat) (f : IF) : State → Host.Outcome State Fault Refusal :=
  runInsn core (encI 0x0B f) fun s =>
    chk s [ill (uimm f ≥ 256)] <|
      match typepOf (uimm f) (reg s core f.ra.toNat).tag with
      | some b => deliver s core f.rd.toNat (wBool b)
      | none => .trap s (tagTrap rTYPE)

end Sys2Proof.Machine
end

