-- ==== Sys2Proof/Machine/Lists.lean ====
section
/-! DEFINITION. List and object instructions: LIST and OBJ (R198, R199, R222, R223). -/
namespace Sys2Proof.Machine

open Sys2Proof

/-! ### LIST -/

/-- CAR (i = 0) and CDR (i = 1) of a word into rd (Table 7.10). -/
def cellRead (s : State) (c rd : Nat) (x : TWord) (i : Nat) : IRes :=
  consume s [x] <|
  if x.tag = tNIL then deliver s c rd wNil
  else if x.tag = tCONS then
    (ptrChk s x.val kLOAD).fin fun s0 a => (addrChk s0 (slotAt a i) kLOAD).fin fun s1 va =>
      (loadSlot s1 c rd va 64).fin fun s2 w => deliver s2 c rd w
  else .trap s (tagTrap rTYPE)

/-- SETCAR and SETCDR: the stored word is carried. -/
def cellWrite (s : State) (c : Nat) (x v : TWord) (i : Nat) : IRes :=
  consume s [x] <|
  if x.tag = tCONS then
    (ptrChk s x.val kSTORE).fin fun s0 a => (addrChk s0 (slotAt a i) kSTORE).fin fun s1 va =>
      (stWord s1 c va v 64).fin fun s2 _ => .done s2
  else .trap s (tagTrap rTYPE)

/-- CAR. -/
def execCar (core : Nat) (f : RF) : State → Host.Outcome State Fault Refusal :=
  runInsn core (encR 0x0C f 0) fun s => chk s [ill (f.b ≠ 0 ∨ f.e ≠ 0)] (cellRead s core f.d (reg s core f.a) 0)

/-- CDR. -/
def execCdr (core : Nat) (f : RF) : State → Host.Outcome State Fault Refusal :=
  runInsn core (encR 0x0C f 1) fun s => chk s [ill (f.b ≠ 0 ∨ f.e ≠ 0)] (cellRead s core f.d (reg s core f.a) 1)

/-- CONS: both operands are consumed; a cell of 16 bytes. -/
def execCons (core : Nat) (f : RF) : State → Host.Outcome State Fault Refusal :=
  runInsn core (encR 0x0C f 2) fun s =>
    let x := reg s core f.a
    let y := reg s core f.b
    chk s [ill (f.e ≠ 0)] <| consume s [x, y] <|
      allocDeliver s core 16 true [⟨none, [x, y]⟩] [(f.d, ⟨tCONS, (reg s core 31).val⟩)]

/-- SETCAR. -/
def execSetcar (core : Nat) (f : RF) : State → Host.Outcome State Fault Refusal :=
  runInsn core (encR 0x0C f 3) fun s =>
    chk s [ill (f.d ≠ 0 ∨ f.e ≠ 0)] (cellWrite s core (reg s core f.a) (reg s core f.b) 0)

/-- SETCDR. -/
def execSetcdr (core : Nat) (f : RF) : State → Host.Outcome State Fault Refusal :=
  runInsn core (encR 0x0C f 4) fun s =>
    chk s [ill (f.d ≠ 0 ∨ f.e ≠ 0)] (cellWrite s core (reg s core f.a) (reg s core f.b) 1)

/-- The cells of a list from a word, up to a limit (R199); each cdr is read under the read barrier. [log 113 DEDUCED, unsafe] -/
def lenCells : Nat → State → Nat → TWord → Nat → Acs Nat
  | fuel, s, c, w, n =>
    if w.tag = tNIL then .ok s n
    else if w.tag = tPOISON then .trap s (poisonTrap 0 0)
    else if w.tag ≠ tCONS then .trap s (tagTrap rTYPE)
    else match fuel with
      | 0 => .trap s (tagTrap rLIMIT)
      | k + 1 =>
        (ptrChk s w.val kLOAD).bind fun s0 a => (addrChk s0 (slotAt a 1) kLOAD).bind fun s1 va =>
        (ldWord s1 c va kLOAD 64).bind fun s2 y => (barrierLoad s2 c y.1 y.2).bind fun s3 v => lenCells k s3 c v (n + 1)

/-- A STRING's address and byte length (Table 7.2). -/
def strLen (s : State) (c : Nat) (w : TWord) : Acs (Nat × Nat) :=
  (objHeader s c w).bind fun s1 h => (objWord s1 c h.1 1).bind fun s2 l =>
    if h.2 ≥ 1 ∧ l.tag = tINT ∧ l.val.toNat ≤ 8 * (h.2 - 1) then .ok s2 (h.1, l.val.toNat) else .trap s2 (tagTrap rTYPE)

/-- LEN. -/
def execLen (core : Nat) (f : RF) : State → Host.Outcome State Fault Refusal :=
  runInsn core (encR 0x0C f 5) fun s =>
    let x := reg s core f.a
    chk s [ill (f.b ≠ 0 ∨ f.e ≠ 0)] <| consume s [x] <|
      if x.tag = tNIL ∨ x.tag = tCONS then (lenCells 16777216 s core x 0).fin fun s1 n => deliver s1 core f.d (wInt n)
      else if x.tag = tVECTOR then (objHeader s core x).fin fun s1 h => deliver s1 core f.d (wInt h.2)
      else if x.tag = tSTRING then (strLen s core x).fin fun s1 h => deliver s1 core f.d (wInt h.2)
      else .trap s (tagTrap rTYPE)

/-- IDHASH: the identity number of an object that has a header. -/
def execIdhash (core : Nat) (f : RF) : State → Host.Outcome State Fault Refusal :=
  runInsn core (encR 0x0C f 6) fun s =>
    let x := reg s core f.a
    chk s [ill (f.b ≠ 0 ∨ f.e ≠ 0)] <| consume s [x] <|
      if isHeap x && x.tag != tCONS then
        (objHeader s core x).fin fun s1 h => (objWord s1 core h.1 0).fin fun s2 w => deliver s2 core f.d (wInt (hdrIdent w))
      else .trap s (tagTrap rTYPE)

/-! ### OBJ -/

/-- The objects that VREF and VSET accept at a level. -/
def indexable (lvl : Nat) (t : BitVec 8) : Bool := t == tVECTOR || t == tRECORD || (t == tCLOSURE && lvl != 0)

/-- The address of body word i of an object, BOUNDS outside its body. -/
def bodyAddr (s : State) (c : Nat) (x i : TWord) : Acs Nat :=
  (objHeader s c x).bind fun s1 h =>
    if 0 ≤ sval i ∧ sval i < h.2 then addrChk s1 (slotAt h.1 (1 + i.val.toNat)) kLOAD else .trap s1 (accFault aBOUNDS)

/-- VREF. [log 113 DEDUCED, unsafe] -/
def execVref (core : Nat) (f : RF) : State → Host.Outcome State Fault Refusal :=
  runInsn core (encR 0x0D f 0) fun s =>
    let x := reg s core f.a
    let i := reg s core f.b
    chk s [ill (f.e ≠ 0)] <| consume s [x, i] <|
      chk s [tagIf (!indexable (lvlOf s core) x.tag || i.tag != tINT) rTYPE] <|
        (bodyAddr s core x i).fin fun s1 a => (loadSlot s1 core f.d a 64).fin fun s2 w => deliver s2 core f.d w

/-- VSET: the stored word rd is carried; word 0 of a RECORD is not written. -/
def execVset (core : Nat) (f : RF) : State → Host.Outcome State Fault Refusal :=
  runInsn core (encR 0x0D f 1) fun s =>
    let x := reg s core f.a
    let i := reg s core f.b
    chk s [ill (f.e ≠ 0)] <| consume s [x, i] <|
      chk s [tagIf (!indexable (lvlOf s core) x.tag || i.tag != tINT || (x.tag == tRECORD && i.val == 0)) rTYPE] <|
        (bodyAddr s core x i).fin fun s1 a => (stWord s1 core a (reg s core f.d) 64).fin fun s2 _ => .done s2

/-- The word that holds byte i of a string, and its address; BOUNDS outside its bytes. -/
def strWord (s : State) (c : Nat) (x i : TWord) : Acs (Nat × TWord) :=
  (strLen s c x).bind fun s1 h =>
    if 0 ≤ sval i ∧ sval i < h.2 then
      (objWord s1 c h.1 (2 + i.val.toNat / 8)).bind fun s2 w =>
        if w.tag = tRAW then .ok s2 (slotAt h.1 (2 + i.val.toNat / 8), w) else .trap s2 (tagTrap rTYPE)
    else .trap s1 (accFault aBOUNDS)

/-- SREF. -/
def execSref (core : Nat) (f : RF) : State → Host.Outcome State Fault Refusal :=
  runInsn core (encR 0x0D f 2) fun s =>
    let x := reg s core f.a
    let i := reg s core f.b
    chk s [ill (f.e ≠ 0)] <| consume s [x, i] <|
      chk s [tagIf (x.tag != tSTRING || i.tag != tINT) rTYPE] <|
        (strWord s core x i).fin fun s1 p => deliver s1 core f.d (wInt (getByte p.2.val (i.val.toNat % 8)))

/-- A word is an INT from 0 to 255. -/
def isByte (w : TWord) : Bool := w.tag == tINT && decide (w.val.toNat ≤ 255)

/-- SSET. [log 113 DEDUCED, unsafe] -/
def execSset (core : Nat) (f : RF) : State → Host.Outcome State Fault Refusal :=
  runInsn core (encR 0x0D f 3) fun s =>
    let x := reg s core f.a
    let i := reg s core f.b
    let v := reg s core f.d
    chk s [ill (f.e ≠ 0)] <| consume s [x, i, v] <|
      chk s [tagIf (x.tag != tSTRING || i.tag != tINT || !isByte v) rTYPE] <|
        (strWord s core x i).fin fun s1 p =>
          (stWord s1 core p.1 ⟨tRAW, setByte p.2.val (i.val.toNat % 8) v.val.toNat⟩ 64).fin fun s2 _ => .done s2

/-- A new object at ALLOC. -/
def newObject (s : State) (c rd : Nat) (tag : BitVec 8) (barrier : Bool) (body : List TWord) : IRes :=
  let o : NewObj := ⟨some tag.toNat, body⟩
  allocDeliver s c o.size barrier [o] [(rd, ⟨tag, (reg s c 31).val⟩)]

/-- MAKEV. -/
def execMakev (core : Nat) (f : RF) : State → Host.Outcome State Fault Refusal :=
  runInsn core (encR 0x0D f 4) fun s =>
    let x := reg s core f.a
    let n := reg s core f.b
    chk s [ill (f.e ≠ 0)] <| consume s [x, n] <|
      chk s [tagIf (n.tag != tINT) rTYPE, bnd (n.val.toNat > 65535)]
        (newObject s core f.d tVECTOR true (List.replicate n.val.toNat x))

/-- MAKER. -/
def execMaker (core : Nat) (f : RF) : State → Host.Outcome State Fault Refusal :=
  runInsn core (encR 0x0D f 5) fun s =>
    let x := reg s core f.a
    let n := reg s core f.b
    chk s [ill (f.e ≠ 0)] <| consume s [x, n] <|
      chk s [tagIf (x.tag != tSYMBOL || n.tag != tINT) rTYPE, bnd (n.val.toNat > 65534)]
        (newObject s core f.d tRECORD false (x :: List.replicate n.val.toNat wNil))

/-- MAKES. -/
def execMakes (core : Nat) (f : RF) : State → Host.Outcome State Fault Refusal :=
  runInsn core (encR 0x0D f 6) fun s =>
    let n := reg s core f.b
    chk s [ill (f.a ≠ 0 ∨ f.e ≠ 0)] <| consume s [n] <|
      chk s [tagIf (n.tag != tINT) rTYPE, bnd (n.val.toNat > 524272)]
        (newObject s core f.d tSTRING false (wInt n.val.toNat :: List.replicate ((n.val.toNat + 7) / 8) wZero))

end Sys2Proof.Machine
end

