-- ==== Sys2Proof/Machine/Micro.lean ====
section
/-! DEFINITION. The microcode store (chapter 12): micro-words and nano-words, the choice of the next micro-address, match registers, and
the checks of a patch. -/
namespace Sys2Proof.Machine

open Sys2Proof

/-- A micro-word (R314, Table 12.1). -/
structure MicroWord where
  nptr : Nat
  wait : Bool
  cond : Nat
  seq : Nat
  disp : Int
deriving DecidableEq, Repr

/-- The fields of a nano-word outside its datapath bits (R317). -/
structure NanoWord where
  target : Nat
  konst : Nat
  cause : Nat
deriving DecidableEq, Repr

/-- A match register (R323, Table 12.6). -/
structure MatchReg where
  en : Bool
  index : Nat
  addr : Nat
deriving DecidableEq, Repr

/-- The fields of a micro-word (Table 12.1); DISP is signed. -/
def microWord (w : Nat) : MicroWord :=
  let d := bits w 20 4
  ⟨bits w 0 12, bit w 12, bits w 13 4, bits w 17 3, if d < 8 then d else (d : Int) - 16⟩

/-- The fields of a nano-word (R317). -/
def nanoWord (w : Nat) : NanoWord := ⟨bits w 0 15, bits w 16 8, bits w 24 3⟩

/-- Conditions that may be waited on (Table 12.3). -/
def waitable (cond : Nat) : Bool := decide (1 ≤ cond ∧ cond ≤ 4)

/-- A word of the PR space (R327). -/
def prWord (p : List Word32) (i : Nat) : Nat := ((p[i]?).getD 0).toNat

/-- Micro-patch word k. -/
def patchMicro (p : List Word32) (k : Nat) : MicroWord := microWord (prWord p k)

/-- Nano-patch word k: its word j = 0 holds bits 31:0 (R327). -/
def patchNano (p : List Word32) (k : Nat) : NanoWord := nanoWord (prWord p (512 + 6 * k))

/-- Match register m. -/
def patchMatch (p : List Word32) (m : Nat) : MatchReg :=
  let w := prWord p (1280 + m)
  ⟨bit w 31, bits w 16 9, bits w 0 15⟩

/-- The address that a fetch of the sequencer reads (R323, R324): an enabled match register that holds a ROM address sends the fetch to the
patch word of its index; addresses in patch RAM are never compared. -/
def microFetch (p : List Word32) (a : Nat) : Nat :=
  if a < 0x6000 then
    match (List.range 32).find? (fun m => (patchMatch p m).en && (patchMatch p m).addr == a) with
    | some m => 0x6000 + (patchMatch p m).index
    | none => a
  else a

/-- What follows a micro-word (R315, R316): another address and the micro-return stack; the operation's end; its fault, with cause and
reason; the core's stop. -/
inductive MicroNext where
  | goto (upc : Nat) (stack : List Nat)
  | ends
  | fault (cause reason : Nat)
  | stops
deriving DecidableEq, Repr

/-- The choice of the next micro-address (R315, R316, Table 12.2): w the word at upc, n its nano-word, cond whether its condition holds, key
the dispatch key of Table 12.3. A word that waits acts as if its condition were true when the wait ends. -/
def microNext (w : MicroWord) (n : NanoWord) (upc : Nat) (stack : List Nat) (cond : Bool) (key : Nat) : MicroNext :=
  let go := w.wait || cond
  let next := MicroNext.goto (upc + 1) stack
  match w.seq with
  | 0 => next
  | 1 => if go then .goto (upc + w.disp).toNat stack else next
  | 2 => if go then .goto n.target stack else next
  | 3 => if go then (if stack.length < 4 then .goto n.target ((upc + 1) :: stack) else .stops) else next
  | 4 => if go then (match stack with | a :: rest => .goto a rest | [] => .stops) else next
  | 5 => if w.cond ≤ 2 then .goto (n.target + key) stack else .stops
  | 6 => if go then .ends else next
  | _ => if go then .fault n.cause n.konst else next

/-! ### The checks of a patch (Table 12.5) -/

/-- A micro-address that a patch may name: ROM, or below the loaded micro-words. -/
def microAddrOk (nMicro a : Nat) : Bool := decide (a < 0x6000 + nMicro)

/-- Micro-patch word k meets Table 12.5, as far as it and the patch's own nano-words show. -/
def microWordOk (p : List Word32) (nMicro nNano k : Nat) : Bool :=
  let w := patchMicro p k
  decide (prWord p k < 2 ^ 24) && decide (w.nptr < 0xC00 + nNano) && (!w.wait || waitable w.cond)
    && (w.seq != 5 || decide (w.cond ≤ 2))
    && (w.seq != 1 || decide ((0x6000 + k : Int) + w.disp < 0x6000 + nMicro))
    && (w.seq != 5 || decide (w.nptr < 0xC00) || microAddrOk nMicro ((patchNano p (w.nptr - 0xC00)).target + 15))

/-- Match register m of a patch meets Table 12.5. -/
def matchRegOk (p : List Word32) (nMicro m : Nat) : Bool :=
  let r := patchMatch p m
  r.en && decide (r.addr < 0x6000) && decide (r.index < nMicro) && (List.range m).all (fun j => (patchMatch p j).addr != r.addr)

/-- The counts, words, targets and match registers of a patch meet Table 12.5 (R326). -/
def patchWordsOk (p : List Word32) (nMicro nNano nMatch : Nat) : Bool :=
  decide (1 ≤ nMicro ∧ nMicro ≤ 512 ∧ nNano ≤ 128 ∧ 1 ≤ nMatch ∧ nMatch ≤ 32)
    && (List.range nMicro).all (microWordOk p nMicro nNano)
    && (List.range nNano).all (fun k => microAddrOk nMicro (patchNano p k).target)
    && (List.range nMatch).all (matchRegOk p nMicro)

end Sys2Proof.Machine
end

