-- ==== Sys2Proof/Machine/MemOps.lean ====
section
/-! DEFINITION. Loads, stores, multiple-register and context instructions (R218 to R235), with what the memory system does
meanwhile (R202, R291, R305 to R308). -/
namespace Sys2Proof.Machine

open Sys2Proof

/-! ### DRAM and cache events -/

/-- The number of populated channels (R303). [log 128 DESIGN CHOICE, safe] -/
def chanPop (s : State) : Nat := ((List.range 8).filter (bit (fget s bMEM 0x10 0 8))).length

/-- The channel of a physical address (R305). -/
def channelOf (s : State) (pa : Nat) : Nat :=
  (bits pa 8 3 ^^^ bits pa 20 3 ^^^ bits pa 32 3) % max 1 (chanPop s)

/-- A word becomes POISON; its payload is undefined (Table 7.1), a free value. [log 118 DEDUCED, safe] -/
def poisonWord (s : State) (pa : Nat) : State :=
  let r := drawFree s
  putMem r.2 pa ⟨tPOISON, r.1⟩

/-- An uncorrectable line of DRAM (R202, R308): eight POISON words, counted, journaled, captured. Sources: 0 demand or
prefetch, 1 patrol, 2 agent. [log 118 DEDUCED, safe] -/
def dramUe (s : State) (pa src : Nat) : State :=
  let line := pa / 64 * 64
  let ch := channelOf s line
  let s1 := (List.range 8).foldl (fun a i => poisonWord a (line + 8 * i)) s
  let s2 := bumpSat s1 bMEM (0x104 + 8 * ch) 0 32 1
  let s3 := if fget s2 bMEM 0x38 0 1 = 1 then s2
    else rawSet (set64 s2 bMEM 0x30 line) bMEM 0x38 (1 + 16 * ch + 256 * src)
  eventD s3 9 kFAULT 0x0781 [line, ch, src] 0

/-- A corrected read (R307): counted; the sixteenth correction on one device within 24 hours marks it FAILED. [log 118 DEDUCED, safe] -/
def dramCe (s : State) (ch dev : Nat) : State :=
  let key := ch * 32 + dev
  let old := (lkD s.cpu.devHist key []).filter (fun t => decide (s.since t ≤ ticksOfS 86400))
  let l := (s.tim.ticks :: old).take 16
  let s1 := bumpSat { s with cpu.devHist := ins s.cpu.devHist key l } bMEM (0x100 + 8 * ch) 0 32 1
  if l.length ≥ 16 ∧ fget s1 bMEM (0x140 + 4 * ch) 7 1 = 0 then
    eventD (rawSet s1 bMEM (0x140 + 4 * ch) (dev + 128)) 9 kFAULT 0x0780 [ch, dev] 0
  else s1

/-- A counter of core c's cluster; the management cluster has none. [log 128 DESIGN CHOICE, safe] -/
def cluBump (s : State) (c off : Nat) : State := if c < 0x60 then bumpWrap s (bCLU + c / 8) off 0 32 1 else s

/-- A saturating counter of core c's cluster. -/
def cluBumpSat (s : State) (c off : Nat) : State := if c < 0x60 then bumpSat s (bCLU + c / 8) off 0 32 1 else s

/-- What an event of the memory system does, and the machine check it raises. [log 118 DEDUCED, safe; log 128 DESIGN CHOICE, safe] -/
def memEvent (s : State) (c : Nat) (e : MemEv) : State × Option Trap :=
  match e with
  | .l1dMiss => (cluBump s c (0x40 + 4 * (c % 8)), none)
  | .l1iMiss => (cluBump s c (0x60 + 4 * (c % 8)), none)
  | .l2Hit => (cluBump s c 0x80, none)
  | .l2Miss => (cluBump s c 0x84, none)
  | .pfIssue => (if c < 0x60 ∧ bit (rawGet s (bCLU + c / 8) 0x10) (c % 8) = true then cluBump s c 0x88 else s, none)
  | .pfUse => (cluBump s c 0x8C, none)
  | .l3Quota => (bumpSat s bMEM 0x180 0 32 1, none)
  | .l3Threshold => (bumpSat s bMEM 0x184 0 32 1, none)
  | .dirEvict => (bumpSat s bMEM 0x188 0 32 1, none)
  | .cacheCe => (cluBumpSat s c 0x90, none)
  | .cacheUeClean => (cluBumpSat s c 0x94, none)
  | .cacheUeDirty a => (poisonWord (cluBumpSat s c 0x94) (a / 8 * 8), none)
  | .dramCe ch dev => (dramCe s ch dev, none)
  | .dramUe a => (dramUe s a 0, none)
  | .regParity => (s, some (mCheck 2))
  | .tlbParity n => (updCore s c (fun k => { k with tlb := del k.tlb n }), some (mCheck 3))
  | .tagParity => (s, some (mCheck 4))
  | .noResp => (s, none)
  | .microCe => (bumpSat s bUCD 0x44 0 32 1, none)
  | .microUe => (stopCore s c cMCHECK 0, none)
  | .redirect m => (if m < 32 ∧ (patchMatch s.cpu.patch m).en = true then bumpWrap s bUCD (0x100 + 4 * m) 0 32 1 else s, none)

/-- Events in turn, with the first machine check. [log 118 DEDUCED, safe] -/
def memEvents (s : State) (c : Nat) (l : List MemEv) : State × Option Trap :=
  l.foldl (fun a e => let r := memEvent a.1 c e; (r.1, a.2.or r.2)) (s, none)

/-- An access with what the memory system does: a machine check first; a target that does not respond ends the access
with BUSERR NORESP where nothing earlier stops it (R249, R250). -/
def withEvents (s : State) (c : Nat) (ev : List MemEv) (va : State → Nat) (f : State → IRes) : IRes :=
  let r := memEvents s c ev
  if (getCore r.1 c).runs = false then .stay r.1
  else match r.2 with
  | some t => .trap r.1 t
  | none =>
    match f r.1 with
    | .trap s1 t => .trap s1 t
    | x => if ev.contains .noResp then .trap r.1 ⟨cBUSERR, 0x20, va r.1, kLOAD, false⟩ else x

/-! ### Addresses (R218) -/

/-- The address that a base and an offset give: the base's tag, its payload, the range. -/
def effAddr (s : State) (c : Nat) (w : TWord) (imm : Int) (kind : Nat) : Acs Nat :=
  if !(baseTags (lvlOf s c)).contains w.tag then .trap s (tagTrap rTYPE)
  else if w.tag ≠ tRAW ∧ ptrOk w.val = false then .trap s ⟨cTAGTRAP, rBADPTR, w.val.toNat % 2 ^ 48, kind, false⟩
  else addrChk s (w.val.toNat + imm) kind

/-- A word access is 8-byte aligned; only a register access is 4-byte aligned (7.1, R73). [log 110 DEDUCED, unsafe] -/
def alignChk (s : State) (c a kind : Nat) : Acs Nat :=
  let k := getCore s c
  let device := if k.level = 2 ∧ inWindow a = true then false
    else match lookup k.tlb (asidOf k) a with | some (_, e) => decide (pteTyp e = 3) | none => true
  if a % 8 = 0 ∨ (a % 4 = 0 ∧ device = true) then .ok s a else .trap s ⟨cTAGTRAP, rBADPTR, a, kind, false⟩

/-- The word address of a load or store. -/
def wordAddr (s : State) (c : Nat) (w : TWord) (imm : Int) (kind : Nat) : Acs Nat :=
  (effAddr s c w imm kind).bind fun s1 a => alignChk s1 c a kind

/-- An effective address as a number, for the trap information of a target that does not respond. -/
def rawAddr (c : Nat) (f : IF) (s : State) : Nat := ((reg s c f.ra.toNat).val.toNat + simm f).toNat % 2 ^ 48

/-- LD and LDA (R218, R219). [log 111 DEDUCED, safe] -/
def loadInsn (core op : Nat) (f : IF) (ev : List MemEv) : State → Host.Outcome State Fault Refusal :=
  runInsn core (encI op f) fun s =>
    withEvents s core ev (rawAddr core f) fun s =>
      let x := reg s core f.ra.toNat
      chk s [ill (uimm f % 8 ≠ 0)] <| consume s [x] <|
        (wordAddr s core x (simm f) kLOAD).fin fun s1 a =>
        (loadSlot s1 core f.rd.toNat a 32).fin fun s2 w => deliver s2 core f.rd.toNat w

/-- ST and STR: the stored word is carried. [log 111 DEDUCED, safe] -/
def storeInsn (core op : Nat) (f : IF) (ev : List MemEv) : State → Host.Outcome State Fault Refusal :=
  runInsn core (encI op f) fun s =>
    withEvents s core ev (rawAddr core f) fun s =>
      let x := reg s core f.ra.toNat
      chk s [ill (uimm f % 8 ≠ 0)] <| consume s [x] <|
        (wordAddr s core x (simm f) kSTORE).fin fun s1 a =>
        (stWord s1 core a (reg s1 core f.rd.toNat) 32).fin fun s2 _ => .done s2

/-- LD. -/
def execLd (core : Nat) (f : IF) (ev : List MemEv) : State → Host.Outcome State Fault Refusal := loadInsn core 0x10 f ev

/-- ST. -/
def execSt (core : Nat) (f : IF) (ev : List MemEv) : State → Host.Outcome State Fault Refusal := storeInsn core 0x11 f ev

/-- LDA: in this model every access is in program order. -/
def execLda (core : Nat) (f : IF) (ev : List MemEv) : State → Host.Outcome State Fault Refusal := loadInsn core 0x12 f ev

/-- STR. -/
def execStr (core : Nat) (f : IF) (ev : List MemEv) : State → Host.Outcome State Fault Refusal := storeInsn core 0x13 f ev

/-- ADDP (R220). -/
def execAddp (core : Nat) (f : IF) : State → Host.Outcome State Fault Refusal :=
  runInsn core (encI 0x14 f) fun s =>
    let x := reg s core f.ra.toNat
    chk s [ill (uimm f % 8 ≠ 0)] <| consume s [x] <|
      chk s [tagIf (!(baseTags (lvlOf s core)).contains x.tag) rTYPE] <|
        (addrChk s (x.val.toNat + simm f) 0).fin fun s1 a =>
        (ptrChk s1 (BitVec.ofNat 64 a) 0).fin fun s2 a => deliver s2 core f.rd.toNat (tw x.tag a)

/-- LDB (R221). -/
def execLdb (core : Nat) (f : IF) : State → Host.Outcome State Fault Refusal :=
  runInsn core (encI 0x15 f) fun s =>
    let x := reg s core f.ra.toNat
    chk s [prv (lvlOf s core = 0)] <| consume s [x] <|
      (effAddr s core x (simm f) kLOAD).fin fun s1 a =>
      (ldWord s1 core (a - a % 8) kLOAD 8).fin fun s2 y =>
        if y.2.tag = tPOISON then .trap s2 (poisonTrap kLOAD a)
        else if y.2.tag ≠ tRAW then .trap s2 (tagTrap rTYPE)
        else deliver s2 core f.rd.toNat (wInt (getByte y.2.val (a % 8)))

/-- STB: the byte written, the tag of its word unchanged. [log 113 DEDUCED, unsafe] -/
def execStb (core : Nat) (f : IF) : State → Host.Outcome State Fault Refusal :=
  runInsn core (encI 0x16 f) fun s =>
    let x := reg s core f.ra.toNat
    let v := reg s core f.rd.toNat
    chk s [prv (lvlOf s core = 0)] <| consume s [x, v] <|
      chk s [tagIf (!isByte v) rTYPE] <|
        (effAddr s core x (simm f) kSTORE).fin fun s1 a =>
        (xlate s1 core (a - a % 8) kSTORE).fin fun s2 t =>
        (rdAt s2 core t 8).fin fun s3 w =>
          if w.tag = tPOISON then .trap s3 (poisonTrap kSTORE a)
          else if w.tag ≠ tRAW then .trap s3 (tagTrap rTYPE)
          else (wrAt s3 core t ⟨tRAW, setByte w.val (a % 8) v.val.toNat⟩ 8).fin fun s4 _ => .done s4

/-! ### SM and LM (R229 to R231) -/

/-- The registers of a mask, in ascending order. -/
def maskRegs (m : Nat) : List Nat := (List.range 32).filter (bit m)

/-- The slots that remain, each with its register and address. -/
def slotList (m base prog : Nat) : List (Nat × Nat) := ((maskRegs m).zipIdx.map (fun p => (p.1, base + 8 * p.2))).drop prog

/-- STATUS.LMPROG set. -/
def setProg (s : State) (c n : Nat) : State := updCore s c (fun k => { k with status := setBits k.status 12 5 n })

/-- Where an execution of SM or LM ends: at its last slot, or with an interrupt after `stop` slots, at least one. -/
def endSlots (s : State) (c total : Nat) (stop : Option Nat) : IRes :=
  match stop with
  | some n => if 0 < n ∧ n < total then .stay (setProg s c ((getCore s c).lmprog + n)) else .done (setProg s c 0)
  | none => .done (setProg s c 0)

/-- How many slots an execution moves. -/
def moved (total : Nat) (stop : Option Nat) : Nat :=
  match stop with | some n => if 0 < n ∧ n < total then n else total | none => total

/-- The probe of one slot: translation and permission, and for LM the word's tag. A register-space slot is refused for its
width. -/
def probe (s : State) (c : Nat) (load : Bool) (p : Nat × Nat) : Acs (Nat × Xl × TWord) :=
  (addrChk s p.2 (if load then kLOAD else kSTORE)).bind fun s0 va =>
  (xlate s0 c va (if load then kLOAD else kSTORE)).bind fun s1 x =>
    if load then
      (rdAt s1 c x 64).bind fun s2 w => (tagChk s2 c w).bind fun s3 w => .ok s3 (p.1, x, w)
    else if x.tgt = .device then (wrAt s1 c x (reg s1 c p.1) 64).bind fun s2 _ => .ok s2 (p.1, x, reg s2 c p.1)
    else .ok s1 (p.1, x, reg s1 c p.1)

/-- SM (`load` false) and LM. -/
def multi (s : State) (c : Nat) (f : RF) (load : Bool) (stop : Option Nat) : IRes :=
  let b := reg s c f.a
  let m := reg s c f.b
  let mv := m.val.toNat
  let sel (r : Nat) : Bool := m.tag == tINT && bit mv r
  chk s [ill (f.d ≠ 0 ∨ f.e ≠ 0),
         ill (load && decide (mv < 2 ^ 32) && (sel f.a || sel f.b || (lvlOf s c == 0 && sel 30)))] <|
  consume s [b, m] <|
  chk s [tagIf (m.tag != tINT || decide (mv ≥ 2 ^ 32)) rTYPE] <|
    (wordAddr s c b 0 (if load then kLOAD else kSTORE)).fin fun s0 a =>
      let l := slotList mv a (getCore s0 c).lmprog
      (Acs.each (fun s p => probe s c load p) l s0).fin fun s1 ps =>
        let now := ps.take (moved ps.length stop)
        if load then endSlots (putRegs s1 c (now.map (fun p => (p.1, p.2.2)))) c ps.length stop
        else (wrAll s1 c (now.map (fun p => (p.2.1, p.2.2)))).fin fun s2 _ => endSlots s2 c ps.length stop

/-- SM; an interrupt is taken after `stop` slots where the operand says so. -/
def execSm (core : Nat) (f : RF) (stop : Option Nat) : State → Host.Outcome State Fault Refusal :=
  runInsn core (encR 0x17 f 0) fun s => multi s core f false stop

/-- LM. -/
def execLm (core : Nat) (f : RF) (stop : Option Nat) : State → Host.Outcome State Fault Refusal :=
  runInsn core (encR 0x17 f 1) fun s => multi s core f true stop

/-! ### Save areas (R232 to R235) -/

/-- The 18 words of a save area translated: wholly inside one page of type CTX. -/
def areaXl (s : State) (c : Nat) (v : BitVec 64) (kind : Nat) : Acs (List Xl) :=
  (ptrChk s v kind).bind fun s0 a =>
  (xlate s0 c a kind).bind fun s1 x =>
  (xlate s1 c (a + 136) kind).bind fun s2 y =>
    let k := getCore s2 c
    let one := match lookup k.tlb (asidOf k) a, lookup k.tlb (asidOf k) (a + 136) with
      | some p, some q => p.1 == q.1
      | _, _ => false
    if x.typ = 1 ∧ y.typ = 1 ∧ one = true then
      .ok s2 ((List.range 18).map (fun i => { x with va := x.va + 8 * i, pa := x.pa + 8 * i }))
    else .trap s2 ⟨cACCESS, aPAGETYPE, a, kind, false⟩

/-- SAVEL (half 0) and SAVEH (half 1): the dirty groups of the half, words 0 and 1, CTXHEAD. -/
def saveHalf (s : State) (c : Nat) (f : RF) (half : Nat) : IRes :=
  let w := reg s c f.a
  chk s [ill (f.d ≠ 0 ∨ f.b ≠ 0 ∨ f.e ≠ 0), prv (lvlOf s c = 0)] <| consume s [w] <|
  chk s [tagIf (w.tag != tRAW && w.tag != tSTACKPTR) rTYPE] <|
    (areaXl s c w.val kSTORE).fin fun s1 xs =>
      let k := getCore s1 c
      let g := bits k.status (8 + 2 * half) 2
      let word (i : Nat) : Option TWord :=
        if i = 0 then some ⟨tSAVELINK, k.ctxhead.val⟩
        else if i = 1 then some (tw tRAW (g + 256 * half))
        else if bit g ((i - 2) / 8) then k.regs[half * 16 + i - 2]? else none
      let ws := (xs.zipIdx).filterMap (fun p => (word p.2).map (fun v => (p.1, v)))
      (wrAll s1 c ws).fin fun s2 _ => .done (updCore s2 c (fun k => { k with ctxhead := ⟨tRAW, w.val⟩ }))

/-- SAVEL. -/
def execSavel (core : Nat) (f : RF) : State → Host.Outcome State Fault Refusal :=
  runInsn core (encR 0x18 f 0) fun s => saveHalf s core f 0

/-- SAVEH. -/
def execSaveh (core : Nat) (f : RF) : State → Host.Outcome State Fault Refusal :=
  runInsn core (encR 0x18 f 1) fun s => saveHalf s core f 1

/-- LOADL (half 0) and LOADH (half 1): the groups that word 1 records, both DIRTY bits of the half clear, CTXHEAD. -/
def loadHalf (s : State) (c : Nat) (f : RF) (half : Nat) : IRes :=
  chk s [ill (f.d ≠ 0 ∨ f.a ≠ 0 ∨ f.b ≠ 0 ∨ f.e ≠ 0), prv (lvlOf s c = 0)] <|
    (areaXl s c (getCore s c).ctxhead.val kLOAD).fin fun s1 xs =>
    (Acs.each (fun s x => rdAt s c x 64) xs s1).fin fun s2 ws =>
      let w0 := (ws[0]?).getD wZero
      let w1 := (ws[1]?).getD wZero
      if w0.tag = tSAVELINK ∧ w1.tag = tRAW ∧ bits w1.val.toNat 8 1 = half then
        let g := bits w1.val.toNat 0 2
        .done (updCore s2 c (fun k =>
          { k with
            regs := k.regs.mapIdx (fun i r =>
              if i / 16 = half ∧ bit g (i % 16 / 8) = true then (ws[2 + i % 16]?).getD r else r)
            status := setBits k.status (8 + 2 * half) 2 0
            ctxhead := ⟨tRAW, w0.val⟩ }))
      else .trap s2 (tagTrap rTYPE)

/-- LOADL. -/
def execLoadl (core : Nat) (f : RF) : State → Host.Outcome State Fault Refusal :=
  runInsn core (encR 0x18 f 2) fun s => loadHalf s core f 0

/-- LOADH. -/
def execLoadh (core : Nat) (f : RF) : State → Host.Outcome State Fault Refusal :=
  runInsn core (encR 0x18 f 3) fun s => loadHalf s core f 1

end Sys2Proof.Machine
end

