-- ==== Sys2Proof/Machine/Awp0.lean ====
section
/-! DEFINITION. AWP ingress and egress (chapters 1 and 15): the checks A1 to A5, replies, the counts of R397. -/
namespace Sys2Proof.Machine

open Sys2Proof

/-! ### Message types (Table 15.2) and REJECT reasons (Table 15.5) -/

def mtOFFER : Nat := 0x01
def mtCANCEL : Nat := 0x02
def mtRECEIPT : Nat := 0x81
def mtREJECT : Nat := 0x82
def mtANSWER : Nat := 0x83
def mtMACK : Nat := 0x90
def mtEXPDATA : Nat := 0x91

def rjMODE : Nat := 0x01
def rjROLE : Nat := 0x02
def rjLATE : Nat := 0x03
def rjLATE_UNCERTAIN : Nat := 0x04
def rjNOT_OPEN : Nat := 0x05
def rjSUSPENDED : Nat := 0x06
def rjQUOTA : Nat := 0x07
def rjBUSY : Nat := 0x08
def rjFORMAT : Nat := 0x09
def rjQUERY_RANGE : Nat := 0x0A
def rjRULE : Nat := 0x20

/-- TENANT of a device management session (R380). -/
def tDEV : Nat := 0x40

/-! ### Sessions -/

/-- The session of a frame. -/
def sessOf (s : State) (t session : Nat) : Option Session := lk s.awp.sessions (skey t session)

/-- A session changed. -/
def updSess (s : State) (key : Nat) (f : Session → Session) : State :=
  match lk s.awp.sessions key with
  | some x => { s with awp.sessions := ins s.awp.sessions key (f x) }
  | none => s

/-- A frame of a session dropped or rejected before sequencing, counted for the present TAI second (R397, R524). The key is
((second × 64 + tenant) × 2^32 + session) × 16 + class, the ten classes in the order of R524; a device management session
belongs to no stream. [log 49 DEDUCED, unsafe] -/
def countDrop (s : State) (t session cls : Nat) : State :=
  if t ≥ 64 then s
  else
    let k := ((s.now / 1000000000 * 64 + t) * 2 ^ 32 + session) * 16 + cls
    { s with awp.counts := ins s.awp.counts k (sat 32 (lkD s.awp.counts k 0 + 1)) }

/-- The class of R524 of a REJECT reason. -/
def countClass (reason : Nat) : Option Nat := if reason ≤ 8 then some (reason + 1) else none

/-! ### Egress (R376, R379) -/

/-- The counter at which a session begins to close (R379). -/
def devLimit : Nat := 2 ^ 48 - 4097

/-- A frame of the device on a session leaves under the session's next device counter, or is lost: its port is not UP, no
counter is left, or the session was freed under R602. Reaching the limit makes the session CLOSING. [log 57 DEDUCED, safe] -/
def sendAwp (s : State) (t session : Nat) (r : Route) (typ : Nat) (payload : List Byte) : State :=
  match sessOf s t session with
  | none => bumpSat s bAWP 0x28 0 32 1
  | some x =>
    if laneUp s r.lane = false ∨ x.devCtr + 1 > 2 ^ 48 - 1 then bumpSat s bAWP 0x28 0 32 1
    else
      let n := x.devCtr + 1
      let s1 := updSess s (skey t session) (fun x => { x with devCtr := n, opened := x.opened && decide (n < devLimit) })
      emitOut s1 (.awp r typ t session n payload)

/-- The payload of a REJECT (Table 15.4). -/
def rejectBody (echo reason : Nat) (sequenced : Bool) (seq : Nat) (dig : Nat) (rule cause st : Nat) : List Byte :=
  be 6 echo ++ be 1 reason ++ be 1 (b2n sequenced) ++ be 8 seq ++ be 8 dig ++ be 2 rule ++ be 1 cause ++ be 1 st ++ be 12 0

/-- The payload of a RECEIPT. -/
def receiptBody (echo seq dig tai u : Nat) (text : List Byte) : List Byte :=
  be 6 echo ++ be 2 text.length ++ be 8 seq ++ be 8 dig ++ be 8 tai ++ be 4 u ++ be 4 0 ++ text

/-- The payload of an ANSWER to a QUERY. -/
def answerBody (echo st tsess tctr seq dig : Nat) : List Byte :=
  be 6 echo ++ be 1 1 ++ be 1 st ++ be 4 tsess ++ be 6 tctr ++ be 6 0 ++ be 8 seq ++ be 8 dig

/-- The payload of an ANSWER to a HEARTBEAT. -/
def beatBody (s : State) (echo : Nat) : List Byte :=
  be 6 echo ++ be 1 2 ++ be 1 (modeCode s) ++ be 8 s.now ++ be 4 s.tim.u ++ be 1 s.tim.qual.code ++ be 3 0

/-- Bytes 0 to 7 of a digest. -/
def dig8 (d : Digest) : Nat := d.toNat / 2 ^ 192

/-- The route by which the reply of a frame leaves. -/
def routeOf (f : Frame) : Route := ⟨f.lane, f.v6, f.src, f.dst, f.sport, f.dport, f.smac, f.vlan⟩

/-- A REJECT leaves and is counted by its reason. -/
def sendReject (s : State) (t session : Nat) (r : Route) (reason : Nat) (body : List Byte) : State :=
  sendAwp (bumpWrap s bAWP (0x100 + 4 * reason) 0 32 1) t session r mtREJECT body

/-- A frame refused at A6 to A9, or a QUERY or HEARTBEAT refused (R32, R387): counted for its session, answered, its session
freed where nothing more is due. -/
def refuse (s : State) (f : Frame) (reason cause st : Nat) : State :=
  let s1 := match countClass reason with | some c => countDrop s f.tenant f.session c | none => s
  freeIfDone (sendReject s1 f.tenant f.session (routeOf f) reason (rejectBody f.counter reason false 0 0 0 cause st)) (skey f.tenant f.session)

/-- An answer to a frame that is answered at once. -/
def answer (s : State) (f : Frame) (typ : Nat) (body : List Byte) : State :=
  freeIfDone (sendAwp s f.tenant f.session (routeOf f) typ body) (skey f.tenant f.session)

/-! ### A1 to A5 (Table 1.1) -/

/-- Bytes of a frame on the wire. [log 50 DEDUCED, unsafe] -/
def frameBytes (f : Frame) : Nat := 18 + (if f.vlan.isSome then 4 else 0) + (if f.v6 then 40 else 20) + 8 + f.udpLen

/-- The Ethernet port, quad × 4 + port, of a lane. -/
def etherPort (s : State) (k : Nat) : Nat := (laneToPort s k).1 * 4 + (laneToPort s k).2

/-- The four words of a _0 to _3 group, bits 127:96 first. -/
def words128 (s : State) (b off : Nat) : Nat :=
  ((rawGet s b off * 2 ^ 32 + rawGet s b (off + 4)) * 2 ^ 32 + rawGet s b (off + 8)) * 2 ^ 32 + rawGet s b (off + 12)

/-- An address is an enabled address of an Ethernet port (R374); an IPv4 address stands in the low 32 bits. -/
def enabledAddr (s : State) (m : Nat) (v6 : Bool) (a : BitVec 128) : Bool :=
  let off := 0x800 + 0x20 * m
  if v6 then fget s bAWP (off + 4) 1 1 == 1 && words128 s bAWP (off + 8) == a.toNat
  else fget s bAWP (off + 4) 0 1 == 1 && rawGet s bAWP off == a.toNat

/-- A lane can deliver an Ethernet frame: its port is UP in ETH mode. -/
def etherUp (s : State) (k : Nat) : Bool := decide (k < 48) && laneUp s k && !(quadMirror s (k / 4))

/-- A1: FCS, headers, port, an enabled destination address. -/
def passA1 (s : State) (f : Frame) : Bool :=
  f.fcsOk && f.hdrOk && f.dport == fget s bAWP 0x10 0 16 && enabledAddr s (etherPort s f.lane) f.v6 f.dst

/-- A2: version, tenant, field ranges, lengths. [log 56 DEDUCED, unsafe] -/
def passA2 (s : State) (f : Frame) (mgmt : Bool) : Bool :=
  f.ver == 1 && (tenantActive s f.tenant || f.tenant == tDEV) && f.rsv == 0 && decide (f.book ≤ 4095)
    && (!mgmt || f.book == 0) && decide (f.plen ≤ 1400) && f.udpLen == 40 + f.plen && decide (1 ≤ f.counter ∧ f.counter < 2 ^ 48)

/-- Entry i of the management allow-list holds an address: enabled, of its family, equal in the prefix. [log 56 DEDUCED, unsafe] -/
def allowed (s : State) (v6 : Bool) (a : BitVec 128) (i : Nat) : Bool :=
  let off := 0x200 + 0x20 * i
  let w := if v6 then 128 else 32
  let n := fget s bAWP (off + 0x10) 0 8
  let addr := if v6 then words128 s bAWP off else rawGet s bAWP (off + 0x0C)
  fget s bAWP (off + 0x10) 9 1 == 1 && (fget s bAWP (off + 0x10) 8 1 == 1) == v6 && a.toNat / 2 ^ (w - n) == addr / 2 ^ (w - n)

/-- A3: an OPEN entry of the frame's tenant and session, of a class that carries the message, with the frame's terminal, and for
a management class an allowed source (R380). No management session exists in SEALED or HOLD (R392). [log 56 DEDUCED, unsafe] -/
def passA3 (s : State) (f : Frame) (classes : List SClass) : Option Session :=
  match sessOf s f.tenant f.session with
  | none => none
  | some x =>
    if x.opened && classes.contains x.cls && x.terminal == f.terminal
        && (x.cls == .terminal || ((List.range 16).any (allowed s f.v6 f.src) && !(s.inMode .sealed) && !(s.inMode .hold))) then some x
    else none

/-- A5: the counter window (R383): the new high and bitmap, or none for a repeat or a counter below the floor. -/
def window (high : Nat) (bm : Word32) (c : Nat) : Option (Nat × Word32) :=
  if c > high then some (c, (if c - high < 32 then bm <<< (c - high) else 0) ||| 1)
  else if high ≤ c + 31 ∧ bm.getLsbD (high - c) = false then some (high, bm ||| ((1 : Word32) <<< (high - c)))
  else none

/-- A session-table entry that reads as POISON is freed, with its DRAM UE event; its replies not yet released are discarded
(R602). -/
def poisoned (s : State) (t session pa : Nat) : State :=
  match sessOf s t session with
  | none => s
  | some _ =>
    let gone := (s.awp.replies.filter (fun r => r.tenant == t && r.session == session)).length
    let s1 : State := { s with awp.sessions := del s.awp.sessions (skey t session),
                               awp.replies := s.awp.replies.filter (fun r => !(r.tenant == t && r.session == session)) }
    dramUe (bumpSat s1 bAWP 0x28 0 32 gone) pa 2

/-- A received AWP frame runs through the ingress buffer and the checks A1 to A5; one that passes goes on with `go`. `mgmt` says
that it is a management message, `classes` which session classes carry it. [log 50 DEDUCED, unsafe] -/
def ingress (s : State) (f : Frame) (mgmt : Bool) (classes : List SClass) (go : State → State) : State :=
  let lane (s : State) (off : Nat) : State := bumpWrap s bAWP (off + 0x10 * f.lane) 0 32 1
  if etherUp s f.lane = false then s
  else if f.backlog + frameBytes f > 262144 then lane s 0x40C
  else if passA1 s f = false then lane s 0x400
  else if passA2 s f mgmt = false then lane s 0x404
  else
    let s := bumpWrap s bAWP (if f.cached then 0x18 else 0x1C) 0 32 1
    let s := match f.poison with | some pa => poisoned s f.tenant f.session pa | none => s
    match passA3 s f classes with
    | none => lane s 0x408
    | some x =>
      let key := skey f.tenant f.session
      if (f.tagOk && x.keyHeld) = false then
        countDrop (bumpWrap (updSess s key (fun x => { x with a4 := x.a4 + 1 })) bAWP 0x20 0 32 1) f.tenant f.session 0
      else match window x.high x.bitmap f.counter with
        | none => countDrop (bumpWrap (updSess s key (fun x => { x with a5 := x.a5 + 1 })) bAWP 0x24 0 32 1) f.tenant f.session 1
        | some w => go (updSess s key (fun x => { x with high := w.1, bitmap := w.2, opened := decide (f.counter ≠ 2 ^ 48 - 1) }))

/-- A frame of a terminal. -/
def terminalFrame (s : State) (f : Frame) (go : State → State) : State := ingress s f false [.terminal] go

/-! ### Acceptance (R17, R369) -/

/-- The acceptance time of a frame: the corrected timestamp of its first byte. [log 43 DEDUCED, safe] -/
def acceptTai (s : State) (f : Frame) : Nat := (rxStamp s f.lane f.age f.var).toNat

/-- The uncertainty that was latched at its first byte. [log 43 DEDUCED, safe] -/
def acceptU (s : State) (f : Frame) : Nat := uAtTick s (s.tim.ticks - f.age)

end Sys2Proof.Machine
end

