-- ==== Sys2Proof/Machine/Flash0.lean ====
section
/-! DEFINITION. Flash media (chapter 18): blocks and their allocation, superblocks, program failures, die failures, reads and
measurements, quiet windows. -/
namespace Sys2Proof.Machine

open Sys2Proof

/-! ### Dies, channels, blocks -/

/-- The state with a die, or a block, changed. -/
def updDie (s : State) (d : Nat) (f : Die → Die) : State := { s with fla.dies := ins s.fla.dies d (f (getDie s d)) }
def updBlk (s : State) (k : Nat) (f : Blk → Blk) : State := { s with fla.blocks := ins s.fla.blocks k (f (getBlk s k)) }

/-- The present TAI second. -/
def nowSec (s : State) : Nat := s.now / 1000000000

/-- Dies of channel c. -/
def channelDies (s : State) (c : Nat) : List Nat := (List.range (dpc s)).map (fun k => c * 16 + k)

/-- The good dies of channel c. -/
def goodDies (s : State) (c : Nat) : List Nat := (channelDies s c).filter (fun d => (getDie s d).st == 0)

/-- Channels that hold a FAILED die whose content has not been rebuilt (R461). [log 67 DEDUCED, safe] -/
def failedChannels (s : State) : List Nat := (List.range 16).filter (fun c => (channelDies s c).any (fun d => (getDie s d).st == 1))

/-- Block numbers of die d that the table lists. [log 58 DEDUCED, safe] -/
def listed (s : State) (d : Nat) : List (Nat × Blk) := s.fla.blocks.filter (fun p => p.1 / 8192 == d)

/-- The lowest block number of a die from n that is not in a rising list of keys. -/
def firstGap : List Nat → Nat → Nat
  | [], n => n
  | k :: l, n => if k % 8192 = n then firstGap l (n + 1) else if k % 8192 < n then firstGap l n else n

/-- The FREE blocks of a die that can be the next to allocate: the listed ones, and the lowest that is not listed. -/
def freeCands (s : State) (d : Nat) : List Nat :=
  let l := listed s d
  let gap := firstGap (l.map (·.1)) (if d = 0 ∨ d = 16 then 8 else 0)
  (l.filter (fun p => p.2.st == 0)).map (·.1) ++ (if gap < dieBlocks then [d * 8192 + gap] else [])

/-- Of two blocks, the one with the lower consumed budget, on a tie the lower key: die index, then block number (R456). -/
def better (s : State) (a b : Nat) : Nat :=
  let ua := (getBlk s a).peSlc + 20 * (getBlk s a).peTlc
  let ub := (getBlk s b).peSlc + 20 * (getBlk s b).peTlc
  if ub < ua ∨ (ub = ua ∧ b < a) then b else a

/-- The best of a list of blocks. -/
def bestOf (s : State) : List Nat → Option Nat
  | [] => none
  | a :: l => some (l.foldl (better s) a)

/-- The FREE block to allocate on a die, or on a channel. -/
def pickOn (s : State) (d : Nat) : Option Nat := bestOf s (freeCands s d)
def pickBlock (s : State) (c : Nat) : Option Nat := bestOf s ((goodDies s c).flatMap (freeCands s))

/-- FREE blocks of a channel's good dies, and blocks in use on its fullest die. -/
def freeCount (s : State) (c : Nat) : Nat :=
  ((goodDies s c).map (fun d => dieBlocks - (if d = 0 ∨ d = 16 then 8 else 0) - ((listed s d).filter (fun p => p.2.st != 0 && p.1 % 8192 ≥ (if d = 0 ∨ d = 16 then 8 else 0))).length)).sum
def fullest (s : State) (c : Nat) : Nat :=
  ((goodDies s c).map (fun d => ((listed s d).filter (fun p => p.2.st == 1 || p.2.st == 2 || p.2.st == 3)).length)).foldl max 0

/-- Rows of a superblock: 384 wordlines of one or three pages (Table 18.2). -/
def superRows (tlc : Bool) : Nat := if tlc then 1152 else 384

/-- The open superblock of a stream. -/
def openSuper (s : State) (t : Nat) (tlc : Bool) : Option Super :=
  s.fla.supers.find? (fun x => x.stream == t && x.tlc == tlc && x.isOpen)

/-- The stream's open Sapwood superblock takes one more segment beside the rows that wait in the buffer. [log 60 DEDUCED, unsafe] -/
def superRoom (s : State) (t : Nat) : Bool :=
  match openSuper s t false with
  | some x => decide (x.rows + (s.jrn.rows.filter (fun r => r.stream == t)).length + 4 ≤ 384)
  | none => false

/-- Blocks of a channel kept from allocation (R457): one segment for each stream that has no room of its own, and the content of
the channel's fullest die. [log 60 DEDUCED, unsafe] -/
def reserved (s : State) (c : Nat) : Nat := ((List.range 65).filter (fun t => !(superRoom s t))).length + fullest s c

/-- A stream can be given a new segment without the reserves of R457. -/
def mediaRoom (s : State) (t : Nat) : Bool :=
  superRoom s t || (List.range 16).all (fun c => decide (freeCount s c > reserved s c))

/-- Where a stream has been given a new segment that could come only from the reserves, the device enters HOLD MEDIA_FULL
(R457); `s` is the state before the grain that needed it, `s'` the one after. [log 61 DEDUCED, unsafe] -/
def mediaGate (s : State) (t : Nat) (s' : State) : State :=
  let no (s : State) : Option Nat := ((strm s t).segs[0]?).map (·.no)
  if no s' ≠ no s ∧ mediaRoom s t = false ∧ s.inMode .hold = false then enterHold s' hMEDIA_FULL 0 0 else s'

/-- A FREE block is erased in a mode and taken; its P/E count in that mode rises. [log 36 DEDUCED, unsafe; log 58 DEDUCED, safe] -/
def takeBlock (s : State) (k : Nat) (tlc : Bool) : State :=
  let s1 := updBlk s k (fun b => { b with st := if tlc then 2 else 1, peSlc := b.peSlc + b2n (!tlc), peTlc := b.peTlc + b2n tlc, reads := 0,
                                          members := 0, queued := none, level := 0, measSec := 0, rber := 0, patrol := nowSec s, progSec := nowSec s })
  { s1 with fla.progs := (s.tim.ticks, tlc, 1) :: s1.fla.progs.filter (fun p => decide (s.since p.1 < ticksOfS 86400)) }

/-- A superblock is allocated to a stream: one block from each channel (R454, R456); none where a channel has no FREE block. -/
def allocSuper (s : State) (t : Nat) (tlc : Bool) : Option State :=
  let ks := (List.range 16).map (pickBlock s)
  if ks.any (·.isNone) then none
  else
    let l := ks.filterMap id
    let s1 := l.foldl (fun a k => takeBlock a k tlc) s
    some { s1 with fla.supers := s1.fla.supers ++ [⟨t, tlc, l, [], 0, true, []⟩] }

/-! ### Quiet windows (R469) -/

/-- The UTC second of the day of a TAI second. -/
def utcOfDay (s : State) (sec : Nat) : Nat := (((sec : Int) - s.tim.leapOff) % 86400).toNat

/-- A TAI second lies in an enabled window; a window may cross midnight UTC. -/
def inQuietWin (s : State) (sec w : Nat) : Bool :=
  let r := rawGet s bFLC (0x40 + 4 * w)
  bit r 31 && decide ((utcOfDay s sec + 86400 - bits r 0 11 * 60) % 86400 < bits r 16 10 * 60)

/-- Some window is in force at a TAI second, and at present. -/
def quietAt (s : State) (sec : Nat) : Bool := (List.range 4).any (inQuietWin s sec)
def inQuiet (s : State) : Bool := quietAt s (nowSec s)

/-- The seconds from a TAI second to the end of a window that it lies in. -/
def windowLeft (s : State) (sec w : Nat) : Nat :=
  let r := rawGet s bFLC (0x40 + 4 * w)
  bits r 16 10 * 60 - (utcOfDay s sec + 86400 - bits r 0 11 * 60) % 86400

/-- A TAI second moved to the end of any window it falls in. -/
def quietEnd (s : State) : Nat → Nat → Nat
  | 0, sec => sec
  | n + 1, sec =>
    match (List.range 4).find? (inQuietWin s sec) with
    | some w => quietEnd s n (sec + windowLeft s sec w)
    | none => sec

/-- Reasons of an override event and of a Heartwood index entry (R467), and of a block that a program failure retires (R458). [log 59 DESIGN CHOICE, unsafe] -/
def rePOLICY : Nat := 0
def reFLOOR : Nat := 1
def reDISTURB : Nat := 2
def reREBUILD : Nat := 3
def rePROGFAIL : Nat := 4

/-- An override event (R470): die, block, reason, predicted RBER or read count, floor. [log 59 DESIGN CHOICE, unsafe] -/
def mediaOverride (s : State) (d b reason val floor : Nat) : State :=
  eventD (bumpSat s bFLC 0x8C 0 32 1) 9 5 0x0A80 [d, b, reason, val, floor] 0

/-! ### Die failure (R460 to R463) -/

/-- MSTATE.FAILCNT and REBUILD follow the dies. -/
def putFailcnt (s : State) : State :=
  let f := (failedChannels s).length
  let going := (s.fla.dies.filter (fun p => p.2.st == 1 && !(s.fla.stuck.contains p.1))).length
  let s1 := fset (fset s bFLC 0x14 0 2 (min f 3)) bFLC 0x14 5 1 (if going = 0 then 0 else 1)
  fset s1 bFLC 0x14 4 1 (min f 1)

/-- A die is FAILED: its event, its rebuild starts, with an override event inside a window; where three channels have one, HOLD
MEDIA_LOSS. Reasons 1 to 4 in the order of R460. [log 63 DEDUCED, safe] -/
def dieFail (s : State) (d reason : Nat) : State :=
  if (getDie s d).st ≠ 0 then s
  else
    let s1 := putFailcnt (updDie s d (fun x => { x with st := 1 }))
    let s2 := eventD s1 9 8 0x0A81 [d, reason] 0
    let s3 := if inQuiet s2 && !(s2.inMode .hold) then mediaOverride s2 d 0 reREBUILD 0 0 else s2
    if (failedChannels s3).length ≥ 3 then enterHold s3 hMEDIA_LOSS 0 0 else s3

/-- A block becomes GROWN_BAD; the eighth on its die within 24 hours fails the die. -/
def growBad (s : State) (k : Nat) : State :=
  let d := k / 8192
  let s1 := bumpSat (updBlk s k (fun b => { b with st := 6, members := 0, queued := none })) bFLC 0x9C 0 32 1
  let recent := s.tim.ticks :: (getDie s1 d).grown.filter (fun t => decide (s.since t < ticksOfS 86400))
  let s2 := updDie s1 d (fun x => { x with grown := recent })
  if recent.length ≥ 8 then dieFail s2 d 2 else s2

/-! ### Rows into superblocks (R454, R458, R461) -/

/-- A program that fails on channel c of a superblock is repeated on a FREE block of the same die; where that fails too, the die is
FAILED (R458). -/
def failMember (s : State) (x : Super) (c : Nat) (again : Bool) : State × Super :=
  match x.blocks[c]? with
  | none => (s, x)
  | some old =>
    let s1 := bumpSat s bFLC 0xA0 0 32 (if again then 2 else 1)
    let s2 := updBlk s1 old (fun b => { b with queued := some (rePROGFAIL, s.tim.ticks) })
    match pickOn s2 (old / 8192) with
    | none => (dieFail s2 (old / 8192) 4, x)
    | some k =>
      let s3 := takeBlock s2 k x.tlc
      let y : Super := { x with blocks := upd x.blocks c (fun _ => k), extra := old :: x.extra }
      if again then (dieFail s3 (old / 8192) 4, y) else (s3, y)

/-- One row of a segment is programmed into the stream's open superblock of a mode, allocated where none is open; `fails` and
`again` are the channels whose program, and whose repeated program, fails. Channels with a FAILED die are left out. None where
no superblock can be allocated. -/
def programRow (s : State) (t : Nat) (tlc : Bool) (seg : Nat) (fails again : List Nat) : Option State :=
  let s0 := match openSuper s t tlc with | some _ => some s | none => allocSuper s t tlc
  match s0 with
  | none => none
  | some s1 =>
    match openSuper s1 t tlc with
    | none => none
    | some x =>
      let out := failedChannels s1
      let r := fails.foldl (fun a c => failMember a.1 a.2 c (again.contains c)) (s1, x)
      let y := r.2
      let z : Super := { y with rows := y.rows + 1, isOpen := decide (y.rows + 1 < superRows tlc), segs := if y.segs.contains seg then y.segs else y.segs ++ [seg] }
      let s2 := (y.blocks.zipIdx.filter (fun p => !(out.contains p.2))).foldl (fun a p =>
        updBlk a p.1 (fun b => { b with members := b.members + 1, progSec := nowSec a })) r.1
      some { s2 with fla.supers := s2.fla.supers.map (fun w => if w = x then z else w) }

/-! ### Reads (R457a, R459, R460, R603) -/

/-- A grain that cannot be read: written once as MEDIA ERROR and counted. [log 67 DEDUCED, safe] -/
def mediaError (s : State) (t n d b : Nat) : State :=
  match grainAt s t n with
  | none => s
  | some g =>
    if g.unreadable then s
    else
      let st := strm s t
      let s1 := setStrm s t { st with grains := st.grains.map (fun x => if x.seq = n then { x with unreadable := true } else x) }
      eventD (bumpSat s1 bHLT 0x60 0 32 1) 9 8 0x0A85 [t, n, d, b] 0

/-- Default slopes in ppm per 1,000 aged hours, and read limits, by mode (Table 18.2). [log 36 DEDUCED, unsafe] -/
def slope0 (tlc : Bool) : Nat := if tlc then 4000 else 500
def rdLimit (tlc : Bool) : Nat := if tlc then 40000 else 200000

/-- A block is in TLC mode. [log 36 DEDUCED, unsafe] -/
def Blk.tlc (b : Blk) : Bool := b.st == 2

/-- A measurement of a block (R465): its slope over the aged time since the last one; a fresh one joins the last 16. [log 64 DEDUCED, unsafe] -/
def measure (s : State) (k level rber : Nat) : State :=
  let b := getBlk s k
  let aged := Config.agedMilli (k / 8192) b.measSec (nowSec s)
  let slope := if b.measSec ≠ 0 ∧ aged ≥ 1000 then max (slope0 b.tlc / 4) ((rber - b.rber) * 1000000 / aged) else slope0 b.tlc
  updBlk s k (fun b => { b with rber := rber, level := level, measSec := nowSec s, slope := slope,
                                fresh := if nowSec s ≤ b.progSec + 86400 then (rber :: b.fresh).take 16 else b.fresh })

/-- One read of a page: counted for disturb, its level in the die's histogram, a decoded codeword as a measurement; a member
unreadable at every step leaves grains unreadable, and the third such block of a die within an hour fails the die. [log 67 DEDUCED, safe] -/
def flashRead (s : State) (r : FlashRead) : State :=
  let d := r.blk / 8192
  let s1 := updBlk s r.blk (fun b => { b with reads := b.reads + 1 })
  let s2 := if r.level ≤ 17 then updDie s1 d (fun x => { x with hist := upd x.hist r.level (· + 1) }) else s1
  if r.level ≤ 16 then
    measure (if r.level = 16 then bumpWrap s2 bFLC 0x90 0 32 1 else s2) r.blk r.level r.rber
  else if r.level = 17 then
    updBlk (bumpWrap s2 bFLC 0x94 0 32 1) r.blk (fun b => { b with level := 17 })
  else
    let s3 := bumpSat s2 bFLC 0x98 0 32 1
    let recent := (r.blk, s.tim.ticks) :: (getDie s3 d).unread.filter (fun p => decide (s.since p.2 < ticksOfS 3600) && p.1 != r.blk)
    let s4 := updDie s3 d (fun x => { x with unread := recent })
    let s5 := r.lost.foldl (fun a p => mediaError a p.1 p.2 d (r.blk % 8192)) s4
    if recent.length ≥ 3 then dieFail s5 d 3 else s5

/-- Reads in order. -/
def flashReads (s : State) (l : List FlashRead) : State := l.foldl flashRead s

end Sys2Proof.Machine
end

