-- ==== Sys2Proof/Machine/Flow.lean ====
section
/-! DEFINITION. Control flow and the shadow stack (R225 to R228). -/
namespace Sys2Proof.Machine

open Sys2Proof

/-- The address a number of instructions from the core's pc. -/
def target (s : State) (c : Nat) (off : Int) : Nat := (((getCore s c).pc + 4 * off) % 2 ^ 48).toNat

/-- A conditional branch: operands consumed; `cond` is none where their tags are refused. -/
def branch (core op : Nat) (f : BF) (one : Bool) (cond : TWord → TWord → Option Bool) : State → Host.Outcome State Fault Refusal :=
  runInsn core (encB op f) fun s =>
    let x := reg s core f.ra.toNat
    let y := reg s core f.rb.toNat
    chk s [ill (one && f.rb != 0)] <| consume s (if one then [x] else [x, y]) <|
      match cond x y with
      | none => .trap s (tagTrap rTYPE)
      | some true => .goto s (target s core f.off.toInt)
      | some false => .done s

/-- Signed order of two INTs. -/
def intLt (x y : TWord) : Option Bool := if x.tag = tINT ∧ y.tag = tINT then some (decide (sval x < sval y)) else none

/-- The truth of a BOOL. -/
def boolOf (x : TWord) : Option Bool := if x.tag = tBOOL then some (x.val == 1) else none

/-- BEQ: identity of all 72 bits. -/
def execBeq (core : Nat) (f : BF) : State → Host.Outcome State Fault Refusal := branch core 0x20 f false (fun x y => some (x == y))

/-- BNE. -/
def execBne (core : Nat) (f : BF) : State → Host.Outcome State Fault Refusal := branch core 0x21 f false (fun x y => some (x != y))

/-- BLT. -/
def execBlt (core : Nat) (f : BF) : State → Host.Outcome State Fault Refusal := branch core 0x22 f false intLt

/-- BGE. -/
def execBge (core : Nat) (f : BF) : State → Host.Outcome State Fault Refusal :=
  branch core 0x23 f false (fun x y => (intLt x y).map (!·))

/-- BT. -/
def execBt (core : Nat) (f : BF) : State → Host.Outcome State Fault Refusal := branch core 0x24 f true (fun x _ => boolOf x)

/-- BF. -/
def execBf (core : Nat) (f : BF) : State → Host.Outcome State Fault Refusal :=
  branch core 0x25 f true (fun x _ => (boolOf x).map (!·))

/-- BNIL. -/
def execBnil (core : Nat) (f : BF) : State → Host.Outcome State Fault Refusal :=
  branch core 0x26 f true (fun x _ => some (x.tag == tNIL))

/-- BNNIL. -/
def execBnnil (core : Nat) (f : BF) : State → Host.Outcome State Fault Refusal :=
  branch core 0x27 f true (fun x _ => some (x.tag != tNIL))

/-- J. -/
def execJ (core : Nat) (off : BitVec 26) : State → Host.Outcome State Fault Refusal :=
  runInsn core (encJ 0x28 off) fun s => .goto s (target s core off.toInt)

/-- The return address of a call at the core's pc. -/
def linkWord (s : State) (c : Nat) : TWord := tw tRETADDR ((getCore s c).pc + 4)

/-- The push and the link of CALL and CALLR, then the target (R226, R227). -/
def callTo (s : State) (c dest : Nat) : IRes :=
  let ssp := (getCore s c).ssp
  let w := linkWord s c
  (ptrChk s ssp.val kPUSH).fin fun s0 a => (addrChk s0 ((a : Int) - 8) kPUSH).fin fun s1 va =>
  (xlate s1 c va kPUSH).fin fun s2 x => (wrAt s2 c x w 64).fin fun s3 _ =>
    .goto (putReg (updCore s3 c (fun k => { k with ssp := ⟨ssp.tag, BitVec.ofNat 64 va⟩ })) c 28 w) dest

/-- CALL. -/
def execCall (core : Nat) (off : BitVec 26) : State → Host.Outcome State Fault Refusal :=
  runInsn core (encJ 0x29 off) fun s => callTo s core (target s core off.toInt)

/-- A jump address in a register: RETADDR, else TYPE; R177, else BADPTR. -/
def jumpReg (s : State) (w : TWord) (f : Nat → IRes) : IRes :=
  consume s [w] <| chk s [tagIf (w.tag != tRETADDR) rTYPE, (!retOk w.val, ⟨cTAGTRAP, rBADPTR, w.val.toNat % 2 ^ 48, 0, false⟩)] (f w.val.toNat)

/-- JR. -/
def execJr (core : Nat) (f : RF) : State → Host.Outcome State Fault Refusal :=
  runInsn core (encR 0x2A f 0) fun s =>
    chk s [ill (f.d ≠ 0 ∨ f.b ≠ 0 ∨ f.e ≠ 0)] <| jumpReg s (reg s core f.a) fun a => .goto s a

/-- CALLR. -/
def execCallr (core : Nat) (f : RF) : State → Host.Outcome State Fault Refusal :=
  runInsn core (encR 0x2A f 1) fun s =>
    chk s [ill (f.d ≠ 0 ∨ f.b ≠ 0 ∨ f.e ≠ 0)] <| jumpReg s (reg s core f.a) fun a => callTo s core a

/-- RET (R228). -/
def execRet (core : Nat) (f : RF) : State → Host.Outcome State Fault Refusal :=
  runInsn core (encR 0x2A f 2) fun s =>
    let link := reg s core 28
    let ssp := (getCore s core).ssp
    chk s [ill (f.d ≠ 0 ∨ f.a ≠ 0 ∨ f.b ≠ 0 ∨ f.e ≠ 0)] <| consume s [link] <|
    chk s [(link.tag == tRETADDR && !retOk link.val, ⟨cTAGTRAP, rBADPTR, link.val.toNat % 2 ^ 48, 0, false⟩)] <|
      (ptrChk s ssp.val kPOP).fin fun s0 a => (ldWord s0 core a kPOP 64).fin fun s1 y =>
        if link.tag ≠ tRETADDR then .trap s1 ⟨cSSMISMATCH, 2, a, kPOP, false⟩
        else if link ≠ y.2 then .trap s1 ⟨cSSMISMATCH, 1, a, kPOP, false⟩
        else .goto (updCore s1 core (fun k => { k with ssp := ⟨ssp.tag, ssp.val + 8⟩ })) link.val.toNat

end Sys2Proof.Machine
end

