-- ==== Sys2Proof/Machine/SysOps.lean ====
section
/-! DEFINITION. System instructions: FENCE, RETX, the TLB instructions, control registers, SYSC (R236 to R239, R244, R256,
R271 to R273, R279, R280). -/
namespace Sys2Proof.Machine

open Sys2Proof

/-- FENCE: accesses are in program order in this model, so it only retires. [log 119 DESIGN CHOICE, safe] -/
def execFence (core : Nat) (f : RF) : State → Host.Outcome State Fault Refusal :=
  runInsn core (encR 0x30 f 0) fun s =>
    chk s [ill (f.d ≠ 0 ∨ f.a ≠ 0 ∨ f.b ≠ 0 ∨ f.e ≠ 0), prv (lvlOf s core = 0)] (.done s)

/-- FENCE.I: no fetched instruction is held in this model. [log 119 DESIGN CHOICE, safe; log 130 DESIGN CHOICE, safe] -/
def execFenceI (core : Nat) (f : RF) : State → Host.Outcome State Fault Refusal :=
  runInsn core (encR 0x30 f 1) fun s =>
    chk s [ill (f.d ≠ 0 ∨ f.a ≠ 0 ∨ f.b ≠ 0 ∨ f.e ≠ 0), prv (lvlOf s core = 0)] (.done s)

/-! ### RETX (R238, R256) -/

/-- STATUS as restored from a saved word: EG, ESI and SR read 0; entering U sets MASK to 0. -/
def restored (v : Nat) : Nat :=
  let a := setBits (setBits (setBits v 7 1 0) 20 1 0) 21 1 0
  if bits a 0 2 = 0 then setBits a 4 3 0 else a

/-- RETX. -/
def execRetx (core : Nat) (f : RF) : State → Host.Outcome State Fault Refusal :=
  runInsn core (encR 0x30 f 2) fun s =>
    let k := getCore s core
    let m := k.level = 2
    let ret := if m then k.mepc else k.epc
    let st := if m then k.mestatus else k.estatus
    chk s [ill (f.d ≠ 0 ∨ f.a ≠ 0 ∨ f.b ≠ 0 ∨ f.e ≠ 0), prv (k.level = 0),
           tagIf (ret.tag != tRETADDR) rTYPE,
           (!retOk ret.val, ⟨cTAGTRAP, rBADPTR, ret.val.toNat % 2 ^ 48, 0, false⟩)]
      (.goto (updCore s core (fun k =>
        { k with status := restored st.val.toNat, restart := if k.level = 1 then false else k.restart })) ret.val.toNat)

/-! ### The TLB (R269 to R273) -/

/-- A range lies in DRAM (Table 10.2). -/
def inDram (s : State) (a n : Nat) : Bool := decide (a + n ≤ fget s bMEM 0x14 0 16 * 2 ^ 30)

/-- A range lies wholly inside one enabled physical window of a tenant (R310). -/
def inTenantWindow (s : State) (t a n : Nat) : Bool :=
  (List.range 4).any (fun i =>
    let b := fget s bMEM (0x1000 + 0x20 * t + 8 * i) 0 25 * 2 ^ 21
    let l := fget s bMEM (0x1004 + 0x20 * t + 8 * i) 0 25 * 2 ^ 21
    decide (l > b ∧ b ≤ a ∧ a + n ≤ l))

/-- The entry that TLBW operands describe. -/
def entryOf (tag data : BitVec 64) (pte : Nat) : TlbEnt :=
  { asid := bits tag.toNat 0 8, va := bits tag.toNat 13 35 * 0x2000, size := bits data.toNat 11 2, img := data, pte := pte }

/-- The page of an entry. -/
def entryPa (e : TlbEnt) : Nat := bits e.img.toNat 13 33 * 0x2000

/-- The first failing check of Table 10.5. -/
def tlbwTrap (s : State) (c : Nat) (idx tg da pt : TWord) : Option Trap :=
  let k := getCore s c
  let e := entryOf tg.val da.val pt.val.toNat
  let n := pageBytes e.size
  let pa := entryPa e
  let space := e.asid % 4
  let ty := pteTyp e
  let i := sval idx
  firstTrap [
    tagIf (idx.tag != tINT || decide (i < -1 ∨ i > 255) || tg.tag != tRAW || da.tag != tRAW || pt.tag != tRAW) rTYPE,
    ill (bits tg.val.toNat 8 5 ≠ 0 ∨ tg.val.toNat ≥ 2 ^ 48 ∨ da.val.toNat ≥ 2 ^ 46 ∨ space = 2 ∨ (space = 3 ∧ e.asid ≠ 0xFF)
      ∨ e.size = 3 ∨ pteBit e 0 = false ∨ e.va % n ≠ 0 ∨ pa % n ≠ 0 ∨ e.pte % 8 ≠ 0),
    ill ((pteBit e 3 = true ∧ ty ≠ 0) ∨ (pteBit e 4 = true ∧ (ty ≠ 0 ∨ e.asid = 0xFF))
      ∨ (ty ≠ 3 ∧ inDram s pa n = false) ∨ (ty = 3 ∧ ¬ (0x3F0000000000 ≤ pa ∧ pa + n ≤ 0x3F0000400000)) ∨ inDram s e.pte 8 = false),
    prv (k.level == 1 && (e.asid != k.asid || ty == 3 || !inTenantWindow s (k.asid / 4) pa n || !inTenantWindow s (k.asid / 4) e.pte 8
      || (pteBit e 2 && k.tlb.any (fun p => pteTyp p.2 == 2 && decide (entryPa p.2 < pa + n ∧ pa < entryPa p.2 + pageBytes p.2.size)))))]

/-- Two entries of one ASID overlap. -/
def overlaps (a b : TlbEnt) : Bool :=
  a.asid == b.asid && decide (a.va < b.va + pageBytes b.size ∧ b.va < a.va + pageBytes a.size)

/-- The entry written (R272): overlapped entries of the ASID first removed; index −1 takes the replacement pointer, which
then advances through 8 to 255. -/
def tlbWrite (k : Core) (i : Int) (e : TlbEnt) : Core :=
  let l := k.tlb.filter (fun p => !overlaps p.2 e)
  if i < 0 then { k with tlb := ins l k.repl e, repl := if k.repl ≥ 255 then 8 else k.repl + 1 }
  else { k with tlb := ins l i.toNat e }

/-- TLBW: rd index, ra tag word, rb data word, rd2 PTE address. -/
def execTlbw (core : Nat) (f : RF) : State → Host.Outcome State Fault Refusal :=
  runInsn core (encR 0x30 f 3) fun s =>
    let idx := reg s core f.d
    let tg := reg s core f.a
    let da := reg s core f.b
    let pt := reg s core f.e
    chk s [prv (lvlOf s core = 0)] <| consume s [idx, tg, da, pt] <|
      match tlbwTrap s core idx tg da pt with
      | some t => .trap s t
      | none => .done (updCore s core (fun k => tlbWrite k (sval idx) (entryOf tg.val da.val pt.val.toNat)))

/-- An operand that names an ASID or an address: RAW or INT. -/
def rawOrInt (w : TWord) : Bool := w.tag == tRAW || w.tag == tINT

/-- TLBI.VA. -/
def execTlbiVa (core : Nat) (f : RF) : State → Host.Outcome State Fault Refusal :=
  runInsn core (encR 0x30 f 4) fun s =>
    let w := reg s core f.a
    let k := getCore s core
    let asid := bits w.val.toNat 0 8
    let va := bits w.val.toNat 13 35 * 0x2000
    chk s [ill (f.d ≠ 0 ∨ f.b ≠ 0 ∨ f.e ≠ 0), prv (k.level = 0)] <| consume s [w] <|
    chk s [tagIf (!rawOrInt w) rTYPE, prv (k.level == 1 && asid != k.asid)]
      (.done (updCore s core (fun k => { k with tlb := k.tlb.filter (fun p =>
        !(p.2.asid == asid && decide (p.2.va ≤ va ∧ va < p.2.va + pageBytes p.2.size))) })))

/-- TLBI.ASID. -/
def execTlbiAsid (core : Nat) (f : RF) : State → Host.Outcome State Fault Refusal :=
  runInsn core (encR 0x30 f 5) fun s =>
    let w := reg s core f.a
    let k := getCore s core
    let asid := bits w.val.toNat 0 8
    chk s [ill (f.d ≠ 0 ∨ f.b ≠ 0 ∨ f.e ≠ 0), prv (k.level = 0)] <| consume s [w] <|
    chk s [tagIf (!rawOrInt w) rTYPE, prv (k.level == 1 && asid != k.asid)]
      (.done (updCore s core (fun k => { k with tlb := k.tlb.filter (fun p => p.2.asid != asid) })))

/-- TLBI.ALL. -/
def execTlbiAll (core : Nat) (f : RF) : State → Host.Outcome State Fault Refusal :=
  runInsn core (encR 0x30 f 6) fun s =>
    chk s [ill (f.d ≠ 0 ∨ f.a ≠ 0 ∨ f.b ≠ 0 ∨ f.e ≠ 0), prv (lvlOf s core ≠ 2)]
      (.done (updCore s core (fun k => { k with tlb := [] })))

/-! ### Control registers (R236, R242, R244, R255, R279, R280) -/

/-- A control register number is assigned (Table 8.11). -/
def crKnown (n : Nat) : Bool := decide (n ≤ 4) || decide (8 ≤ n ∧ n ≤ 0x17) || decide (0x100 ≤ n ∧ n ≤ 0x104)

/-- A control register is reserved to M. -/
def crM (n : Nat) : Bool := decide (0x100 ≤ n)

/-- A control register is read-only. -/
def crRo (n : Nat) : Bool := n == 3 || n == 0x17 || n == 0x102

/-- A control register as read. -/
def crRead (s : State) (c n : Nat) : TWord :=
  let k := getCore s c
  match n with
  | 0x000 => tw tRAW k.status
  | 0x001 => k.epc
  | 0x002 => k.estatus
  | 0x003 => k.tinfo
  | 0x004 => k.sstack
  | 0x008 => k.alimit
  | 0x009 => k.idctr
  | 0x00A => k.ctxhead
  | 0x00B => k.cardbase
  | 0x014 => k.ssp
  | 0x015 => k.uicnt
  | 0x016 => wInt (k.outstanding % 256 + 256 * b2n k.dropped)
  | 0x017 => wInt (reqOf c)
  | 0x100 => k.mepc
  | 0x101 => k.mestatus
  | 0x102 => k.mtinfo
  | 0x103 => k.mstack
  | 0x104 => k.ctxwin
  | _ => (k.condemn[n - 0xC]?).getD wZero

/-- The checks of the number and level of a control-register access (R236). -/
def crChecks (s : State) (c : Nat) (f : IF) (write : Bool) : List (Bool × Trap) :=
  let n := bits (uimm f) 0 12
  [ill (f.ra ≠ 0 ∨ uimm f ≥ 0x1000 ∨ crKnown n = false),
   prv (lvlOf s c == 0 || (lvlOf s c == 1 && crM n) || (write && crRo n))]

/-- MFCR. -/
def execMfcr (core : Nat) (f : IF) : State → Host.Outcome State Fault Refusal :=
  runInsn core (encI 0x31 f) fun s =>
    chk s (crChecks s core f false) (deliver s core f.rd.toNat (crRead s core (bits (uimm f) 0 12)))

/-- Fields of a word copied into another. [log 115 DEDUCED, unsafe] -/
def copyFields (old v : Nat) (fs : List (Nat × Nat)) : Nat := fs.foldl (fun a p => setBits a p.1 p.2 (bits v p.1 p.2)) old

/-- STATUS written (Table 9.3): MASK 7 leaves MASK as it is (R242); ASID at M. [log 115 DEDUCED, unsafe] -/
def statusWrite (k : Core) (v : Nat) : Nat :=
  copyFields k.status v
    ((if bits v 4 3 = 7 then [] else [(4, 3)]) ++ [(8, 4), (12, 5)] ++ (if k.level = 2 then [(24, 8)] else []))

/-- A saved status word written: at S MASK, DIRTY, LMPROG and LEVEL to U or S; at M all, but SR of ESTATUS. LEVEL never
becomes 0b11. [log 115 DEDUCED, unsafe] -/
def savedWrite (k : Core) (old v : Nat) (sr : Bool) : Nat :=
  let lvl := bits v 0 2
  if k.level = 2 then
    copyFields old v ((if lvl = 3 then [] else [(0, 2)]) ++ [(4, 3), (7, 1), (8, 4), (12, 5), (21, 1), (24, 8)] ++ (if sr then [(20, 1)] else []))
  else copyFields old v ((if lvl ≤ 1 then [(0, 2)] else []) ++ [(4, 3), (8, 4), (12, 5)])

/-- The handler's write of its own level's stack register ends the entry guard (R255). -/
def unguard (k : Core) (lvl : Nat) : Core :=
  if k.level = lvl then { k with status := setBits k.status 7 1 0, egCount := 0 } else k

/-- The cores that a send reaches (Table 10.6, R280), and whether it is dropped. [log 116 DEDUCED, safe] -/
def ipiTargets (s : State) (c v : Nat) : List Nat × Bool :=
  let k := getCore s c
  let mine (d : Nat) : Bool := k.tenant.isSome && (getCore s d).tenant == k.tenant
  let all := (List.range 0x60).filter (fun d => d != c && inService s d)
  if bit v 7 then (if k.level = 2 then all else all.filter mine, false)
  else
    let d := v % 128
    if (if k.level = 2 then decide (d ≤ 0x60) && inService s d else decide (d < 0x60) && inService s d && mine d) then ([d], false)
    else ([], true)

/-- An interrupt raised on a core; one pending of the same kind absorbs it. [log 116 DEDUCED, safe] -/
def raiseIpi (s : State) (d cause init : Nat) : State :=
  updCore s d (fun k =>
    { k with pend := if k.pend.contains cause then k.pend else cause :: k.pend
             ipiFrom := if cause = cIPI_S then init :: k.ipiFrom else k.ipiFrom })

/-- IPISEND written (R279, R280). [log 116 DEDUCED, safe] -/
def ipiWrite (s : State) (c v : Nat) : State :=
  if bit v 9 then
    let i := v % 128
    if i ≤ 0x60 ∧ (getCore s i).outstanding > 0 then
      updCore (updCore s i (fun k => { k with outstanding := k.outstanding - 1 })) c (fun k => { k with ipiFrom := k.ipiFrom.erase i })
    else updCore s c (fun k => { k with dropped := true })
  else
    let t := ipiTargets s c v
    let s1 := updCore s c (fun k => { k with outstanding := k.outstanding + t.1.length, dropped := t.2 })
    t.1.foldl (fun a d => raiseIpi a d (if bit v 8 then cIPI_M else cIPI_S) c) s1

/-- A control register written: the trap of its own rule, or the state. [log 115 DEDUCED, unsafe] -/
def crWrite (s : State) (c n : Nat) (w : TWord) : IRes :=
  let v := w.val.toNat
  let set (f : Core → Core) : IRes := .done (updCore s c f)
  let typed (f : Core → Core) : IRes := chk s [tagIf (!rawOrInt w) rTYPE] (set f)
  match n with
  | 0x000 => typed (fun k =>
      { k with status := statusWrite k v, tenant := if k.level = 2 then (if bits v 24 2 < 2 then some (bits v 26 6) else none) else k.tenant })
  | 0x001 => set (fun k => { k with epc := w })
  | 0x002 => typed (fun k => { k with estatus := tw tRAW (savedWrite k k.estatus.val.toNat v false) })
  | 0x004 => set (fun k => unguard { k with sstack := w } 1)
  | 0x008 => set (fun k => { k with alimit := w })
  | 0x009 => set (fun k => { k with idctr := w })
  | 0x00A => set (fun k => { k with ctxhead := w })
  | 0x00B => set (fun k => { k with cardbase := w })
  | 0x014 => set (fun k => { k with ssp := w })
  | 0x015 => set (fun k => { k with uicnt := w })
  | 0x016 => chk s [tagIf (!rawOrInt w) rTYPE, prv (bit v 8 && !bit v 9 && lvlOf s c != 2)] (.done (ipiWrite s c v))
  | 0x100 => set (fun k => { k with mepc := w })
  | 0x101 => typed (fun k => { k with mestatus := tw tRAW (savedWrite k k.mestatus.val.toNat v true) })
  | 0x103 => set (fun k => unguard { k with mstack := w } 2)
  | 0x104 => chk s [tagIf (w.tag != tCTXREF && w.tag != tNIL) rTYPE,
                    (w.tag == tCTXREF && !windowOk s c w, accFault aCTXWIN)] (set (fun k => { k with ctxwin := w }))
  | _ => set (fun k => { k with condemn := upd k.condemn (n - 0xC) (fun _ => w) })

/-- MTCR. [log 115 DEDUCED, unsafe] -/
def execMtcr (core : Nat) (f : IF) : State → Host.Outcome State Fault Refusal :=
  runInsn core (encI 0x32 f) fun s =>
    let w := reg s core f.rd.toNat
    chk s (crChecks s core f true) <| consume s [w] <| crWrite s core (bits (uimm f) 0 12) w

/-! ### SYSC (R239) -/

/-- A context bank registered with the firmware, in place of one of the same number (9.7). -/
def registerBank (s : State) (b : Bank) : State :=
  { s with cpu.banks := b :: s.cpu.banks.filter (fun x => !(x.tenant == b.tenant && x.ctx == b.ctx)) }

/-- SYSC: it retires and takes the system-call exception. `bank` is the context bank, by number and physical address,
that the tenant runtime's call registers with the firmware, where it registers one (9.7). -/
def execSysc (core : Nat) (f : IF) (bank : Option (Nat × Nat)) : State → Host.Outcome State Fault Refusal :=
  runInsn core (encI 0x33 f) fun s =>
    let k := getCore s core
    let s1 := if k.level = 0 then updCore s core countU else s
    let s2 := match bank with
      | some b => if k.level = 1 then registerBank s1 ⟨k.asid / 4, b.1, b.2⟩ else s1
      | none => s1
    chk s [ill (f.rd ≠ 0 ∨ f.ra ≠ 0 ∨ k.level = 2)] (.trap s2 ⟨cSYSCALL, uimm f, 0, 0, true⟩)

end Sys2Proof.Machine
end

