-- ==== Sys2Proof/Machine/CoreEvt.lean ====
section
/-! DEFINITION. Events of the cores, pairs, coprocessor units and DRAM: interrupts, timeouts, tests, entropy health, the
patrol (R251, R259, R307, R308, R320, R336, R341, R348, R350, R598 to R601). -/
namespace Sys2Proof.Machine

open Sys2Proof

/-! ### Interrupts (R251) -/

/-- The tenant's run queue, or its inputs that await a re-run, are not empty. [log 120 DEDUCED, unsafe] -/
def queueWaits (s : State) (t : Nat) : Bool :=
  !(lkD s.awp.runq t []).isEmpty || s.awp.inputs.any (fun i => i.tenant == t && i.rerun)

/-- An interrupt cause is pending on a core. DISPATCH follows the run queue; IPI_S and IPI_M are held; the timers and the
device blocks are signals of their own, present where the command says so. -/
def pending (s : State) (c cause : Nat) : Bool :=
  let k := getCore s c
  if cause = cDISPATCH then (match k.tenant with | some t => decide (c < 0x60) && queueWaits s t | none => false)
  else if cause = cIPI_S ∨ cause = cIPI_M then k.pend.contains cause
  else cause == cSTIMER || cause == cMTIMER || cause == cDEVINT

/-- The core can take an interrupt cause now: an issued effectful operation is completed first (R339). -/
def takeable (k : Core) (cause : Nat) : Bool :=
  (match causeLevel cause with | some l => decide (l > k.mask) | none => false) && !k.eg && k.granted.isNone
    && !(causeTarget cause k.level == 1 && k.level == 2)

/-- Cause a goes before cause b: the higher level, then the lower number. -/
def before (a b : Nat) : Bool :=
  decide ((causeLevel a).getD 0 > (causeLevel b).getD 0 ∨ ((causeLevel a).getD 0 = (causeLevel b).getD 0 ∧ a < b))

/-- INTERRUPT_TAKE: entry to the cause's target, saving the resume point; steady-rest where the stack check fails. -/
def execInterruptTake (core cause : Nat) (s : State) : Host.Outcome State Fault Refusal :=
  let k := getCore s core
  let rivals := [cDISPATCH, cIPI_S, cIPI_M].filter (fun x => pending s core x && takeable k x && before x cause)
  if coreAble s core && pending s core cause && takeable k cause && rivals.isEmpty then
    let lvl := causeTarget cause k.level
    let s1 := updCore s core (fun k => { k with pend := k.pend.filter (· ≠ cause) })
    if stackOk k lvl then .next (updCore s1 core (fun k => enterCore k lvl cause k.pc 0))
    else .next (restartPartner s (escalate s1 core cause 0 lvl 2 k.pc 0) core)
  else .next s

/-! ### Timeouts -/

/-- CORE_WATCHDOG_EXPIRE: 2^20 CCLK cycles, 131,072 × CCLKEFF ticks of TCLK, without a retirement stop the core (R259). -/
def execCoreWatchdogExpire (core : Nat) (s : State) : Host.Outcome State Fault Refusal :=
  if coreAble s core && decide (s.since (getCore s core).lastRet ≥ 131072 * s.tim.cclkEff) then
    .next (restartPartner s (stopCore s core 0 0) core)
  else .next s

/-- UWAIT_TIMEOUT: a microcode wait of a core at a micro-address, reached by redirection or not, ends with MCHECK UWAIT
(R320). [log 120 DEDUCED, unsafe] -/
def execUwaitTimeout (core uaddr : Nat) (redir : Bool) (s : State) : Host.Outcome State Fault Refusal :=
  if coreAble s core then
    let s1 := bumpSat s bUCD 0x40 0 32 1
    let s2 := if fget s1 bUCD 0x48 24 1 = 1 then s1
      else rawSet s1 bUCD 0x48 (uaddr % 2 ^ 15 + 2 ^ 15 * b2n redir + 2 ^ 16 * reqOf core + 2 ^ 24)
    .next (trapCore s2 core (mCheck 1))
  else .next s

/-- PAIR_WAIT_TIMEOUT: a core of a pair has presented an operation and its partner has not within PAIRWAIT µs (R348). A
presentation without a binding is that of a paired TAKE. -/
def execPairWaitTimeout (core : Nat) (s : State) : Host.Outcome State Fault Refusal :=
  let k := getCore s core
  match k.present with
  | some p =>
    if coreAble s core && (match k.bind with | some b => b.paired | none => true)
        && (getCore s (partner core)).present.isNone
        && decide (s.since p.since ≥ ticksOfUs (fget s (bCLU + core / 8) 0x110 0 8)) then
      .next (pairFault s core 2 (match k.bind with | some b => b.pos | none => 0) p.unit p.op)
    else .next s
  | none => .next s

/-- APPEND_WAIT_TIMEOUT: an APPEND held un-issued for APPWAIT µs ends with MCHECK COPERR and issues nothing (R336). -/
def execAppendWaitTimeout (core : Nat) (s : State) : Host.Outcome State Fault Refusal :=
  match (getCore s core).present with
  | some p =>
    if coreAble s core && p.unit == 3 && p.op == 2
        && decide (s.since p.since ≥ ticksOfUs (fget s (bCLU + core / 8) 0x110 16 8)) then
      .next (trapCore s core (mCheck 6))
    else .next s
  | none => .next s

/-- The pairs of a tenant: both cores assigned to it. -/
def tenantPairs (s : State) (t : Nat) : List Nat :=
  (List.range 48).filter (fun k => (getCore s (2 * k)).tenant == some t && (getCore s (2 * k + 1)).tenant == some t)

/-- A pair whose cores and itself are in service. -/
def pairUsable (s : State) (k : Nat) : Bool := pairInService s k && inService s (2 * k) && inService s (2 * k + 1)

/-- CLU.PAIR or CLU.STRICT of a tenant in a cluster. -/
def pairSet (s : State) (cl t : Nat) : Bool := bit (rawGet s (bCLU + cl) (0x100 + 4 * (t / 32))) (t % 32)
def strictSet (s : State) (cl t : Nat) : Bool := bit (rawGet s (bCLU + cl) (0x108 + 4 * (t / 32))) (t % 32)

/-- PAIR_UNAVAILABLE_TIMEOUT: a paired tenant whose oldest waiting input has waited 1 ms has had no in-service pair; cause
PAIR, and the waiting inputs run on single cores (R350). [log 120 DEDUCED, unsafe] -/
def execPairUnavailableTimeout (tenant : Nat) (s : State) : Host.Outcome State Fault Refusal :=
  let waits := s.awp.inputs.filter (fun i => i.tenant == tenant && (i.rerun || (lkD s.awp.runq tenant []).contains i.seq))
  let lastGone := (tenantPairs s tenant).foldl (fun a k => match (getPairInfo s k).removals with | t :: _ => max a t | [] => a) 0
  if (List.range 12).any (fun cl => pairSet s cl tenant) && waits.any (fun i => decide (i.tai + 1000000 ≤ s.now))
      && (tenantPairs s tenant).all (fun k => !pairUsable s k) && decide (s.since lastGone ≥ ticksOfMs 1) && !(s.inMode .hold) then
    let s1 := setCauseTenant s tenant cPAIR s.now 0
    .next { s1 with awp.inputs := s1.awp.inputs.map (fun i => if i ∈ waits then { i with single := true } else i) }
  else .next s

/-! ### Tests (R598, R600) -/

/-- CORE_SELFTEST_COMPLETE: a stopped rule core, 64 µs after its stop, returns reset where the test passes and it has not
been stopped three times within 24 h; else it stays out. -/
def execCoreSelftestComplete (core : Nat) (pass : Bool) (s : State) : Host.Outcome State Fault Refusal :=
  let k := getCore s core
  if core < 0x60 ∧ k.runs = false ∧ k.tested = false ∧ k.stops.any (fun t => decide (s.since t ≥ ticksOfUs 64)) = true then
    let often := decide ((k.stops.filter (fun t => decide (s.since t ≤ ticksOfS 86400))).length ≥ 3)
    let back := pass && !often
    let s1 := if back then
        setService (setCore s core { coreReset with stops := k.stops, srCount := k.srCount, lastRet := s.tim.ticks }) core true
      else updCore s core (fun k => { k with tested := true })
    .next (eventD s1 9 kOTHER 0x0C82 [core, b2n back] 0)
  else .next s

/-- PAIR_TEST_COMPLETE: a removed pair returns with its window cleared where the test passes and it has not been removed
three times within 24 h. -/
def execPairTestComplete (pair : Nat) (pass : Bool) (s : State) : Host.Outcome State Fault Refusal :=
  let i := getPairInfo s pair
  if pair < 48 ∧ pairInService s pair = false ∧ i.failed = false then
    let often := decide ((i.removals.filter (fun t => decide (s.since t ≤ ticksOfS 86400))).length ≥ 3)
    if pass && !often then
      .next (eventD { setPairService s pair true with cpu.pairs := ins s.cpu.pairs pair { i with window := [] } } 9 kOTHER 0x0C85 [pair, 3] 0)
    else .next { s with cpu.pairs := ins s.cpu.pairs pair { i with failed := true } }
  else .next s

/-! ### Entropy (R341, R601) -/

/-- A reseed of a cluster's DRBG. [log 121 DEDUCED, safe] -/
def reseed (s : State) (cl : Nat) : State :=
  bumpSat { s with cpu.draws := ins s.cpu.draws cl 0, cpu.reseedAt := ins s.cpu.reseedAt cl s.tim.ticks } (bCLU + cl) 0x204 0 32 1

/-- DRBG_RESEED_TIMER: CLU.RESEED seconds have passed since the last reseed. -/
def execDrbgReseedTimer (cluster : Nat) (s : State) : Host.Outcome State Fault Refusal :=
  if cluster < 12 ∧ s.since (lkD s.cpu.reseedAt cluster 0) ≥ ticksOfS (fget s (bCLU + cluster) 0x114 0 6) then .next (reseed s cluster)
  else .next s

/-- A unit's counter of a cluster: 0 ISSUED, 4 COMPLETED, 8 CANCELLED, 12 FAULTED. [log 122 DEDUCED, unsafe] -/
def copCount (s : State) (cl unit which : Nat) : State := if cl ≥ 12 then s else bumpWrap s (bCLU + cl) (0x120 + 0x10 * unit + which) 0 32 1

/-- ENTROPY_TEST_FAIL: the repetition-count test (kind 1) or the adaptive-proportion test (kind 2) of a cluster fails; the
operation in progress for a core ends with MCHECK COPERR; the cluster is withheld. [log 121 DEDUCED, safe] -/
def execEntropyTestFail (cluster kind : Nat) (busy : Option Nat) (s : State) : Host.Outcome State Fault Refusal :=
  if cluster < 12 ∧ (kind = 1 ∨ kind = 2) then
    let b := bCLU + cluster
    let s1 := fset (fset s b 0x200 0 1 0) b 0x200 kind 1 1
    let s2 := fset s1 bHLT 0x2C cluster 1 1
    let s3 := eventD s2 9 kFAULT 0x0C86 [cluster, kind] 0
    match busy with
    | some c => if c / 8 = cluster ∧ coreAble s3 c = true then
        .next (trapCore (copCount (copCount s3 cluster 1 0) cluster 1 12) c (mCheck 6)) else .next s3
    | none => .next s3
  else .next s

/-- ENTROPY_RESTORE: the start-up tests pass on 1,024 samples; the noise source is healthy and a withheld cluster returns. [log 121 DEDUCED, safe] -/
def execEntropyRestore (cluster : Nat) (s : State) : Host.Outcome State Fault Refusal :=
  if cluster < 12 ∧ fget s (bCLU + cluster) 0x200 0 1 = 0 then
    let s1 := fset s (bCLU + cluster) 0x200 0 1 1
    if fget s1 bHLT 0x2C cluster 1 = 1 then
      .next (eventD (fset s1 bHLT 0x2C cluster 1 0) 9 kFAULT 0x0C86 [cluster, 3] 0)
    else .next s1
  else .next s

/-! ### DRAM (R307, R308) -/

/-- DRAM_PATROL_READ of a line: uncorrectable; or corrected on a device and written back; or sound. -/
def execDramPatrolRead (addr : Nat) (uncorrectable : Bool) (corrected : Option Nat) (s : State) : Host.Outcome State Fault Refusal :=
  if uncorrectable then .next (dramUe s addr 1)
  else match corrected with
    | some dev => .next (dramCe s (channelOf s (addr / 64 * 64)) dev)
    | none => .next s

end Sys2Proof.Machine
end

