-- ==== Sys2Proof/Machine/Replay1.lean ====
section
/-! DEFINITION. Sales-state changes carried by grains of a record, and the course of a replay run: divergences, findings,
the replay journal, the end (R408, R538 to R544). -/
namespace Sys2Proof.Machine

open Sys2Proof

/-! ### Sales-state changes of a grain (R408, R538) -/

/-- The big-endian number in n bytes of a body at an offset. -/
def bodyNum (b : List Byte) (off n : Nat) : Nat := ofBe ((b.drop off).take n)

/-- Parameter i of an event body (R593). -/
def evPar (b : List Byte) (i : Nat) : Nat := bodyNum b (8 + 8 * i) 8

/-- An entry set from the words of a CONFIG BOOK body (Tables 6.1 and 17.3). -/
def applyBook (s : State) (t : Nat) (h : Hdr) (body : List Byte) : State :=
  let w3 := bodyNum body 28 4
  changeBook s t h.book h.tai (fun k =>
    { k with pb := bodyNum body 16 4 + bodyNum body 20 4 * 2 ^ 32, margin := bodyNum body 24 4,
             st := votedOf (bits w3 0 3), cause := bits w3 4 7 })

/-- The books that a SALES event lists. -/
def listedBooks (body : List Byte) : List Nat :=
  (List.range 4096).filter (fun b => bit (evPar body (2 + b / 64)) (b % 64))

/-- The change of a SALES event on one book: causes set or cleared. -/
def applyCause (set mask : Nat) (k : Book) : Book :=
  if set = 1 then { k with cause := k.cause ||| mask, st := votedOf Sales.suspended.code }
  else
    let m := k.cause &&& (127 ^^^ mask)
    { k with cause := m, st := if m = 0 then votedOf Sales.open.code else k.st }

/-- A PART, CONFIG or EVENT grain applies its sales-state change to tenant t's entries; another grain changes none. -/
def applySales (s : State) (t : Nat) (h : Hdr) (body : List Byte) : State :=
  if h.typ = 4 then
    changeBook s t h.book h.tai (fun k => { k with st := votedOf Sales.parting.code, cause := 0 })
  else if h.typ = 6 ∧ h.kind = 2 then applyBook s t h body
  else if h.typ = 9 ∧ h.kind = 3 then
    changeBook s t h.book h.tai (fun k => { k with st := votedOf Sales.closed.code, cause := 0 })
  else if h.typ = 9 ∧ h.kind = 4 then
    (listedBooks body).foldl (fun a b => changeBook a t b h.tai (applyCause (evPar body 0) (evPar body 1))) s
  else s

/-- A SHADOW applies the sales-state changes of the grains that it has chained from number n on (R408, R418). -/
def applyChained (s : State) (t n : Nat) : State :=
  if mirroredHere s t then
    (((strm s t).grains.filter (fun g => decide (n ≤ g.seq))).reverse).foldl (fun a g => applySales a t g.hdr g.body) s
  else s

/-! ### The course of a run -/

/-- The tenant's entries set to DORMANT (R537). -/
def dormantAll (s : State) (t : Nat) : State :=
  (booksOf s t).foldl (fun a b => changeBook a t b a.now (fun k => { k with st := votedOf 0, cause := 0 })) s

/-- The run ends in a state of Table 21.5: 2 DONE, 3 DIVERGED, 4 STOPPED. -/
def finishRun (s : State) (st : Nat) : State :=
  match s.rpl.run with
  | none => s
  | some r => rawSet { dormantAll s r.tenant with rpl.run := none } bRPL 0x2C st

/-- The imported set of a run. -/
def runSet (s : State) (t : Nat) : ImpSet := lkD s.rpl.sets t ⟨0, 0, 0, 0, [], [], 0, 0⟩

/-- The recorded grain n of a run's tenant. -/
def recGrain (s : State) (t n : Nat) : Option ImpGrain := (runSet s t).grains.find? (fun g => g.seq == n)

/-- The recorded digest of grain n, before the first grain the digest that precedes the set. -/
def recDigest (s : State) (t n : Nat) : Digest :=
  match recGrain s t n with | some g => g.digest | none => (runSet s t).prev

/-- The capture of the first divergence (R543, Table 21.5). -/
def captureDiv (s : State) (f : Finding) : State :=
  if fget s bRPL 0x38 31 1 = 1 then s
  else
    let s1 := rawSet s bRPL 0x38 (f.kind + 2 ^ 8 * (f.pos % 2 ^ 16) + 2 ^ 31)
    let s2 := set64 s1 bRPL 0x40 f.seq
    let w (d : Digest) (i : Nat) : Nat := bits d.toNat (32 * (7 - i)) 32
    let rep := f.repDig.getD 0
    rawSet (rawSet (rawSet (rawSet s2 bRPL 0x48 (w f.recDig 0)) bRPL 0x4C (w f.recDig 1)) bRPL 0x50 (w rep 0)) bRPL 0x54 (w rep 1)

/-- A divergence: captured; with CROSS set kept as a finding and counted, else the run stops (R543, R544). -/
def divergence (s : State) (f : Finding) : State :=
  let s1 := captureDiv s f
  match s.rpl.run with
  | none => s
  | some r =>
    if r.cross then
      bumpSat { s1 with rpl.findings := if s.rpl.findings.length < 65536 then s.rpl.findings ++ [f] else s.rpl.findings } bRPL 0x60 0 32 1
    else finishRun s1 3

/-- The run moves past a grain: DONE after THROUGH, STOPPED where QUIET was asked for (R542). -/
def advanceRun (s : State) : State :=
  match s.rpl.run with
  | none => s
  | some r =>
    let s1 := set64 { s with rpl.run := some { r with pos := r.pos + 1, cur := none } } bRPL 0x30 (r.pos + 1)
    if r.pos ≥ r.through then finishRun s1 2 else if r.stopAsked then finishRun s1 4 else s1

/-- The grain at the run's position is written to the replay journal as imported. -/
def writeRecorded (s : State) : State :=
  match s.rpl.run with
  | none => s
  | some r => match recGrain s r.tenant r.pos with
    | some g => advanceRun (rjAppend s r.tenant g)
    | none => advanceRun s

/-- A divergence in the evaluation of the run's grain, found on core c: the evaluation is given up, and with CROSS set the
recorded grain is written in place of the replay grain. [log 125 DEDUCED, unsafe] -/
def divergeAt (s : State) (c kind pos : Nat) (rep : Option Digest) : State :=
  match s.rpl.run with
  | none => s
  | some r =>
    let cs := evalCores s c
    let s1 := divergence (cs.foldl dropBind s) ⟨kind, r.pos, pos, recDigest s r.tenant r.pos, rep⟩
    cs.foldl deliverRestart (if r.cross then writeRecorded s1 else s1)

end Sys2Proof.Machine
end

