-- ==== Sys2Proof/Machine/Cop.lean ====
section
/-! DEFINITION. The coprocessor operations of Table 13.1: their operands, pure operations with their start and squash,
effectful operations with binding, log, substitution and pair comparison (chapter 13, R424, R522, R539). -/
namespace Sys2Proof.Machine

open Sys2Proof

/-! ### Operands -/

/-- A word that an operation consumes, checked for its tag. -/
def wantTag (s : State) (w : TWord) (t : BitVec 8) : Acs Unit :=
  match consumeTrap [w] with
  | some x => .trap s x
  | none => if w.tag = t then .ok s () else .trap s (tagTrap rTYPE)

/-- The bytes of a STRING operand. -/
def strBytes (s : State) (c : Nat) (w : TWord) : Acs (List Byte) :=
  (wantTag s w tSTRING).bind fun s0 _ => (strLen s0 c w).bind fun s1 h =>
    (objWords s1 c h.1 ((List.range ((h.2 + 7) / 8)).map (· + 2))).bind fun s2 ws =>
      if ws.all (fun x => x.tag == tRAW) then
        .ok s2 ((List.range h.2).map (fun i => BitVec.ofNat 8 (getByte ((ws[i / 8]?).getD wZero).val (i % 8))))
      else .trap s2 (tagTrap rTYPE)

/-- An output STRING of at least n bytes: its address and byte length. -/
def outStr (s : State) (c : Nat) (w : TWord) (n : Nat) : Acs (Nat × Nat) :=
  (wantTag s w tSTRING).bind fun s0 _ => (strLen s0 c w).bind fun s1 h =>
    if h.2 ≥ n then .ok s1 h else .trap s1 (accFault aBOUNDS)

/-- The first n elements of a VECTOR operand; another element count is BOUNDS. -/
def vecElems (s : State) (c : Nat) (w : TWord) (n : Nat) : Acs (List TWord) :=
  (wantTag s w tVECTOR).bind fun s0 _ => (objHeader s0 c w).bind fun s1 h =>
    if h.2 = n then objWords s1 c h.1 ((List.range n).map (· + 1)) else .trap s1 (accFault aBOUNDS)

/-- The words of an output STRING that n bytes touch, reached with the permissions of a store. -/
def outWords (s : State) (c a n : Nat) : Acs (List (Nat × TWord)) :=
  Acs.each (fun s i => (addrChk s (slotAt a (i + 2)) kSTORE).bind fun s0 va =>
    (xlate s0 c va kSTORE).bind fun s1 x => (rdAt s1 c x 64).bind fun s2 w => .ok s2 (va, w)) (List.range ((n + 7) / 8)) s

/-- Bytes 0 onward of an output STRING's words replaced. -/
def mergeOut (ws : List (Nat × TWord)) (out : List Byte) : List (Nat × TWord) :=
  (ws.zipIdx).map (fun p =>
    (p.1.1, (⟨tRAW, ((out.drop (8 * p.2)).take 8).zipIdx.foldl (fun v b => setByte v b.2 b.1.toNat) p.1.2.val⟩ : TWord)))

/-- An output written as stores. -/
def writeOut (s : State) (c a : Nat) (out : List Byte) : Acs Unit :=
  (outWords s c a out.length).bind fun s1 ws => plainWords s1 c (mergeOut ws out)

/-- A byte string brought to a length. -/
def fit (n : Nat) (l : List Byte) : List Byte := (l ++ List.replicate n 0).take n

/-- The tenant under which a core executes: bits 7:2 of its ASID (R266). [log 122 DEDUCED, unsafe] -/
def coreTenant (k : Core) : Nat := k.asid / 4

/-- The key that a handle names (R332). -/
def keyOf (s : State) (c : Nat) (w : TWord) : Acs (BitVec 256) :=
  (wantTag s w tINT).bind fun s0 _ =>
    if w.val.toNat > 15 then .trap s0 (accFault aBOUNDS)
    else match lk s0.cpu.keys (coreTenant (getCore s0 c) * 16 + w.val.toNat) with
      | some k => .ok s0 k
      | none => .trap s0 (tagTrap rUNBOUND)

/-- A STRING operand of a stated length. -/
def strOf (s : State) (c : Nat) (w : TWord) (n : Nat) : Acs (List Byte) :=
  (strBytes s c w).bind fun s1 b => if b.length = n then .ok s1 b else .trap s1 (accFault aBOUNDS)

/-- Element i of a list of words. -/
def elemAt (l : List TWord) (i : Nat) : TWord := (l[i]?).getD wZero

/-! ### Pure operations (R337, R338, R340) -/

/-- Where a pure operation's result goes: the word for rd, and the bytes for an output STRING with its address. -/
structure PureRes where
  word : TWord
  out : Option (Nat × List Byte)
deriving DecidableEq, Repr

/-- A pure operation: `checks` at presentation, `run` its operands and result. A squashed one has started on a speculative
path and leaves its counts alone. [log 122 DEDUCED, unsafe] -/
def pureCop (c : Nat) (f : CF) (unit op : Nat) (e : CopEnd) (checks : State → List (Bool × Trap))
    (run : State → Acs PureRes) (s : State) : Host.Outcome State Fault Refusal :=
  let cl := c / 8
  match e with
  | .cancelled => .next (if coreAble s c then copCount (copCount s cl unit 0) cl unit 8 else s)
  | _ => runInsn c (encC f unit op) (fun s => chk s (checks s) <| (run s).fin fun s1 r =>
      let s2 := copCount s1 cl unit 0
      let bad (x : State) (t : Trap) : IRes := .trap (copCount x cl unit 12) t
      if e = .unitError then bad s2 (mCheck 6)
      else if destBad s2 c f.rd.toNat r.word then bad s2 (tagTrap rTYPE)
      else match (match r.out with | some o => writeOut s2 c o.1 o.2 | none => .ok s2 ()) with
        | .ok s3 _ => .done (putReg (copCount s3 cl unit 4) c f.rd.toNat r.word)
        | .trap s3 t => bad s3 t) s

/-- SHA256 and SHA3: message ra, output rb. -/
def hashRun (c : Nat) (f : CF) (h : List Byte → Digest) (s : State) : Acs PureRes :=
  (strBytes s c (reg s c f.ra.toNat)).bind fun s1 m => (outStr s1 c (reg s1 c f.rb.toNat) 32).bind fun s2 o =>
    .ok s2 ⟨wInt 32, some (o.1, digBytes (h m))⟩

/-- SHA256. -/
def execSha256 (core : Nat) (f : CF) (e : CopEnd) : State → Host.Outcome State Fault Refusal :=
  pureCop core f 0 1 e (fun _ => []) (hashRun core f Config.sha256)

/-- SHA3. -/
def execSha3 (core : Nat) (f : CF) (e : CopEnd) : State → Host.Outcome State Fault Refusal :=
  pureCop core f 0 2 e (fun _ => []) (hashRun core f Config.sha3)

/-- HMAC. -/
def execHmac (core : Nat) (f : CF) (e : CopEnd) : State → Host.Outcome State Fault Refusal :=
  pureCop core f 0 3 e (fun _ => []) fun s =>
    (vecElems s core (reg s core f.ra.toNat) 2).bind fun s1 v => (keyOf s1 core (elemAt v 0)).bind fun s2 k =>
    (strBytes s2 core (elemAt v 1)).bind fun s3 m => (outStr s3 core (reg s3 core f.rb.toNat) 32).bind fun s4 o =>
      .ok s4 ⟨wInt 32, some (o.1, digBytes (Config.hmac k m))⟩

/-- The operands that GCMSEAL and GCMOPEN share: key, nonce, additional data, text. -/
def gcmArgs (s : State) (c : Nat) (w : TWord) : Acs (BitVec 256 × List Byte × List Byte × List Byte) :=
  (vecElems s c w 4).bind fun s1 v => (keyOf s1 c (elemAt v 0)).bind fun s2 k =>
  (strOf s2 c (elemAt v 1) 12).bind fun s3 n => (strBytes s3 c (elemAt v 2)).bind fun s4 a =>
  (strBytes s4 c (elemAt v 3)).bind fun s5 t => .ok s5 (k, n, a, t)

/-- GCMSEAL. -/
def execGcmseal (core : Nat) (f : CF) (e : CopEnd) : State → Host.Outcome State Fault Refusal :=
  pureCop core f 0 4 e (fun _ => []) fun s =>
    (gcmArgs s core (reg s core f.ra.toNat)).bind fun s1 g =>
    let n := g.2.2.2.length + 16
    (outStr s1 core (reg s1 core f.rb.toNat) n).bind fun s2 o =>
      .ok s2 ⟨wInt n, some (o.1, fit n (Config.gcmSeal g.1 g.2.1 g.2.2.1 g.2.2.2))⟩

/-- GCMOPEN: the output is written only where the tag verifies. -/
def execGcmopen (core : Nat) (f : CF) (e : CopEnd) : State → Host.Outcome State Fault Refusal :=
  pureCop core f 0 5 e (fun _ => []) fun s =>
    (gcmArgs s core (reg s core f.ra.toNat)).bind fun s1 g =>
    let n := g.2.2.2.length
    if n < 16 then .trap s1 (accFault aBOUNDS)
    else (outStr s1 core (reg s1 core f.rb.toNat) (n - 16)).bind fun s2 o =>
      match Config.gcmOpen g.1 g.2.1 g.2.2.1 g.2.2.2 with
      | some p => .ok s2 ⟨wBool true, some (o.1, fit (n - 16) p)⟩
      | none => .ok s2 ⟨wBool false, none⟩

/-- A signature check: the key, the message or digest and the signature, a length where one is stated. -/
def verifyRun (c : Nat) (f : CF) (curve kl : Nat) (ml : Option Nat) (sl : Nat) (s : State) : Acs PureRes :=
  (vecElems s c (reg s c f.ra.toNat) 3).bind fun s1 v => (strOf s1 c (elemAt v 0) kl).bind fun s2 k =>
  (match ml with | some n => strOf s2 c (elemAt v 1) n | none => strBytes s2 c (elemAt v 1)).bind fun s3 m =>
  (strOf s3 c (elemAt v 2) sl).bind fun s4 g => .ok s4 ⟨wBool (Config.sigVerify curve k m g), none⟩

/-- rb is not used. -/
def rbZero (f : CF) : State → List (Bool × Trap) := fun _ => [ill (f.rb.toNat ≠ 0)]

/-- P256V. -/
def execP256v (core : Nat) (f : CF) (e : CopEnd) : State → Host.Outcome State Fault Refusal :=
  pureCop core f 0 6 e (rbZero f) (verifyRun core f 0 64 (some 32) 64)

/-- P384V. -/
def execP384v (core : Nat) (f : CF) (e : CopEnd) : State → Host.Outcome State Fault Refusal :=
  pureCop core f 0 7 e (rbZero f) (verifyRun core f 1 96 (some 48) 96)

/-- ED25519V. -/
def execEd25519v (core : Nat) (f : CF) (e : CopEnd) : State → Host.Outcome State Fault Refusal :=
  pureCop core f 0 8 e (rbZero f) (verifyRun core f 2 32 none 64)

/-- CHAINED: the highest chained number of the tenant stream; −1 where it holds no grain. [log 123 DEDUCED, safe] -/
def execChained (core : Nat) (f : CF) (e : CopEnd) : State → Host.Outcome State Fault Refusal :=
  pureCop core f 3 4 e (fun s => [ill (f.ra.toNat ≠ 0 ∨ f.rb.toNat ≠ 0), prv (lvlOf s core ≠ 1)]) fun s =>
    .ok s ⟨wInt (((strm s (coreTenant (getCore s core))).chained : Int) - 1), none⟩

/-! ### Operand digests (R343) -/

/-- The first 8 bytes of SHA-256 over the contributions of the operands. -/
def opDigest (l : List Byte) : BitVec 64 := BitVec.ofNat 64 ((Config.sha256 l).toNat / 2 ^ 192)

/-- The contribution of a byte string. -/
def strContrib (b : List Byte) : List Byte := be 8 b.length ++ b

/-! ### Effectful operations (R339 to R344, R346 to R348, R539) -/

/-- An effectful operation as presented: unit, op, operand words, what its operands contribute to the digest, and its
output STRING with the bytes to be written there. -/
structure EffOp where
  unit : Nat
  op : Nat
  ra : TWord
  rb : TWord
  data : List Byte
  out : Option Nat
  outLen : Nat

/-- What issuing an operation gives: its result words and output bytes, a unit error without and with the issue counted, or
that it cannot issue now. -/
inductive Issued where
  | got (s : State) (res : List TWord) (out : List Byte)
  | error (s : State)
  | halt (s : State)
  | held (s : State) (room : Bool)

/-- Results delivered on core c; where its output store traps, they stay granted. -/
def give (s : State) (c : Nat) (f : CF) (out : Option Nat) (g : Grant) : IRes :=
  let s0 := updCore s c (fun k => { k with granted := some g })
  (match out with | some a => writeOut s0 c a g.out | none => .ok s0 ()).fin fun s1 _ =>
    let s2 := updCore s1 c (fun k => { k with granted := none, bind := match g.bind with | some b => some b | none => k.bind })
    .done ((g.res.zipIdx).foldl (fun (a : State) (p : TWord × Nat) => putReg a c (f.rd.toNat + p.2) p.1) s2)

/-- The input under evaluation of a binding: retained, or the run's. -/
def boundInput (s : State) (b : Bind) : Option Input :=
  if b.replay then (match s.rpl.run with | some r => r.cur | none => none) else inputAt s b.tenant b.seq

/-- The state with the input of a binding changed. -/
def updBound (s : State) (b : Bind) (f : Input → Input) : State :=
  if b.replay then { s with rpl.run := s.rpl.run.map (fun r => { r with cur := r.cur.map f }) } else updInput s b.tenant b.seq f

/-- The next log position on every core of the evaluation of core c. -/
def nextPos (s : State) (c : Nat) : State :=
  (evalCores s c).foldl (fun a d => updCore a d (fun k => { k with bind := k.bind.map (fun b => { b with pos := b.pos + 1 }) })) s

/-- The outcome of an operation resolved: results go to core c, and are granted to its partner where it runs paired. -/
def shareOut (s : State) (c : Nat) (f : CF) (paired : Bool) (o : EffOp) (g : Grant) : IRes :=
  let s1 := updCore s c (fun k => { k with present := none })
  let s2 := if paired then updCore s1 (partner c) (fun k => { k with present := none, granted := some g }) else s1
  give s2 c f o.out g

/-- An operation issues (R339): counted, and logged where the core is bound (R343). -/
def issueLogged (s : State) (c : Nat) (f : CF) (b : Bind) (o : EffOp) (issue : State → Issued) : IRes :=
  match issue s with
  | .got s1 res out =>
    let s2 := updBound s1 b (fun i => { i with log := i.log ++ [⟨o.unit, o.op, opDigest o.data, res⟩] })
    shareOut (nextPos s2 c) c f b.paired o ⟨o.unit, o.op, res, out, none⟩
  | .error s1 => .trap s1 (mCheck 6)
  | .halt s1 => .stay s1
  | .held s1 _ => .stay s1

/-- What a mismatch with the log means: in a run a divergence, else a pair fault of kind LOG (R344, R539). -/
def logMismatch (s : State) (c : Nat) (b : Bind) (o : EffOp) (kind : Nat) : IRes :=
  if b.replay then .stay (divergeAt s c kind b.pos none) else .stay (pairFault s c 3 b.pos o.unit o.op)

/-- An effectful operation other than TAKE and APPEND, presented by every core of its evaluation: compared with its log
entry and substituted, or issued where the log has none. -/
def resolveEff (s : State) (c : Nat) (f : CF) (b : Bind) (o : EffOp) (issue : State → Issued) : IRes :=
  match boundInput s b with
  | none => .stay s
  | some i =>
    match i.log[b.pos]? with
    | some e =>
      if e.unit = o.unit ∧ e.op = o.op ∧ e.dig = opDigest o.data then
        let s1 := if b.replay then bumpWrap s bRPL 0x68 0 32 1 else s
        shareOut (nextPos s1 c) c f b.paired o ⟨o.unit, o.op, e.res, [], none⟩
      else logMismatch s c b o 2
    | none => if b.replay || i.recorded.isSome then logMismatch s c b o 3 else issueLogged s c f b o issue

/-- The STRICT digest of a core (R351). -/
def strictDigest (k : Core) : Digest := Config.sha256 (((k.regs ++ [k.idctr, k.uicnt]).map twBytes).flatten)

/-- A core presents an operation to its pair's comparator (R346, R348); `go` follows once both presentations stand and are
identical. [log 124 DEDUCED, unsafe] -/
def comparator (s : State) (c pos : Nat) (o : EffOp) (go : State → IRes) : IRes :=
  let k := getCore s c
  let since := match k.present with | some p => p.since | none => s.tim.ticks
  let held := match k.present with | some p => p.roomHeld | none => false
  let p : Present := ⟨o.unit, o.op, o.ra, o.rb, opDigest o.data, strictDigest k, since, held⟩
  let s1 := updCore s c (fun k => { k with present := some p })
  match (getCore s1 (partner c)).present with
  | none => .stay s1
  | some q =>
    if q.unit = p.unit ∧ q.op = p.op ∧ q.ra = p.ra ∧ q.rb = p.rb ∧ q.dig = p.dig then go s1
    else .stay (pairFault s1 c 1 pos o.unit o.op)

/-- The destinations of an operation can take results of these tags (R205). -/
def destsOk (s : State) (c : Nat) (f : CF) (n : Nat) : Bool :=
  !((List.range n).any (fun i => destBad s c (f.rd.toNat + i) (wInt 0)))

/-- An effectful operation of n result words: what its partner's turn has delivered comes first; unbound at U or S it is
PRIV_INSN; at M it issues and is not logged; bound it is presented. -/
def effCop (c : Nat) (f : CF) (n : Nat) (o : EffOp) (issue : State → Issued) (s : State) : IRes :=
  let k := getCore s c
  if destsOk s c f n = false then .trap s (tagTrap rTYPE)
  else match k.granted with
  | some g => if g.unit = o.unit ∧ g.op = o.op then give s c f o.out g else .stay s
  | none =>
    if k.level = 2 then
      match issue s with
      | .got s1 res out => give s1 c f o.out ⟨o.unit, o.op, res, out, none⟩
      | .error s1 => .trap s1 (mCheck 6)
      | .halt s1 => .stay s1
      | .held s1 _ => .stay s1
    else match k.bind with
      | none => .trap s (accFault aPRIV_INSN)
      | some b =>
        if b.pos ≥ 1023 then .trap s (accFault aBOUNDS)
        else if b.paired then comparator s c b.pos o (fun s1 => resolveEff s1 c f b o issue)
        else resolveEff s c f b o issue

/-- An operation that its unit ends with an error, or completes: counted either way. [log 122 DEDUCED, unsafe] -/
def unitIssue (c unit : Nat) (e : CopEnd) (run : State → State × List TWord) (s : State) : Issued :=
  let s1 := copCount s (c / 8) unit 0
  if e = .unitError then .error (copCount s1 (c / 8) unit 12)
  else let r := run (copCount s1 (c / 8) unit 4); .got r.1 r.2 []

/-- A draw of a cluster's DRBG, reseeded after every 65,536 (R341). [log 123 DEDUCED, safe] -/
def drawOf (s : State) (cl : Nat) : BitVec 64 × State :=
  let r := drawFree s
  let n := lkD s.cpu.draws cl 0 + 1
  let s1 : State := { r.2 with cpu.draws := ins s.cpu.draws cl n }
  (r.1, if n ≥ 65536 then reseed s1 cl else s1)

/-- The entropy unit ends operations with COPERR while its cluster is withheld (R341). -/
def entropyEnd (s : State) (c : Nat) (e : CopEnd) : CopEnd :=
  if fget s bHLT 0x2C (c / 8) 1 = 1 then .unitError else e

/-- DRAW. -/
def execDraw (core : Nat) (f : CF) (e : CopEnd) : State → Host.Outcome State Fault Refusal :=
  runInsn core (encC f 1 1) fun s =>
    chk s [ill (f.ra.toNat ≠ 0 ∨ f.rb.toNat ≠ 0), prv (lvlOf s core = 2)]
      (effCop core f 1 ⟨1, 1, wZero, wZero, [], none, 0⟩
        (unitIssue core 1 (entropyEnd s core e) (fun s => let r := drawOf s (core / 8); (r.2, [⟨tINT, r.1⟩]))) s)

/-- DRAWN: a draw below the rejection bound, reduced modulo n. [log 123 DEDUCED, safe] -/
def execDrawn (core : Nat) (f : CF) (e : CopEnd) : State → Host.Outcome State Fault Refusal :=
  runInsn core (encC f 1 2) fun s =>
    let w := reg s core f.ra.toNat
    chk s [ill (f.rb.toNat ≠ 0), prv (lvlOf s core = 2)] <| consume s [w] <|
      chk s [tagIf (w.tag != tINT) rTYPE, bnd (w.val.toInt < 1)]
        (effCop core f 1 ⟨1, 2, w, wZero, twBytes w, none, 0⟩
          (unitIssue core 1 (entropyEnd s core e) (fun s =>
            let r := drawOf s (core / 8); (r.2, [wInt (r.1.toNat % w.val.toNat)]))) s)

/-- RESEED: at M only, so it is never logged. -/
def execReseed (core : Nat) (f : CF) (e : CopEnd) : State → Host.Outcome State Fault Refusal :=
  runInsn core (encC f 1 0x10) fun s =>
    chk s [ill (f.ra.toNat ≠ 0 ∨ f.rb.toNat ≠ 0), prv (lvlOf s core ≠ 2)]
      (effCop core f 1 ⟨1, 0x10, wZero, wZero, [], none, 0⟩
        (unitIssue core 1 e (fun s => let s1 := reseed s (core / 8); (s1, [wInt (rawGet s1 (bCLU + core / 8) 0x204)]))) s)

/-- TREAD: the time and its uncertainty into rd and rd + 1. -/
def execTread (core : Nat) (f : CF) (e : CopEnd) : State → Host.Outcome State Fault Refusal :=
  runInsn core (encC f 2 1) fun s =>
    chk s [ill (f.ra.toNat ≠ 0 ∨ f.rb.toNat ≠ 0 ∨ f.rd.toNat = 31)]
      (effCop core f 2 ⟨2, 1, wZero, wZero, [], none, 0⟩
        (unitIssue core 2 e (fun s => (s, [tw tTIME s.now, wInt s.tim.u]))) s)

/-- CTRINC: the tenant's journal counter, kept below 2^63 (R427). -/
def execCtrinc (core : Nat) (f : CF) (e : CopEnd) : State → Host.Outcome State Fault Refusal :=
  runInsn core (encC f 3 3) fun s =>
    let w := reg s core f.ra.toNat
    chk s [ill (f.rb.toNat ≠ 0), prv (lvlOf s core ≠ 1)] <| consume s [w] <|
      chk s [tagIf (w.tag != tINT) rTYPE, bnd (w.val.toNat > 15)]
        (effCop core f 1 ⟨3, 3, w, wZero, twBytes w, none, 0⟩
          (fun s =>
            let key := coreTenant (getCore s core) * 16 + w.val.toNat
            let n := lkD s.jrn.counters key 0 + 1
            if n ≥ 2 ^ 63 then .error s
            else unitIssue core 3 e (fun s => ({ s with jrn.counters := ins s.jrn.counters key n }, [wInt n])) s) s)

/-! ### TAKE (R335, R342, R345, R349, R350) -/

/-- The inputs that a TAKE of core c may get for tenant t, in order: a run's own input; the retained inputs that await a
re-run which earlier abandonments do not keep from this core, then the run queue. [log 124 DEDUCED, unsafe] -/
def takeList (s : State) (c t : Nat) : List Input :=
  match s.rpl.run with
  | some r => if r.tenant = t then (match r.cur with | some i => if i.bound then [] else [i] | none => []) else []
  | none =>
    if s.role == .shadow && !s.inMode .live then []
    else
      s.awp.inputs.filter (fun i => i.tenant == t && i.rerun && !i.avoid.contains c)
        ++ (lkD s.awp.runq t []).filterMap (fun n => inputAt s t n)

/-- The tenant's evaluations run on pairs for core c, unless R350 has set the input for a single core. -/
def takePaired (s : State) (c t : Nat) (i : Option Input) : Bool :=
  pairSet s (c / 8) t && !(match i with | some i => i.single | none => false)

/-- The core may take work: its cluster is not withheld, and a pair it must run on is in service. [log 124 DEDUCED, unsafe] -/
def takeOpen (s : State) (c t : Nat) (i : Option Input) : Bool :=
  fget s bHLT 0x2C (c / 8) 1 == 0 && (!(takePaired s c t i) || pairUsable s (c / 2))

/-- The input leaves the queue, and the binding that the core, with its partner where paired, takes. [log 124 DEDUCED, unsafe] -/
def bindTake (s : State) (t : Nat) (paired : Bool) (i : Input) : State × Bind :=
  let replay := s.rpl.run.isSome
  let b : Bind := ⟨t, i.seq, paired, 0, i.rerun, replay⟩
  let f (x : Input) : Input := { x with bound := true, rerun := false, reran := x.reran || x.rerun }
  let s1 : State := { updBound s b f with awp.runq := ins s.awp.runq t ((lkD s.awp.runq t []).filter (· ≠ i.seq)) }
  (if i.rerun then bumpSat s1 bHLT 0x54 0 32 1 else s1, b)

/-- The uncorrectable inputs at the head of the list are voided (R40); in a run the run ends with kind MEDIA (R540). [log 124 DEDUCED, unsafe] -/
def voidBad (s : State) (bad : List Nat) (l : List Input) : State :=
  (l.takeWhile (fun i => bad.contains i.seq)).foldl (fun a i =>
    if a.rpl.run.isSome then finishRun (divergence a ⟨5, i.seq, 0xFFFF, recDigest a i.tenant i.seq, none⟩) 3
    else voidInput { a with awp.runq := ins a.awp.runq i.tenant ((lkD a.awp.runq i.tenant []).filter (· ≠ i.seq)) } i.tenant i.seq 1) s

/-- TAKE. `bad` lists the numbers of retained inputs that the store cannot read without error. [log 124 DEDUCED, unsafe] -/
def execTake (core : Nat) (f : CF) (e : CopEnd) (bad : List Nat) : State → Host.Outcome State Fault Refusal :=
  runInsn core (encC f 3 1) fun s =>
    let k := getCore s core
    let t := coreTenant k
    chk s [ill (f.ra.toNat ≠ 0), prv (k.level ≠ 1), prv (k.bind.isSome && k.granted.isNone)]
      ((outStr s core (reg s core f.rb.toNat) 1480).fin fun s0 o =>
        let s1 := if k.granted.isNone then voidBad s0 bad (takeList s0 core t) else s0
        let pick := (takeList s1 core t).head?
        let i := if takeOpen s1 core t pick then pick else none
        let op : EffOp := ⟨3, 1, wZero, reg s1 core f.rb.toNat, be 8 o.2, some o.1, 0⟩
        let issue (paired : Bool) (s : State) : IRes :=
          let s2 := copCount s (core / 8) 3 0
          if e = .unitError then .trap (copCount s2 (core / 8) 3 12) (mCheck 6)
          else
            let s3 := copCount s2 (core / 8) 3 4
            match i with
            | none => shareOut s3 core f paired op ⟨3, 1, [wNil], [], none⟩
            | some i =>
              let r := bindTake s3 t paired i
              shareOut r.1 core f paired op ⟨3, 1, [wInt i.seq], inputBytes i, some r.2⟩
        if destsOk s1 core f 1 = false then .trap s1 (tagTrap rTYPE)
        else match k.granted with
          | some g => if g.unit = 3 ∧ g.op = 1 then give s1 core f (some o.1) g else .stay s1
          | none =>
            (match i with | some i => outWords s1 core o.1 (80 + i.payload.length) | none => .ok s1 []).fin fun s2 _ =>
              if takePaired s2 core t pick then comparator s2 core 0 op (issue true) else issue false s2)

/-! ### APPEND (R336, R341, R351, R352, R424, R445) -/

/-- A grain descriptor: FLAGS, RULEREASON, TEXT, DATA. -/
structure Descr where
  flags : TWord
  reason : TWord
  text : List Byte
  data : List Byte
deriving DecidableEq, Repr

/-- The descriptor that ra names, checked (R424). -/
def descrOf (s : State) (c : Nat) (w : TWord) : Acs Descr :=
  (wantTag s w tRECORD).bind fun s0 _ => (objHeader s0 c w).bind fun s1 h =>
    if h.2 ≠ 5 then .trap s1 (tagTrap rTYPE)
    else (objWords s1 c h.1 [2, 3, 4, 5]).bind fun s2 v =>
      (wantTag s2 (elemAt v 0) tINT).bind fun s3 _ => (wantTag s3 (elemAt v 1) tINT).bind fun s4 _ =>
      if (elemAt v 0).val.toNat > 1 then .trap s4 (tagTrap rTYPE)
      else (strBytes s4 c (elemAt v 2)).bind fun s5 text => (strBytes s5 c (elemAt v 3)).bind fun s6 data =>
        if (elemAt v 1).val.toNat > 65535 ∨ text.length > 256 ∨ text.length + data.length > 4096 then .trap s6 (accFault aBOUNDS)
        else .ok s6 ⟨elemAt v 0, elemAt v 1, text, data⟩

/-- What a descriptor and an output of n bytes contribute to the operand digest. -/
def descrData (d : Descr) (n : Nat) : List Byte :=
  twBytes d.flags ++ twBytes d.reason ++ strContrib d.text ++ strContrib d.data ++ be 8 n

/-- The grain of an input and a descriptor. UNPAIRED repeats a record's flag, else says that a paired tenant's evaluation ran
on a single core (R422, R423). [log 125 DEDUCED, unsafe] -/
def grainOf (i : Input) (d : Descr) : GReq :=
  let un := match i.recorded with | some u => u | none => i.single
  ⟨inputHdr i (if i.typ = 1 then 1 else 2) (d.flags.val.toNat + 2 * b2n un) d.text.length d.reason.val.toNat, d.text ++ d.data⟩

/-- Bytes of the INPUT item of an input with its log (R521, R522). -/
def inputItem (i : Input) : Nat :=
  8 + 16 + 80 + i.payload.length + 8 + i.log.foldl (fun a e => a + 16 + 9 * e.res.length) 0 + 16

/-- Latent divergences of the window, and the window after an evaluation (R351, R352). -/
def latentStep (s : State) (c t n : Nat) : State :=
  let p := c / 2
  let da := strictDigest (getCore s (2 * p))
  let db := match (getCore s (2 * p)).present, (getCore s (2 * p + 1)).present with
    | some x, some y => (x.strict, y.strict) | _, _ => (da, da)
  let lat := strictSet s (c / 8) t && decide (db.1 ≠ db.2)
  let w := (lat :: (getPairInfo s p).window).take 1000
  let s1 : State := { s with cpu.pairs := ins s.cpu.pairs p { getPairInfo s p with window := w } }
  let s2 := if lat then
      eventD (bumpSat s1 (bCLU + c / 8) (0x1E0 + 4 * (p % 4)) 0 32 1) 9 kFAULT 0x0C84
        [t, n, p, db.1.toNat / 2 ^ 192, db.2.toNat / 2 ^ 192] 0
    else s1
  if (w.filter id).length ≥ 3 then removePair s2 p 2 else s2

/-- APPEND issues to the stream: its INPUT item, after a MEAS item where TM_t has changed (R525), the grain chained, grains that wait for it follow, and the reply waits for release. -/
def appendStream (s : State) (b : Bind) (i : Input) (g : GReq) : State × Digest :=
  let meas := if s.jrn.measDue.contains b.tenant then 104 else 0
  let s1 := chainGrainRec { s with jrn.measDue := s.jrn.measDue.filter (· ≠ b.tenant) } b.tenant g (inputItem i + meas) false (some i)
  let d := (strm s1 b.tenant).lastDig
  let s2 := applyChained (cascade ((strm s1 b.tenant).numbered.length) s1 b.tenant) b.tenant i.seq
  let r : Reply := ⟨i.tenant, i.session, i.terminal, i.seq, i.counter, i.tai, i.u, i.route⟩
  (mediaGate s b.tenant (if i.recorded.isSome then s2 else { s2 with awp.replies := s2.awp.replies ++ [r] }), d)

/-- APPEND issues to the replay journal (R539, R543): the replay grain is chained on the recorded digest before it and
compared with the recorded grain. [log 125 DEDUCED, unsafe] -/
def appendReplay (s : State) (b : Bind) (g : GReq) : State × Digest :=
  let prev := if b.seq = (runSet s b.tenant).first then (runSet s b.tenant).prev else recDigest s b.tenant (b.seq - 1)
  let d := grainDigest prev g b.seq
  if d = recDigest s b.tenant b.seq then
    (advanceRun (rjAppend s b.tenant ⟨b.seq, g.hdr, g.body, d, none⟩), d)
  else
    let cross := match s.rpl.run with | some r => r.cross | none => false
    let s1 := divergence s ⟨1, b.seq, 0xFFFF, recDigest s b.tenant b.seq, some d⟩
    (if cross then writeRecorded s1 else s1, d)

/-- Room in the 48 MiB power-fail buffer for the items of a grain (R445). -/
def pfbRoom (s : State) (g : GReq) (i : Input) : Bool :=
  decide (occ s + 72 + storedLen (strm s g.hdr.stream) g.body + inputItem i ≤ 48 * 2 ^ 20)

/-- The APPEND is held: the presentation stands on every core of the evaluation, and a hold for room is counted once. [log 125 DEDUCED, unsafe] -/
def holdAppend (s : State) (c : Nat) (b : Bind) (o : EffOp) (room : Bool) : State :=
  let was := match (getCore s c).present with | some p => p.roomHeld | none => false
  let s1 := if room && !was then bumpSat s bJRN 0x50 0 32 1 else s
  let k := getCore s c
  let p : Present := match k.present with
    | some p => { p with roomHeld := was || room }
    | none => ⟨o.unit, o.op, o.ra, o.rb, opDigest o.data, strictDigest k, s.tim.ticks, room⟩
  let s2 := updCore s1 c (fun k => { k with present := some p })
  if b.paired then updCore s2 (partner c) (fun k => { k with present := k.present.map (fun q => { q with roomHeld := was || room }) }) else s2

/-- The bindings of an evaluation end. -/
def endBinding (s : State) (cs : List Nat) : State := cs.foldl (fun a d => updCore a d (fun k => { k with bind := none })) s

/-- An APPEND that every core of the evaluation has presented and whose log agrees: held, or issued. [log 125 DEDUCED, unsafe] -/
def issueAppend (s : State) (c : Nat) (f : CF) (b : Bind) (i : Input) (d : Descr) (o : EffOp) (e : CopEnd) : IRes :=
  let g := grainOf i d
  let cs := evalCores s c
  let logged := { i with log := i.log.take b.pos ++ [⟨3, 2, opDigest o.data, [wInt b.seq]⟩] }
  if b.replay = false ∧ (strm s b.tenant).chained ≠ b.seq then .stay (holdAppend s c b o false)
  else if b.replay = false ∧ pfbRoom s g logged = false then .stay (holdAppend s c b o true)
  else
    let s1 := copCount s (c / 8) 3 0
    if e = .unitError then .stay (enterHold (copCount s1 (c / 8) 3 12) hAPPEND_UNIT 0 0)
    else
      let s2 := copCount (updBound s1 b (fun _ => { logged with bound := true })) (c / 8) 3 4
      let s3 := if b.paired then latentStep s2 c b.tenant b.seq else s2
      let r := if b.replay then appendReplay s3 b g else appendStream s3 b logged g
      shareOut (endBinding r.1 cs) c f b.paired o ⟨3, 2, [wInt b.seq], digBytes r.2, none⟩

/-- An APPEND presented by every core of its evaluation: its log position must hold it or lie beyond the log. [log 125 DEDUCED, unsafe] -/
def resolveAppend (s : State) (c : Nat) (f : CF) (b : Bind) (d : Descr) (o : EffOp) (e : CopEnd) : IRes :=
  match boundInput s b with
  | none => .stay s
  | some i =>
    match i.log[b.pos]? with
    | some x =>
      if x.unit = 3 ∧ x.op = 2 ∧ x.dig = opDigest o.data then issueAppend s c f b i d o e
      else logMismatch s c b o (if x.unit = 3 ∧ x.op = 2 then 2 else 4)
    | none => if b.replay || i.recorded.isSome then logMismatch s c b o 3 else issueAppend s c f b i d o e

/-- APPEND. -/
def execAppend (core : Nat) (f : CF) (e : CopEnd) : State → Host.Outcome State Fault Refusal :=
  runInsn core (encC f 3 2) fun s =>
    let k := getCore s core
    chk s [prv (k.level ≠ 1), prv (k.bind.isNone && k.granted.isNone)]
      ((descrOf s core (reg s core f.ra.toNat)).fin fun s0 d =>
        (outStr s0 core (reg s0 core f.rb.toNat) 32).fin fun s1 out =>
          let o : EffOp := ⟨3, 2, reg s1 core f.ra.toNat, reg s1 core f.rb.toNat, descrData d out.2, some out.1, 32⟩
          if destsOk s1 core f 1 = false then .trap s1 (tagTrap rTYPE)
          else match k.granted, k.bind with
            | some g, _ => if g.unit = 3 ∧ g.op = 2 then give s1 core f o.out g else .stay s1
            | none, none => .stay s1
            | none, some b =>
              (outWords s1 core out.1 32).fin fun s2 _ =>
                if b.paired then comparator s2 core b.pos o (fun s3 => resolveAppend s3 core f b d o e)
                else resolveAppend s2 core f b d o e)

end Sys2Proof.Machine
end

