-- ==== Sys2Proof/Machine/AwpRows.lean ====
section
/-! DEFINITION. The terminal's messages (chapters 1, 6 and 15): OFFER and CANCEL through A6 to A9 into the sequencer, QUERY,
HEARTBEAT; the frames that the device answers or counts beside AWP (R361, R374, R375). -/
namespace Sys2Proof.Machine

open Sys2Proof

/-! ### A6 to A9 and the sequencer -/

/-- A frame takes its tenant's next number; its input joins the retained-input store and the run queue (R20, R22, R395). -/
def sequence (s : State) (f : Frame) (typ acc u : Nat) : State :=
  let t := f.tenant
  let st := strm s t
  let n := st.next
  let i : Input :=
    { tenant := t, seq := n, typ := typ, tai := acc, u := u, book := f.book, terminal := f.terminal, session := f.session,
      counter := f.counter, route := routeOf f, payload := f.payload, avoid := [], log := [], abandons := 0, pairFaults := 0,
      rerun := false, reran := false, bound := false, single := false, recorded := none }
  let s1 := setStrm s t { st with next := n + 1 }
  let s2 : State := { s1 with awp.inputs := s1.awp.inputs ++ [i], awp.runq := ins s1.awp.runq t (lkD s1.awp.runq t [] ++ [n]) }
  let s3 := updSess s2 (skey t f.session) (fun x => { x with unreplied := x.unreplied + 1 })
  let k := getBook s3 t f.book
  bumpWrap (putBook s3 t f.book { k with lastSeq := some n, count := k.count + 1 }) bSEQ (0x800 + 0x10 * t) 0 32 1

/-- The outcome of A6 to A9 (R14, R18, R19, R46, R164, R387, R394): 0 where the frame passes, else the REJECT reason, with
the suspension causes and the book's state code. -/
def verdict (s : State) (f : Frame) (acc u : Nat) : Nat × Nat × Nat :=
  let v := (getBook s f.tenant f.book).verAt acc
  if modeAt s acc ≠ .live then (rjMODE, 0, 0)
  else if s.role ≠ .primary then (rjROLE, 0, 0)
  else if v.st ≠ .dormant ∧ isLate v acc = true then (rjLATE, 0, 0)
  else if v.st ≠ .dormant ∧ eligible v acc u = false then (rjLATE_UNCERTAIN, 0, 0)
  else if v.st = .suspended then (rjSUSPENDED, bits v.cause 0 7, 0)
  else if v.st ≠ .open then (rjNOT_OPEN, 0, v.st.code)
  else
    let unreplied := match sessOf s f.tenant f.session with | some x => x.unreplied | none => 0
    if unreplied ≥ fget s bSEQ (0x200 + 4 * f.tenant) 0 6 then (rjQUOTA, 0, 0)
    else if inFlight s f.tenant ≥ fget s bSEQ (0x100 + 4 * f.tenant) 0 21 then (rjBUSY, 0, 0)
    else (0, 0, 0)

/-- The counters beside REJCNT that a refusal of A7 or A9 raises: the tenant's and the book's late counts, BUSYCNT, QUOTACNT. -/
def countRefusal (s : State) (f : Frame) (reason : Nat) : State :=
  let k := getBook s f.tenant f.book
  if reason = rjLATE then
    bumpWrap (putBook s f.tenant f.book { k with late := sat 32 (k.late + 1) }) bPRT (0x1000 + 8 * f.tenant) 0 32 1
  else if reason = rjLATE_UNCERTAIN then
    bumpWrap (putBook s f.tenant f.book { k with lateu := sat 32 (k.lateu + 1) }) bPRT (0x1004 + 8 * f.tenant) 0 32 1
  else if reason = rjBUSY then bumpWrap s bSEQ (0x808 + 0x10 * f.tenant) 0 32 1
  else if reason = rjQUOTA then bumpWrap s bSEQ (0x80C + 0x10 * f.tenant) 0 32 1
  else s

/-- A frame that has passed A5 goes through A6 to A9. -/
def wager (typ : Nat) (f : Frame) (s : State) : State :=
  let acc := acceptTai s f
  let u := acceptU s f
  let v := verdict s f acc u
  if v.1 = 0 then sequence s f typ acc u else refuse (countRefusal s f v.1) f v.1 v.2.1 v.2.2

/-- OFFER. -/
def execOffer (f : Frame) (s : State) : Host.Outcome State Fault Refusal := .next (terminalFrame s f (wager mtOFFER f))

/-- CANCEL. -/
def execCancel (f : Frame) (s : State) : Host.Outcome State Fault Refusal := .next (terminalFrame s f (wager mtCANCEL f))

/-! ### QUERY and HEARTBEAT (R33, R34, R385 to R388) -/

/-- The durable WAGER, CANCEL or VOID grain of a session and counter that the journal index names (R438). [log 52 DEDUCED, unsafe] -/
def indexed (s : State) (t session counter : Nat) : Option Grain :=
  (strm s t).grains.find? (fun g => decide (1 ≤ g.hdr.typ ∧ g.hdr.typ ≤ 3) && g.hdr.session == session && g.hdr.counter == counter
    && isDurable s t g.seq)

/-- A target beyond the journal index (R438): segments of the stream have been retired, and the target is older than every
unretired grain of its session. [log 52 DEDUCED, unsafe] -/
def beyondIndex (s : State) (t session counter : Nat) : Bool :=
  (strm s t).segs.any (·.retired) &&
    !((strm s t).grains.any (fun g => decide (1 ≤ g.hdr.typ ∧ g.hdr.typ ≤ 3) && g.hdr.session == session && decide (g.hdr.counter ≤ counter)))

/-- The answer to a QUERY: 0 DURABLE, 1 PENDING, 2 NONE, 3 EXPIRED, 4 QUERY_RANGE; its grain; whether the target's bit is to be
set (R388). -/
def queryAnswer (s : State) (f : Frame) (tsess tctr : Nat) : Nat × Option Grain × Bool :=
  let t := f.tenant
  let g := indexed s t tsess tctr
  match sessOf s t tsess with
  | some x =>
    if x.terminal ≠ f.terminal ∨ tctr ≥ f.counter then (4, none, false)
    else if g.isSome then (0, g, false)
    else if s.awp.inputs.any (fun i => i.tenant == t && i.session == tsess && i.counter == tctr) then (1, none, false)
    else if tctr ≤ x.high ∧ x.high ≤ tctr + 31 ∧ x.bitmap.getLsbD (x.high - tctr) = false then (2, none, true)
    else if beyondIndex s t tsess tctr then (3, none, false)
    else (2, none, false)
  | none =>
    match g with
    | some y => if y.hdr.terminal = f.terminal then (0, g, false) else (4, none, false)
    | none => if beyondIndex s t tsess tctr then (3, none, false) else (2, none, false)

/-- A QUERY that has passed A5; `reads` are the page reads that a target named by the index takes. The digest of a grain that
cannot be read is zeros (R603). [log 52 DEDUCED, unsafe] -/
def query (f : Frame) (reads : List FlashRead) (s : State) : State :=
  if f.payload.length ≠ 12 then refuse s f rjFORMAT 0 0
  else
    let tsess := ofBe (f.payload.take 4)
    let tctr := ofBe ((f.payload.drop 4).take 6)
    let a := queryAnswer s f tsess tctr
    if a.1 = 4 then refuse s f rjQUERY_RANGE 0 0
    else
      let s0 := if a.1 = 0 then flashReads s reads else s
      let s1 := if a.2.2 then updSess s (skey f.tenant tsess) (fun x => { x with bitmap := x.bitmap ||| ((1 : Word32) <<< (x.high - tctr)) }) else s0
      let g : Nat × Nat := match a.2.1 with
        | some g => (g.seq, match grainAt s0 f.tenant g.seq with | some y => if y.unreadable then 0 else dig8 y.digest | none => dig8 g.digest)
        | none => (0, 0)
      answer s1 f mtANSWER (answerBody f.counter a.1 tsess tctr g.1 g.2)

/-- QUERY. -/
def execQuery (f : Frame) (reads : List FlashRead) (s : State) : Host.Outcome State Fault Refusal :=
  .next (terminalFrame s f (query f reads))

/-- HEARTBEAT. -/
def execHeartbeat (f : Frame) (s : State) : Host.Outcome State Fault Refusal :=
  .next (terminalFrame s f (fun s =>
    if f.payload.length ≠ 0 then refuse s f rjFORMAT 0 0 else answer s f mtANSWER (beatBody s f.counter)))

/-! ### Other frames (R361, R375) -/

/-- ARP_REQUEST for an IPv4 address. -/
def execArpRequest (lane : Nat) (target : BitVec 128) (s : State) : Host.Outcome State Fault Refusal :=
  .next (if etherUp s lane && enabledAddr s (etherPort s lane) false target then emitOut s (.arp lane target) else s)

/-- NEIGHBOUR_SOLICITATION for an IPv6 address. -/
def execNeighbourSolicitation (lane : Nat) (target : BitVec 128) (s : State) : Host.Outcome State Fault Refusal :=
  .next (if etherUp s lane && enabledAddr s (etherPort s lane) true target then emitOut s (.arp lane target) else s)

/-- ECHO_REQUEST to an enabled address. -/
def execEchoRequest (lane : Nat) (v6 : Bool) (dst src : BitVec 128) (s : State) : Host.Outcome State Fault Refusal :=
  .next (if etherUp s lane && enabledAddr s (etherPort s lane) v6 dst && fget s bAWP 0x10 16 1 == 1 then emitOut s (.echo lane src) else s)

/-- PAUSE_FRAME, or a priority-flow-control frame: counted and ignored. -/
def execPauseFrame (lane : Nat) (s : State) : Host.Outcome State Fault Refusal :=
  .next (if etherUp s lane then bumpSat s (bLQ + lane / 4) (laneOff (lane % 4) 0x38) 0 16 1 else s)

/-- FRAME_DISCARD: a frame that fails A1 (`atA2` false), an AWP frame of an unknown type or tenant that fails A2, or an
unsupported PTP message, which counts with the discards of A1. -/
def execFrameDiscard (lane : Nat) (atA2 : Bool) (s : State) : Host.Outcome State Fault Refusal :=
  .next (if etherUp s lane then bumpWrap s bAWP ((if atA2 then 0x404 else 0x400) + 0x10 * lane) 0 32 1 else s)

end Sys2Proof.Machine
end

