-- ==== Sys2Proof/Machine/TimeRows.lean ====
section
/-! DEFINITION. The rows of chapter 5: PTP messages, PPS edges and time-of-day lines, the uncertainty, PPS_OUT, the end of
acquisition, the inputs of the root PLL. -/
namespace Sys2Proof.Machine

open Sys2Proof

/-! ### The SEALED steps' course (R105) -/

/-- A step of Table 4.2 begins. -/
def beginStep (s : State) (n : Nat) : State :=
  { s with sec.step := n, sec.stepSince := s.tim.ticks, tim.acqStart := if n = 8 then some s.tim.ticks else s.tim.acqStart }

/-- S8 completes: time is acquired, the quality is evaluated, S9 begins. -/
def endS8 (s : State) : State := beginStep (recompute (putLeap { s with tim.acquired := true })) 9

/-- Every enabled reference is good (R143). -/
def allGood (s : State) : Bool := (List.range 4).all (fun r => !refEnabled s r || (getRef s r).good)

/-- After a reference has qualified in S8: S8 ends at once where every enabled reference is good. -/
def checkS8 (s : State) : State := if inS8 s && s.tim.acqFirst.isSome && allGood s then endS8 s else s

/-! ### PTP (R140, R141) -/

/-- The grandmaster reference whose configured lane, transport, domain and clockIdentity a message shows. -/
def ptpRef (s : State) (m : PtpMsg) : Option Nat :=
  [2, 3].find? (fun r =>
    let off := 0x60 + 0x10 * (r - 2)
    decide (fget s bTIM off 0 6 = m.lane ∧ fget s bTIM off 16 2 = m.transport ∧ fget s bTIM off 8 7 = m.domain
      ∧ rawGet s bTIM (off + 4) + rawGet s bTIM (off + 8) * 2 ^ 32 = m.ident.toNat))

/-- A grandmaster is configured for peer-to-peer delay. -/
def isP2p (s : State) (r : Nat) : Bool := fget s bTIM (0x60 + 0x10 * (r - 2)) 18 1 == 1

/-- An ignored PTP message is counted on its lane. [log 38 DEDUCED, safe] -/
def ptpIgnored (s : State) (lane : Nat) : State := bumpWrap s bAWP (0x400 + 0x10 * lane) 0 32 1

/-- A handled PTP message of an enabled grandmaster does `f`; one of a grandmaster that TIM.REFEN disables does nothing; any
other is ignored and counted. No frame reaches the MAC of a lane that is not UP. [log 38 DEDUCED, safe] -/
def ptpMsg (s : State) (m : PtpMsg) (f : Nat → State) : State :=
  if laneUp s m.lane = false then s
  else match ptpRef s m with
    | none => ptpIgnored s m.lane
    | some r => if refEnabled s r then f r else s

/-- The sample of a grandmaster is complete: its offset is t1 − t2 + delay. It is valid while an Announce of the PTP
timescale stands within three announce intervals (Table 5.2). `t1` and `t2` are in 1/80,000 ns. [log 39 DEDUCED, unsafe] -/
def ptpSample (s : State) (r : Nat) (t1 t2 delay : Int) : State :=
  let k := getRef s r
  let heard := match k.lastAnn with | some t => decide (s.tim.ticks ≤ t) | none => false
  if heard && k.annPtp then checkS8 (validSample s r (t1 - t2 + delay))
  else updRef s r (fun x => { x with valid := 0 })

/-- A Sync, or a Follow_Up, completes the pair t1, t2. For a peer-to-peer grandmaster with a completed delay measurement that
forms a sample. -/
def syncDone (s : State) (r : Nat) (t1 : Int) : State :=
  let k := getRef s r
  let s1 := updRef s r (fun x => { x with syncTx := some t1 })
  if isP2p s r then
    match k.msDelay with
    | some d => ptpSample s1 r t1 (getRef s1 r).syncRx d
    | none => s1
  else s1

/-- SYNC: t2 is the corrected receive timestamp; a one-step Sync carries t1. -/
def execSync (m : PtpMsg) (s : State) : Host.Outcome State Fault Refusal :=
  .next (ptpMsg s m (fun r =>
    if m.logSync < -4 ∨ m.logSync > 1 then ptpIgnored s m.lane
    else
      let s1 := updRef s r (fun x => { x with syncSeq := some m.seqId, syncRx := rxStamp s m.lane m.age m.var * 80000, syncTx := none, logSync := m.logSync })
      if m.twoStep then s1 else syncDone s1 r (m.stamp * 80000)))

/-- FOLLOW_UP: t1 of the two-step Sync with its sequence number. -/
def execFollowUp (m : PtpMsg) (s : State) : Host.Outcome State Fault Refusal :=
  .next (ptpMsg s m (fun r =>
    let k := getRef s r
    if k.syncSeq = some m.seqId ∧ k.syncTx = none then syncDone s r (m.stamp * 80000) else s))

/-- DELAY_RESP: t4 for the Delay_Req that the MAC sent at `sent` with VAR_tx `var`, in 1/16 ns (t3). With t1 and t2 it forms a sample, whose delay
is half of (t2 − t1) + (t4 − t3). [log 39 DEDUCED, unsafe] -/
def execDelayResp (m : PtpMsg) (sent : Int) (var : Nat) (s : State) : Host.Outcome State Fault Refusal :=
  .next (ptpMsg s m (fun r =>
    let k := getRef s r
    match isP2p s r, k.syncTx with
    | false, some t1 =>
      ptpSample (updRef s r (fun x => { x with syncTx := none, syncSeq := none })) r t1 k.syncRx
        (((k.syncRx - t1) + (m.stamp - txStamp s m.lane sent var) * 80000) / 2)
    | _, _ => s))

/-- PDELAY_REQ: answered with a one-step Pdelay_Resp on its lane. [log 39 DEDUCED, unsafe] -/
def execPdelayReq (m : PtpMsg) (s : State) : Host.Outcome State Fault Refusal :=
  .next (if laneUp s m.lane = false then s
    else match ptpRef s m with
      | none => ptpIgnored s m.lane
      | some _ => emitOut s (.pdelay m.lane m.seqId))

/-- PDELAY_RESP: the peer held the device's Pdelay_Req, which the MAC sent at `sent` with VAR_tx `var`, in 1/16 ns, for
`m.stamp` ns; the delay is half of the time
beyond that. A Sync that waits for it forms a sample. [log 39 DEDUCED, unsafe] -/
def execPdelayResp (m : PtpMsg) (sent : Int) (var : Nat) (s : State) : Host.Outcome State Fault Refusal :=
  .next (ptpMsg s m (fun r =>
    if isP2p s r then
      let k := getRef s r
      let d := (rxStamp s m.lane m.age m.var - txStamp s m.lane sent var - m.stamp) * 80000 / 2
      let s1 := updRef s r (fun x => { x with msDelay := some d })
      match k.msDelay, k.syncTx with
      | none, some t1 => ptpSample s1 r t1 k.syncRx d
      | _, _ => s1
    else s))

/-- ANNOUNCE: its interval is 2^logSync s; `ptpScale` is ptpTimescale, `offset` its currentUtcOffset. A disagreement with the
leap-second table is recorded at most once an hour. [log 39 DEDUCED, unsafe] -/
def execAnnounce (m : PtpMsg) (ptpScale : Bool) (offset : Int) (s : State) : Host.Outcome State Fault Refusal :=
  .next (ptpMsg s m (fun r =>
    let serve : Nat := if m.logSync ≥ 0 then ticksOfS 3 * 2 ^ m.logSync.toNat else ticksOfS 3 / 2 ^ (-m.logSync).toNat
    let s1 := updRef s r (fun x => { x with lastAnn := some (s.tim.ticks + serve), annPtp := ptpScale })
    let quiet := match (getRef s r).utcEvt with | some t => decide (s.since t < ticksOfS 3600) | none => false
    if ptpScale && decide (offset ≠ (leapNow s).1) && !quiet then
      eventD (updRef s1 r (fun x => { x with utcEvt := some s.tim.ticks })) 9 0x0C 0x0585
        [r - 2, satSigned 64 offset, satSigned 64 (leapNow s).1] 0
    else s1))

/-- PTP_SAMPLE_TIMEOUT: three sync intervals without a valid sample (Table 5.2). -/
def execPtpSampleTimeout (gm : Nat) (s : State) : Host.Outcome State Fault Refusal :=
  let r := 2 + gm
  let k := getRef s r
  let three := ticksOfS 3 * 2 ^ (k.logSync + 4).toNat / 16
  match k.lastSample with
  | some t =>
    if gm < 2 ∧ k.good = true ∧ s.since t ≥ three then
      .next (recompute (bumpSat (updRef s r (fun x => { x with good := false, valid := 0 })) bTIM 0x88 0 32 1))
    else .next s
  | none => .next s

/-! ### PPS and time of day (R136, R137) -/

/-- The line of an edge never came: that second's sample is invalid. -/
def lineLost (s : State) (r : Nat) : State :=
  if (getRef s r).waiting then invalidSample (updRef s r (fun x => { x with waiting := false, todSec := none })) r else s

/-- PPS_EDGE on PPSA (0) or PPSB (1). [log 30 DEDUCED, safe] -/
def execPpsEdge (r : Nat) (s : State) : Host.Outcome State Fault Refusal :=
  if r ≥ 2 ∨ refEnabled s r = false then .next s
  else
    let s1 := lineLost s r
    let good := match (getRef s r).lastEdge with
      | some t => !(getRef s r).missed && decide (s.since t + 800 ≥ ticksOfS 1 ∧ s.since t ≤ ticksOfS 1 + 800)
      | none => false
    .next (updRef s1 r (fun x => { x with lastEdge := some s.tim.ticks, missed := false, edgeOk := good, waiting := true }))

/-- TOD_LINE: second `sec` of the next edge, whether q is 1, whether the CRC holds. The line's own edge is at second
sec − 1; the offset is taken at the end of the line. [log 30 DEDUCED, safe] -/
def execTodLine (r sec : Nat) (locked crcOk : Bool) (s : State) : Host.Outcome State Fault Refusal :=
  let k := getRef s r
  match k.lastEdge with
  | some t =>
    if r ≥ 2 ∨ refEnabled s r = false ∨ k.waiting = false then .next s
    else
      let inWindow := decide (ticksOfMs 50 ≤ s.since t ∧ s.since t ≤ ticksOfMs 950)
      let s1 := updRef s r (fun x => { x with waiting := false, todSec := if crcOk && inWindow then some sec else none })
      if k.edgeOk && inWindow && crcOk && locked && decide (k.todSec = some (sec - 1) ∧ sec > 0) then
        .next (checkS8 (validSample s1 r (((sec : Int) - 1) * 80000000000000 + 100000 * (s.since t : Int) - s.tim.tai)))
      else .next (invalidSample s1 r)
  | none => .next s

/-- PPS_MISSING: no edge came within 1 µs after the second. -/
def execPpsMissing (r : Nat) (s : State) : Host.Outcome State Fault Refusal :=
  match (getRef s r).lastEdge with
  | some t =>
    if r ≥ 2 ∨ refEnabled s r = false ∨ s.since t ≤ ticksOfS 1 + 800 then .next s
    else .next (invalidSample (updRef (lineLost s r) r (fun x => { x with lastEdge := some (t + ticksOfS 1), missed := true, todSec := none })) r)
  | none => .next s

/-! ### Uncertainty and slew -/

/-- U_RECOMPUTE: every 1,024 ticks. -/
def execURecompute (s : State) : Host.Outcome State Fault Refusal :=
  match s.tim.uHist with
  | (t, _) :: _ => .next (if s.since t ≥ 1024 then recompute s else s)
  | [] => .next (recompute s)

/-- SLEW_END: nothing remains to be corrected, so u follows the formula alone. -/
def execSlewEnd (s : State) : Host.Outcome State Fault Refusal := .next (if s.tim.rem = 0 then recompute s else s)

/-- LEAP_TABLE_INSTANT. -/
def execLeapTableInstant (s : State) : Host.Outcome State Fault Refusal := .next (putLeap s)

/-- The end of the first reference's wait. -/
def execAcqWaitExpire (s : State) : Host.Outcome State Fault Refusal :=
  match s.tim.acqFirst with
  | some t => .next (if inS8 s && decide (s.since t ≥ ticksOfS (fget s bTIM 0x30 16 8)) then endS8 s else s)
  | none => .next s

/-! ### PPS_OUT (R156) -/

/-- One second of the time base. -/
def secUnits : Nat := 80000000000000

/-- A base instant against its nearest second boundary, in ns. -/
def secPhase (tai : Nat) : Int :=
  let f := tai % secUnits
  if 2 * f < secUnits then ((f / 80000 : Nat) : Int) else -(((secUnits - f) / 80000 : Nat) : Int)

/-- An edge is due: the first at a second boundary after S8; a later one at the first boundary that keeps it within 100 ns of
a second after its predecessor, else at that limit; the first after a step with PPSSTEP at the first boundary at least 500
ms later. [log 42 DEDUCED, unsafe] -/
def ppsDue (s : State) : Bool :=
  match s.tim.ppsLast with
  | none => s.tim.acquired && decide (s.tim.tai % secUnits < 200000)
  | some t =>
    let e := s.since t
    if s.tim.ppsStepped then
      decide (e ≥ ticksOfMs 500 ∧ s.tim.tai / secUnits > (s.tim.tai - 100000 * (e - ticksOfMs 500) - 1) / secUnits)
    else decide (e + 80 ≥ ticksOfS 1 ∧ (2 * (s.tim.tai % secUnits) < secUnits ∨ e ≥ ticksOfS 1 + 80))

/-- PPS_OUT_EDGE. [log 42 DEDUCED, unsafe] -/
def execPpsOutEdge (s : State) : Host.Outcome State Fault Refusal :=
  if ppsDue s then
    .next (emitOut { s with tim.ppsLast := some s.tim.ticks, tim.ppsPhase := secPhase s.tim.tai, tim.ppsStepped := false } (.pps s.now))
  else .next s

/-! ### The root PLL's inputs (R133) -/

/-- The inputs in the order of preference: 0 REF10A, 1 REF10B, 2 REF10L. -/
def inputOrder (s : State) : List Nat := if fget s bCLK 0x30 0 1 = 1 then [1, 0, 2] else [0, 1, 2]

/-- The first usable input. -/
def bestInput (s : State) : Option Nat := (inputOrder s).find? (fun i => bit s.tim.usable i)

/-- The PLL switches from one input to another. [log 41 DEDUCED, safe] -/
def switchInput (s : State) (i : Nat) : State :=
  let s1 : State := { s with tim.pllSrc := i, tim.pllLock := true }
  eventD (bumpSat s1 bCLK 0x40 0 32 1) 9 0x0C 0x0584 [s.tim.pllSrc, i] 0

/-- An input is usable from now on. -/
def inputUsable (s : State) (i : Nat) : State :=
  { s with tim.usable := setBits s.tim.usable i 1 1, tim.usableSince := upd s.tim.usableSince i (fun _ => s.tim.ticks) }

/-- REF_INPUT_LOSS: where it was selected, the PLL switches to the next usable input or holds its frequency. [log 41 DEDUCED, safe] -/
def execRefInputLoss (inp : Nat) (s : State) : Host.Outcome State Fault Refusal :=
  if inp ≥ 3 then .next s
  else
    let s1 : State := { s with tim.usable := setBits s.tim.usable inp 1 0 }
    if s.tim.pllSrc ≠ inp then .next s1
    else match bestInput s1 with
      | some j => .next (switchInput s1 j)
      | none => .next { s1 with tim.pllSrc := 3, tim.pllLock := false }

/-- REF_INPUT_RETURN: an input becomes usable again; one of higher priority that has been usable for 60 s is selected. [log 41 DEDUCED, safe] -/
def execRefInputReturn (inp : Nat) (s : State) : Host.Outcome State Fault Refusal :=
  if inp ≥ 3 ∨ s.tim.pllSrc = 3 then .next s
  else if bit s.tim.usable inp = false then .next (inputUsable s inp)
  else if (inputOrder s).idxOf inp < (inputOrder s).idxOf s.tim.pllSrc ∧ s.since ((s.tim.usableSince[inp]?).getD 0) ≥ ticksOfS 60 then
    .next (switchInput s inp)
  else .next s

/-- PLL_LOCK_REGAINED: while no input is usable, one becomes usable and the PLL locks to it. -/
def execPllLockRegained (inp : Nat) (s : State) : Host.Outcome State Fault Refusal :=
  if inp < 3 ∧ s.tim.pllSrc = 3 ∧ s.tim.running = true then
    .next { inputUsable s inp with tim.pllSrc := inp, tim.pllLock := true }
  else .next s

end Sys2Proof.Machine
end

