-- ==== Sys2Proof/Machine/FlashRows.lean ====
section
/-! DEFINITION. Rows, Heartwood and flash maintenance as commands (chapters 17 and 18): rows to flash, seals, freeing, die
failure and rebuild, patrol, evaluation, relocation, wear, checkpoints, calibration. -/
namespace Sys2Proof.Machine

open Sys2Proof

/-! ### Rows (R434, R444, R443, R634) -/

/-- The open row of stream t goes to flash: a PAD item covers the rest. -/
def padRow (s : State) (t : Nat) : State := bumpWrap { s with jrn.rows := closeRow s.jrn.rows t } bJRN 0x48 0 32 1

/-- ROW_HOLD_TIMEOUT: ROWMAX µs since the first item of stream t's open row. -/
def execRowHoldTimeout (t : Nat) (s : State) : Host.Outcome State Fault Refusal :=
  .next (match openRow s.jrn.rows t with
    | some r => if s.since r.opened ≥ ticksOfUs (fget s bJRN 0x30 0 16) then padRow s t else s
    | none => s)

/-- FCDELAY_TIMEOUT: FCDELAY µs since the first item in stream t's open row that waits for durability under FLASH commit. -/
def execFcdelayTimeout (t : Nat) (s : State) : Host.Outcome State Fault Refusal :=
  .next (match openRow s.jrn.rows t with
    | some r => match r.waitSince with
      | some w => if s.since w ≥ ticksOfUs (fget s bJRN 0x30 16 16) then padRow s t else s
      | none => s
    | none => s)

/-- The oldest row of a stream in the buffer. -/
def oldestRow (s : State) (t : Nat) : Option Row := s.jrn.rows.find? (fun r => r.stream == t)

/-- The TAI hour. -/
def nowHour (s : State) : Nat := nowSec s / 3600

/-- Rows programmed in the last 24 hours. -/
def rows24 (s : State) : Nat := ((s.fla.written.filter (fun p => decide (nowHour s < p.1 + 24))).map (·.2)).sum

/-- ROW_PROGRAM_COMPLETE: the oldest row of stream t, closed, has programmed; `fails` and `again` are the channels whose program,
and whose repeated program, failed (R458). Its grains are durable (R634). -/
def execRowProgramComplete (t : Nat) (fails again : List Nat) (s : State) : Host.Outcome State Fault Refusal :=
  match oldestRow s t with
  | none => .next s
  | some r =>
    .next (if r.closed = false then s
    else match programRow s t false r.seg fails again with
      | none => s
      | some s1 =>
        let st := strm s1 t
        let s2 := setStrm s1 t { st with progRow := r.idx + 1 }
        let s3 : State := { s2 with jrn.rows := s2.jrn.rows.filter (fun x => !(x.stream == t && x.idx == r.idx)),
                                    fla.written := (ins s2.fla.written (nowHour s2) (lkD s2.fla.written (nowHour s2) 0 + 1)).filter (fun p => decide (nowHour s2 < p.1 + 25)) }
        let upTo := (st.grains.filter (fun g => decide (g.row ≤ r.idx))).foldl (fun a g => max a (g.seq + 1)) 0
        nowDurable (bumpWrap s3 bJRN 0x44 0 32 1) t upTo)

/-! ### Heartwood (R436, R437) -/

/-- The oldest closed segment of a stream that has no seal, all its rows programmed. -/
def nextSeal (s : State) (t : Nat) : Option Segment :=
  match ((strm s t).segs.filter (fun g => g.closed && g.sealTai.isNone && !g.retired)).getLast? with
  | some g => if g.lastRow < (strm s t).progRow then some g else none
  | none => none

/-- The seal record of a segment, 196 bytes before its signature. -/
def sealRecord (s : State) (t : Nat) (g : Segment) : List Byte :=
  be 1 t ++ be 3 0 ++ be 8 g.no ++ be 8 g.first ++ be 8 (g.next - 1) ++ digBytes g.lastDig
    ++ be 48 (Config.segDigest t g.epoch g.no).toNat ++ be 48 (lkD s.jrn.lastSeal t 0).toNat ++ be 8 s.now ++ digBytes Config.idHash

/-- Room for a Heartwood superblock of a stream outside the reserves of R457. [log 60 DEDUCED, unsafe] -/
def heartRoom (s : State) (t : Nat) : Bool :=
  (match openSuper s t true with | some x => decide (x.rows + 4 ≤ 1152) | none => false)
    || (List.range 16).all (fun c => decide (freeCount s c > reserved s c))

/-- The four rows of a Heartwood copy. -/
def copyRows : Nat → State → Nat → Nat → List Nat → List Nat → Option State
  | 0, s, _, _, _, _ => some s
  | n + 1, s, t, no, fails, again =>
    match programRow s t true no (if n = 0 then fails else []) (if n = 0 then again else []) with
    | some s1 => copyRows n s1 t no fails again
    | none => none

/-- HEARTWOOD_SEAL: the oldest unsealed closed segment of stream t is copied and sealed, outside quiet windows (R469) and
HOLD (R55). -/
def execHeartwoodSeal (t : Nat) (fails again : List Nat) (s : State) : Host.Outcome State Fault Refusal :=
  match nextSeal s t with
  | none => .next s
  | some g =>
    .next (if inQuiet s || s.inMode .hold || (s.inMode .sealed && !s.sec.s5done) || !(heartRoom s t) then s
    else match copyRows 4 s t g.no fails again with
      | none => s
      | some s1 =>
        let dig := Config.sha384 (sealRecord s1 t g)
        let st := strm s1 t
        let s2 := setStrm s1 t { st with segs := st.segs.map (fun x => if x.no = g.no then { x with sealTai := some s1.now, sealDig := dig } else x) }
        bumpWrap { s2 with jrn.lastSeal := ins s2.jrn.lastSeal t dig } bJRN 0x54 0 32 1)

/-- The erase of a block: it is FREE, or GROWN_BAD where its erase fails (R458). [log 58 DEDUCED, safe] -/
def eraseBlk (s : State) (k : Nat) (fail : Bool) : State :=
  if fail then growBad (bumpSat s bFLC 0xA4 0 32 1) k
  else updBlk s k (fun b => { b with st := 0, members := 0, queued := none, reads := 0, level := 0, measSec := 0, rber := 0 })

/-- A superblock's blocks are erased and it is gone. -/
def eraseSuper (s : State) (x : Super) (bad : List Nat) : State :=
  let s1 := (x.blocks ++ x.extra).foldl (fun a k => if (getBlk a k).good then eraseBlk a k (bad.contains k) else a) s
  { s1 with fla.supers := s1.fla.supers.filter (· ≠ x) }

/-- A segment's Heartwood copy is sealed and SAPRET has passed since it closed (R436, R437). -/
def sapDone (s : State) (g : Segment) : Bool :=
  g.sealTai.isSome && decide (s.now ≥ g.closedTai + fget s bJRN 0x34 0 16 * 3600000000000)

/-- SAPWOOD_FREE: the n-th superblock, of Sapwood and closed, is freed once every segment with rows in it may be; `bad` are the
blocks whose erase fails. -/
def execSapwoodFree (n : Nat) (bad : List Nat) (s : State) : Host.Outcome State Fault Refusal :=
  match s.fla.supers[n]? with
  | none => .next s
  | some x =>
    .next (if x.tlc || x.isOpen || s.inMode .hold || !(x.segs.all (fun no => (strm s x.stream).segs.all (fun g => g.no != no || sapDone s g || g.retired))) then s
    else
      let s1 := eraseSuper s x bad
      let left := (s1.fla.supers.filter (fun y => y.stream == x.stream && !y.tlc)).flatMap (·.segs)
      let st := strm s1 x.stream
      setStrm s1 x.stream { st with segs := st.segs.map (fun g => if x.segs.contains g.no && !(left.contains g.no) then { g with freed := true } else g) })

/-! ### Dies (R460 to R463) -/

/-- DIE_TIMEOUT: a die gives no ready status for the third time in a row, or its whole channel stops responding. [log 63 DEDUCED, safe] -/
def execDieTimeout (d : Nat) (channel : Bool) (s : State) : Host.Outcome State Fault Refusal :=
  .next (if channel then (channelDies s (d / 16)).foldl (fun a k => dieFail a k 1) s else dieFail s d 1)

/-- The superblocks name a new block in place of an old one. -/
def swapBlk (s : State) (old new : Nat) : State :=
  { s with fla.supers := s.fla.supers.map (fun x =>
      { x with blocks := x.blocks.map (fun k => if k = old then new else k), extra := x.extra.map (fun k => if k = old then new else k) }) }

/-- Segments with a member in a block. -/
def segsIn (s : State) (k : Nat) : Nat := ((s.fla.supers.filter (fun x => x.blocks.contains k || x.extra.contains k)).map (fun x => x.segs.length)).sum

/-- The content of a block moves to a FREE one: directory, members, and for Heartwood an index entry (R453, R467). -/
def moveBlk (s : State) (old new reason : Nat) : State :=
  let b := getBlk s old
  let n := segsIn s old
  let s1 := updBlk (takeBlock s new (b.st == 2)) new (fun x => { x with members := b.members, st := b.st })
  let s2 := swapBlk s1 old new
  if b.st = 2 then
    bumpWrap { s2 with fla.index := ⟨s2.now, old / 8192, old % 8192, new % 8192, b.members, n, reason⟩ :: s2.fla.index } bFLC 0xA8 0 32 1
  else s2

/-- The blocks of a FAILED die with content move, one by one, to other good dies of its channel; none where one cannot. [log 63 DEDUCED, safe] -/
def rebuildBlks : List Nat → State → Option State
  | [], s => some s
  | k :: l, s =>
    match pickBlock s (k / 8192 / 16) with
    | none => none
    | some n => rebuildBlks l (updBlk (moveBlk s k n reREBUILD) k (fun b => { b with members := 0, queued := none }))

/-- REBUILD_COMPLETE: the rebuild of a FAILED die ends; where the channel has no good die or too few FREE blocks it is not
rebuilt (R463). -/
def execRebuildComplete (d : Nat) (s : State) : Host.Outcome State Fault Refusal :=
  .next (if (getDie s d).st ≠ 1 ∨ s.inMode .hold = true then s
  else
    let bs := (listed s d).filter (fun p => p.2.st == 1 || p.2.st == 2 || p.2.st == 3)
    match rebuildBlks (bs.map (·.1)) s with
    | none => putFailcnt { s with fla.stuck := if s.fla.stuck.contains d then s.fla.stuck else s.fla.stuck ++ [d] }
    | some s1 =>
      let s2 := putFailcnt (updDie s1 d (fun x => { x with st := 2 }))
      eventD (fset s2 bFLC 0x14 16 7 100) 9 12 0x0A82 [d, (bs.map (fun p => p.2.members)).sum] 0)

/-! ### Patrol, evaluation, relocation (R464 to R470) -/

/-- PATROL_READ: the sampled pages of block k; deferred in quiet windows, and not run in HOLD. -/
def execPatrolRead (k : Nat) (reads : List FlashRead) (s : State) : Host.Outcome State Fault Refusal :=
  let b := getBlk s k
  .next (if inQuiet s || s.inMode .hold || (getDie s (k / 8192)).st != 0 || !b.good || b.st == 0 then s
  else bumpWrap (updBlk (flashReads s (reads.filter (fun r => r.blk == k))) k (fun b => { b with patrol := nowSec s })) bFLC 0x80 0 32 1)

/-- Hours between patrols of a block (R464). -/
def patrolHours (s : State) (b : Blk) : Nat := if b.st = 2 ∨ b.st = 4 then fget s bFLC 0x34 16 10 else fget s bFLC 0x34 0 10

/-- The predicted RBER of block k at its next patrol, in millionths of a ppm (R465); 0 before any measurement. -/
def predicted (s : State) (k : Nat) : Nat :=
  let b := getBlk s k
  if b.measSec = 0 then 0
  else b.rber * 1000000 + b.slope * Config.agedMilli (k / 8192) b.measSec (quietEnd s 8 (b.patrol + patrolHours s b * 3600))

/-- A block is queued for relocation, a floor reason over a policy one; a floor relocation that starts in a quiet window or in HOLD
has its override event (R470, R55). [log 64 DEDUCED, unsafe] -/
def queueBlk (s : State) (k reason val floor : Nat) : State :=
  match (getBlk s k).queued with
  | some (0, t0) =>
    if reason = rePOLICY then s
    else
      let s1 := updBlk s k (fun b => { b with queued := some (reason, t0) })
      if inQuiet s || s.inMode .hold then mediaOverride s1 (k / 8192) (k % 8192) reason val floor else s1
  | some _ => s
  | none =>
    let s1 := updBlk s k (fun b => { b with queued := some (reason, s.tim.ticks) })
    if reason ≠ rePOLICY ∧ (inQuiet s || s.inMode .hold) = true then mediaOverride s1 (k / 8192) (k % 8192) reason val floor else s1

/-- BLOCK_EVALUATE: block k against the floor and the policy levels of R465. [log 64 DEDUCED, unsafe] -/
def execBlockEvaluate (k : Nat) (s : State) : Host.Outcome State Fault Refusal :=
  let b := getBlk s k
  let p := predicted s k
  let lim := rdLimit b.tlc
  .next (if !(b.st == 1 || b.st == 2 || b.st == 3) || (getDie s (k / 8192)).st != 0 then s
  else if p > 5500 * 1000000 ∨ b.level = 17 then queueBlk s k reFLOOR (p / 1000000) 5500
  else if b.reads ≥ lim then queueBlk s k reDISTURB b.reads lim
  else if p > fget s bFLC 0x30 0 6 * 110 * 1000000 ∨ b.reads * 100 ≥ fget s bFLC 0x30 8 7 * lim ∨ b.level = 16 then queueBlk s k rePOLICY 0 0
  else s)

/-- The block of the oldest policy trigger. -/
def oldestPolicy (s : State) (k since : Nat) : Bool :=
  s.fla.blocks.all (fun p => match p.2.queued with | some (0, t) => decide (since ≤ t) || p.1 == k | _ => true)

/-- A block belongs to an open superblock, or to a segment that an accepted RETIRE names (R466, R440). -/
def pinned (s : State) (k : Nat) : Bool :=
  s.fla.supers.any (fun x => (x.blocks.contains k || x.extra.contains k) &&
    (x.isOpen || (strm s x.stream).segs.any (fun g => g.retired && x.segs.contains g.no)))

/-- The relocation of a queued block may run: policy outside quiet windows and HOLD, oldest trigger first; the floor always. -/
def mayMove (s : State) (k reason since : Nat) : Bool :=
  !(pinned s k) && (getDie s (k / 8192)).st == 0 &&
    (if reason = rePOLICY then !(inQuiet s) && !(s.inMode .hold) && oldestPolicy s k since
     else if reason = rePROGFAIL then !(s.inMode .hold) else true)

/-- RELOCATION: a queued block's members are copied, verified and logged, and the old block erased; `eraseFail` says that the erase
failed, `lost` which grains the old copy could not give. [log 64 DEDUCED, unsafe] -/
def execRelocation (k : Nat) (eraseFail : Bool) (lost : List (Nat × Nat)) (s : State) : Host.Outcome State Fault Refusal :=
  match (getBlk s k).queued with
  | none => .next s
  | some (reason, since) =>
    match (if mayMove s k reason since then pickOn s (k / 8192) else none) with
    | none => .next s
    | some n =>
      let s1 := lost.foldl (fun a p => mediaError a p.1 p.2 (k / 8192) (k % 8192)) (moveBlk s k n reason)
      let s2 := if reason = rePOLICY then bumpWrap s1 bFLC 0x84 0 32 1
                else if reason = rePROGFAIL then s1 else bumpWrap s1 bFLC 0x88 0 32 1
      .next (if reason = rePROGFAIL then growBad s2 k else eraseBlk s2 k eraseFail)

/-- QUIET_WINDOW_BOUNDARY: MSTATE.QUIET shows whether a window is in force. -/
def execQuietWindowBoundary (s : State) : Host.Outcome State Fault Refusal :=
  .next (fset s bFLC 0x14 6 1 (b2n (inQuiet s)))

/-! ### Wear (R471 to R474, R457) -/

/-- Good blocks of the device, in a mode where `tlc` says so, and those in neither. -/
def goodBlks (s : State) : List Blk := ((s.fla.blocks.filter (fun p => (getDie s (p.1 / 8192)).st == 0)).map (·.2)).filter (·.good)

/-- Blocks of good dies that the table does not list: FREE and unused. -/
def unlisted (s : State) : Nat :=
  ((List.range 16).map (fun c => ((goodDies s c).map (fun d => dieBlocks - (listed s d).length)).sum)).sum

/-- Block programs of the last 24 hours in a mode. -/
def progs24 (s : State) (tlc : Bool) : Nat :=
  ((s.fla.progs.filter (fun p => p.2.1 == tlc && decide (s.since p.1 < ticksOfS 86400))).map (·.2.2)).sum

/-- The prediction of R472 for a block. -/
def eolOf (s : State) (b : Blk) : Nat × Nat × Nat :=
  Config.blockEol b.fresh b.used b.tlc (progs24 s b.tlc) (if b.tlc then ((goodBlks s).filter (·.tlc)).length else ((goodBlks s).filter (fun x => !x.tlc)).length + unlisted s)

/-- Every block's prediction is recomputed, and each die's median (R471, R472). -/
def wearBlocks (s : State) : State :=
  let s1 : State := { s with fla.blocks := s.fla.blocks.map (fun p => if p.2.good then
      (p.1, { p.2 with eol := (eolOf s p.2).1, lo := (eolOf s p.2).2.1, hi := (eolOf s p.2).2.2 }) else p) }
  (List.range 16).foldl (fun a c => (goodDies a c).foldl (fun a d =>
    updDie a d (fun x => { x with eol := median ((blocksOfDie a d).filter (·.good) |>.map (·.eol)) })) a) s1

/-- Heartwood segments held: TAI second of the seal, retention in days. -/
def sealedSegs (s : State) : List (Nat × Nat) :=
  (List.range 65).flatMap (fun t => ((strm s t).segs.filter (fun g => !g.retired)).filterMap (fun g =>
    g.sealTai.map (fun x => (x / 1000000000, fget s bJRN (0x100 + 4 * t) 0 16))))

/-- Reserve of R473 in KiB: BOOT, MAP and FACTORY_BAD blocks and the reserves of R457, 18 MiB of TLC each. [log 65 DESIGN CHOICE, unsafe] -/
def reserveKib (s : State) : Nat :=
  18432 * (16 + (s.fla.blocks.filter (fun p => p.2.st == 3 || p.2.st == 5)).length + ((List.range 16).map (reserved s)).sum)

/-- The loop of R473: from day d, with `eols` the ends of life of the blocks good now and `more` further blocks of end of life
`moreEol`; figures in KiB, a row carrying 192 KiB and a segment 768 KiB of data. -/
def eolLoop : Nat → Nat → List Nat → Nat → Nat → Nat → Nat → List (Nat × Nat) → Nat → Nat
  | 0, _, _, _, _, _, _, _, _ => 65535
  | n + 1, d, eols, more, moreEol, reserve, rate, segs, now =>
    let blocks := (eols.filter (fun e => decide (e > d))).length + (if moreEol > d then more else 0)
    let held := (segs.filter (fun p => decide (p.1 + p.2 * 86400 > now + d * 86400))).length
    let need := 768 * held + 24 * rate * d + 216 * rate
    if 13824 * blocks < need + reserve then d else eolLoop n (d + 1) eols more moreEol reserve rate segs now

/-- Device end of life from a choice of each block's figure. [log 65 DESIGN CHOICE, unsafe] -/
def deviceEol (s : State) (pick : Nat × Nat × Nat → Nat) : Nat :=
  eolLoop 3651 0 ((goodBlks s).map (fun b => pick (b.eol, b.lo, b.hi))) (unlisted s) (pick (eolOf s (blkReset 8))) (reserveKib s)
    (8 * rows24 s) (sealedSegs s) (nowSec s)

/-- Free superblocks outside the reserves. [log 65 DESIGN CHOICE, unsafe] -/
def freeSupers (s : State) : Nat :=
  match (List.range 16).map (fun c => freeCount s c - reserved s c) with
  | [] => 0
  | a :: l => l.foldl min a

/-- Hours that a number of superblocks holds at the 24-hour average rate: 384 rows of data each. [log 65 DESIGN CHOICE, unsafe] -/
def hoursOf (s : State) (supers : Nat) : Nat := if rows24 s = 0 then 65535 else sat 16 (supers * 384 * 24 / rows24 s)

/-- A warning level of R474: set with its event and a line on both consoles, cleared after 24 hourly evaluations above its clearing
level; gives the count of such hours. [log 65 DESIGN CHOICE, unsafe] -/
def wearLevel (s : State) (lo code setAt clearAt eol hours : Nat) : State × Nat :=
  let on := fget s bFLC 0x14 lo 1 = 1
  if eol ≤ setAt ∧ ¬ on then
    let s1 := eventD (fset s bFLC 0x14 lo 1 1) 9 12 0x0A84 [code, eol] 0
    let cfg := rawGet s bSYS 0x80
    let s2 := if bit cfg 0 then s1 else evtOn s1 0 ⟨0x0A84, [code, eol]⟩
    (if bit cfg 1 then s2 else evtOn s2 1 ⟨0x0A84, [code, eol]⟩, 0)
  else if on then
    if eol > clearAt then (if hours + 1 ≥ 24 then (fset s bFLC 0x14 lo 1 0, 0) else (s, hours + 1)) else (s, 0)
  else (s, 0)

/-- WEAR_EVALUATE, at most hourly. -/
def execWearEvaluate (s : State) : Host.Outcome State Fault Refusal :=
  .next (if s.since s.fla.evalTick < ticksOfS 3600 then s
  else
    let s1 := wearBlocks { s with fla.evalTick := s.tim.ticks }
    let eol := deviceEol s1 (·.1)
    let s2 := rawSet s1 bFLC 0x18 (eol + 65536 * deviceEol s1 (·.2.1))
    let free := hoursOf s2 (freeSupers s2)
    let s3 := rawSet (rawSet s2 bFLC 0x1C (deviceEol s2 (·.2.2) + 65536 * free)) bFLC 0x20 (rows24 s2 / 128)
    let s4 := fset s3 bJRN 0x38 0 16 (hoursOf s3 (freeSupers s3 + (s3.fla.supers.filter (fun x => !x.tlc)).length))
    let low := decide (free < 24)
    let s5 := if low && fget s4 bFLC 0x14 10 1 == 0 then eventD s4 9 12 0x0A83 [free] 0 else s4
    let s6 := fset s5 bFLC 0x14 10 1 (b2n low)
    let w := wearLevel s6 8 1 180 200 eol s6.fla.warnHours
    let c := wearLevel w.1 9 2 30 40 eol s6.fla.critHours
    { c.1 with fla.warnHours := w.2, fla.critHours := c.2 })

/-! ### Checkpoints and calibration (R453) -/

/-- MAP_CHECKPOINT, every 10 minutes. [log 66 DEDUCED, safe] -/
def execMapCheckpoint (s : State) : Host.Outcome State Fault Refusal :=
  .next (if s.since s.fla.ckptTick ≥ ticksOfS 600 then { s with fla.ckpt := s.fla.blocks, fla.ckptTick := s.tim.ticks } else s)

/-- ZQ_CALIBRATION of each die, every 100 ms. -/
def execZqCalibration (s : State) : Host.Outcome State Fault Refusal :=
  .next (if s.since s.fla.zqTick ≥ ticksOfMs 100 then { s with fla.zqTick := s.tim.ticks } else s)

/-- DQ_TRAINING of a die whose temperature has moved 20 °C since its last. -/
def execDqTraining (d : Nat) (temp : Int) (s : State) : Host.Outcome State Fault Refusal :=
  .next (if temp - (getDie s d).trainTemp ≥ 20 ∨ (getDie s d).trainTemp - temp ≥ 20 then updDie s d (fun x => { x with trainTemp := temp }) else s)

end Sys2Proof.Machine
end

