-- ==== Sys2Proof/Machine/Tamper.lean ====
section
/-! DEFINITION. Tamper sources and reactions, zeroization, the temperature sensors, the voted-copy scrubber (4.6, 4.7, R96 to
R98, R604, R614). -/
namespace Sys2Proof.Machine

open Sys2Proof

/-! ### Tamper reactions (R121 to R124) -/

/-- Sources of a TAMPER event: a loop, a witness tag, the die. [log 27 DESIGN CHOICE, unsafe] -/
def srcLOOP : Nat := 1
def srcWITNESS : Nat := 2
def srcDIE : Nat := 3

/-- A tamper class as it is raised: its source, its class in the order of Table 4.6 from 1, the loop or tag, EDGESEQ; where its
instant is not the present one, that instant with its uncertainty, and whether its grain is DEFERRED (R515). -/
structure Raise where
  src : Nat
  cls : Nat
  idx : Nat
  edge : Nat
  at_ : Option (Nat × Nat × Bool)

/-- A class raised at the present instant. [log 27 DESIGN CHOICE, unsafe] -/
def raiseNow (src cls idx edge : Nat) : Raise := ⟨src, cls, idx, edge, none⟩

/-- An event in stream D with header flags, which waits in the health event log where D takes no grain. -/
def eventFlags (s : State) (kind code : Nat) (par : List Nat) (tai u flags : Nat) : State :=
  let s1 := logEvent s ⟨code, par, tai, u, !s.jrn.dWritable, false⟩
  let s2 := if s.jrn.dWritable then reqD s1 ⟨hdrOf sD 9 kind flags tai u 0 0, evBody code par⟩ else s1
  evtLine s2 ⟨code, par⟩

/-- The reaction register of a class (Table 4.6). -/
def reactOff (r : Raise) : Nat := if r.src = srcLOOP then 0x60 + 4 * r.idx else if r.src = srcWITNESS then 0x80 else 0x84

/-- The reaction of a class: 0 LOG, 1 SUSPEND, 2 HOLD, 3 ZEROIZE. -/
def reaction (s : State) (r : Raise) : Nat := fget s bSEC (reactOff r) (2 * (r.cls - 1)) 2

/-- The bit of TSTAT that latches a class (Table 4.8); LOSS is the sixth class of a witness. -/
def latchBit (r : Raise) : Nat :=
  if r.src = srcLOOP then r.idx else if r.src = srcWITNESS then (if r.cls = 6 then 9 else 8) else 9 + r.cls

/-- The latch of R122 and its EVENT grain. -/
def latch (s : State) (r : Raise) : State :=
  let w := r.at_.getD (s.now, s.tim.u, false)
  eventFlags { s with sec.tstat := s.sec.tstat ||| 2 ^ latchBit r } 6 0x0385 [r.src, r.cls, r.idx, reaction s r, r.edge] w.1 w.2.1 (if w.2.2 then 4 else 0)

/-- SUSPEND: cause TAMPER in every book on sale, or pending for the SEALED exit (R122, R124). -/
def reactSuspend (s : State) : State :=
  if s.sec.exitDone then setCauseAll s cTAMPER s.now 0 else { s with sec.suspPend := true }

/-- ZEROIZE (R127, R129): every tenant key, session key, key slot and DRBG state is gone; ZEROIZED is set and ZCOUNT rises.
The tenants that held keys are noted, and the tick at which the erasure began. [log 73 DEDUCED, safe] -/
def zeroize (s : State) : State :=
  let v := s.sec.vault
  let held := s.awp.kek.map (·.1)
  { s with sec.vault := { v with swk := false, zeroized := true, zcount := sat 8 (v.zcount + 1),
                                 zkeys := v.zkeys ++ held.filter (fun t => !v.zkeys.contains t) },
           sec.eraseTick := some s.tim.ticks,
           awp.kek := [],
           awp.sessions := s.awp.sessions.map (fun p => (p.1, { p.2 with key := 0, keyHeld := false })),
           cpu.keys := [], cpu.draws := [], cpu.reseedAt := [],
           sys.regs := s.sys.regs.filter (fun p => !(decide (rkey bAWP 0x1100 ≤ p.1 ∧ p.1 < rkey bAWP 0x1200))) }

/-- A reaction with those that it includes (R122). -/
def react (s : State) (n : Nat) : State :=
  if n = 0 then s
  else if n = 1 then reactSuspend s
  else if n = 2 then enterHold (reactSuspend s) hTAMPER 0 0
  else enterHold (zeroize (reactSuspend s)) hZEROIZE 0 0

/-- Classes raised on one edge: each has its latch and its EVENT grain; the most severe reaction is carried out once (R123). [log 27 DESIGN CHOICE, unsafe] -/
def tamper (s : State) (l : List Raise) : State :=
  if s.pwr.held then s else react (l.foldl latch s) ((l.map (reaction s)).foldl max 0)

/-- CLOCK_TAMPER: the root clock is outside 1 % or has stopped. -/
def execClockTamper (s : State) : Host.Outcome State Fault Refusal := .next (tamper s [raiseNow srcDIE 3 0 0])

/-- SUPPLY_GLITCH. -/
def execSupplyGlitch (s : State) : Host.Outcome State Fault Refusal := .next (tamper s [raiseNow srcDIE 1 0 0])

/-! ### Temperatures (R604, R614, R135) -/

/-- The hottest of the sensors and its channel, the lowest channel on a tie. -/
def hottest : List Int → Nat → Int × Nat
  | [], _ => (0, 0)
  | [t], i => (t, i)
  | t :: l, i => let r := hottest l (i + 1); if r.1 > t then r else (t, i)

/-- The tick since which a condition has held without a break. -/
def heldSince (now : Nat) (cond : Bool) (was : Option Nat) : Option Nat := if cond then some (was.getD now) else none

/-- A condition has held for a time. -/
def heldFor (now : Nat) (was : Option Nat) (n : Nat) : Bool := match was with | some t => decide (t + n ≤ now) | none => false

/-- The thermal step after a sample: 400 quanta set the first, 420 the second; a step is undone after 1 s at 380 or 400. [log 77 DEDUCED, safe] -/
def thermalStep (step : Nat) (hot : Int) (cool1 cool2 : Bool) : Nat :=
  if hot ≥ 420 then 2
  else if hot ≥ 400 then (if step = 2 && !cool2 then 2 else 1)
  else if step = 2 && !cool2 then 2
  else if step ≥ 1 && !cool1 then 1
  else 0

/-- The effective CCLK divider under a thermal step. -/
def effDivider (cclk step : Nat) : Nat := max cclk (if step = 2 then 4 else if step = 1 then 3 else 0)

/-- The throttle follows a sample: the step, CCLKEFF, THROTCNT, and the override event where CCLKEFF changes above CCLK. [log 77 DEDUCED, safe] -/
def throttle (s : State) (hot : Int) (idx : Nat) : State :=
  let now := s.tim.ticks
  let l1 := heldSince now (decide (hot ≤ 380)) s.hlt.step1Low
  let l2 := heldSince now (decide (hot ≤ 400)) s.hlt.step2Low
  let step := thermalStep s.hlt.step hot (heldFor now l1 (ticksOfS 1)) (heldFor now l2 (ticksOfS 1))
  let eff := effDivider s.tim.cclk.maj step
  let s1 : State := { s with hlt.step := step, hlt.step1Low := l1, hlt.step2Low := l2, tim.cclkEff := eff,
                             hlt.holdHot := heldSince now (decide (hot ≥ 460)) s.hlt.holdHot }
  let s2 := rawSet s1 bHLT 0x14 (step + 256 * idx + 65536 * satSigned 16 hot)
  let s3 := if step ≠ s.hlt.step then bumpSat s2 bHLT 0x64 0 32 1 else s2
  if eff ≠ s.tim.cclkEff ∧ eff > s.tim.cclk.maj then
    eventD s3 9 5 0x0D80 [step, eff, satSigned 64 hot, idx] 0
  else s3

/-- The junction is outside the limits of the TEMP class: below −10 °C or above 125 °C. -/
def tempOut (l : List Int) : Bool := l.any (fun t => decide (t < -40 ∨ t > 500))

/-- THERMAL_SAMPLE: the sensors of channels 0 to 14, in 0.25 °C. TEMP is raised once when the junction leaves its limits. A
wait of S2 for 0 °C ends with the sample that reaches it, and the time of S2 counts from there. [log 77 DEDUCED, safe] -/
def execThermalSample (temps : List Int) (s : State) : Host.Outcome State Fault Refusal :=
  if temps.isEmpty ∨ s.pwr.held = true then .next s
  else
    let h := hottest temps 0
    let s1 := throttle { s with hlt.temps := temps } h.1 h.2
    let out := tempOut temps
    let s2 : State := { s1 with hlt.tempTamper := out }
    let s3 : State :=
      if s2.sec.coldWait && decide (h.1 ≥ 0) then { s2 with sec.coldWait := false, sec.stepSince := s.tim.ticks } else s2
    .next (if out && !s.hlt.tempTamper then tamper s3 [raiseNow srcDIE 2 0 0] else s3)

/-- THERMAL_HOLD: the hottest sensor has stayed at or above TJ_HOLD for 1 ms. -/
def execThermalHold (s : State) : Host.Outcome State Fault Refusal :=
  .next (if heldFor s.tim.ticks s.hlt.holdHot (ticksOfMs 1) then enterHold s hTHERMAL 0 0 else s)

/-! ### The scrubber (R96 to R98, R45) -/

/-- The voted fields outside the parting table: block, offset, low bit, width (Tables 3.7, 4.8, 5.6, 5.7, 19.4). -/
def votedFields : List (Nat × Nat × Nat × Nat) :=
  [(bSYS, 0x20, 0, 3), (bCLK, 0x20, 0, 4), (bCLK, 0x28, 0, 4), (bCLK, 0x28, 4, 4), (bCLK, 0x28, 8, 4), (bCLK, 0x28, 12, 4),
   (bCLK, 0x28, 16, 5), (bCLK, 0x2C, 0, 8), (bCLK, 0x2C, 8, 8), (bTIM, 0x20, 0, 32), (bSEC, 0x18, 0, 1), (bSEC, 0x18, 1, 1),
   (bSEC, 0x18, 2, 1), (bPWR, 0x10, 0, 2)]

/-- The copies of a voted register; of a book's state where the block is PRT. The fixed dividers have no other value. -/
def getVoted (s : State) (b off key : Nat) : Voted :=
  if b = bSYS then s.sys.mode
  else if b = bCLK then (if off = 0x20 then s.tim.cclk else votedOf (resetWord b off))
  else if b = bTIM then s.tim.umax
  else if b = bSEC then s.sec.locks
  else if b = bPWR then s.pwr.eclass
  else (match lk s.books key with | some k => k.st | none => votedOf 0)

/-- The state with the copies of a voted register replaced. -/
def putVoted (s : State) (b off key : Nat) (v : Voted) : State :=
  if b = bSYS then { s with sys.mode := v }
  else if b = bCLK then (if off = 0x20 then { s with tim.cclk := v } else s)
  else if b = bTIM then { s with tim.umax := v }
  else if b = bSEC then { s with sec.locks := v }
  else if b = bPWR then { s with pwr.eclass := v }
  else (match lk s.books key with | some k => putBook s (key / 4096) (key % 4096) { k with st := v } | none => s)

/-- Flips of bits in the three copies of a voted field: block, offset, the book's key in PRT, and the bits flipped. -/
def flipped (v : Voted) (lo w : Nat) (u : Upset) : Voted :=
  let m (x : Nat) : Word32 := BitVec.ofNat 32 (bits x lo w * 2 ^ lo)
  ⟨v.c0 ^^^ m u.x0, v.c1 ^^^ m u.x1, v.c2 ^^^ m u.x2⟩

/-- One field of a voted register with its bits in each copy. [log 68 DEDUCED, unsafe] -/
def fieldVotes (v : Voted) (lo w : Nat) : Voted :=
  let f (x : Word32) : Word32 := BitVec.ofNat 32 (bits x.toNat lo w)
  ⟨f v.c0, f v.c1, f v.c2⟩

/-- A voted register with a field put from a number into all copies. -/
def fieldPut (v : Voted) (lo w n : Nat) : Voted :=
  let f (x : Word32) : Word32 := BitVec.ofNat 32 (setBits x.toNat lo w n)
  ⟨f v.c0, f v.c1, f v.c2⟩

/-- One field is upset and compared: a copy that disagrees alone is repaired, counted and journaled (R97). Gives whether no two
copies agree. [log 68 DEDUCED, unsafe] -/
def scrubField (s : State) (b off key lo w : Nat) (us : List Upset) : State × Bool :=
  let v := (us.filter (fun u => u.blk == b && u.off == off && (b != bPRT || u.key == key))).foldl (fun a u => flipped a lo w u) (getVoted s b off key)
  let f := fieldVotes v lo w
  if f.agree = false then (putVoted s b off key v, true)
  else match f.odd with
    | none => (putVoted s b off key v, false)
    | some i =>
      let s1 := bumpSat (putVoted s b off key (fieldPut v lo w f.maj)) bSYS 0x48 0 32 1
      (eventD s1 9 0xC 0x0181 [b, off, i] 0, false)

/-- Every voted field is compared in turn; gives whether some field has no two copies that agree, SYS.MODE apart. -/
def scrubAll (s : State) (us : List Upset) : State × Bool :=
  let a := (votedFields.drop 1).foldl (fun a f => let r := scrubField a.1 f.1 f.2.1 0 f.2.2.1 f.2.2.2 us; (r.1, a.2 || r.2)) (s, false)
  (s.books.map (·.1)).foldl (fun a k => let r := scrubField a.1 bPRT 0x14 k 0 3 us; (r.1, a.2 || r.2)) a

/-- TMR_SCRUB: `upsets` are the bits that have flipped in voted copies since the last comparison. [log 68 DEDUCED, unsafe] -/
def execTmrScrub (upsets : List Upset) (s : State) : Host.Outcome State Fault Refusal :=
  let m := scrubField s bSYS 0x20 0 0 3 upsets
  let r := scrubAll m.1 upsets
  if m.2 || (DMode.ofCode (r.1.sys.mode.maj % 8)).isNone then .next (enterHold r.1 hMODE_VOTE 0 0)
  else if r.2 then .next (enterHold r.1 hTMR_NOVOTE 0 0)
  else .next r.1

end Sys2Proof.Machine
end

