-- ==== Sys2Proof/Machine/Power.lean ====
section
/-! DEFINITION. The flush of the power-fail buffer, the entry grains of HOLD, the power-fail sequence, resets, and the rows of
chapter 19 and 4.1 (R64, R103, R104, R446, R477 to R496, R518, R612). -/
namespace Sys2Proof.Machine

open Sys2Proof

/-! ### The flush (R64, R446, R490) -/

/-- Rows programmed in the order given, each into its stream's open Sapwood superblock. -/
def programRows (s : State) (l : List Row) : State :=
  l.foldl (fun a r =>
    let a1 := (programRow a r.stream false r.seg [] []).getD a
    bumpWrap { a1 with fla.written := ins a1.fla.written (nowHour a1) (lkD a1.fla.written (nowHour a1) 0 + 1) } bJRN 0x44 0 32 1) s

/-- Every row in the buffer has been programmed and every chained grain is durable (the end of a flush). -/
def flushAll (s : State) : State :=
  let s1 := programRows s s.jrn.rows
  { s1 with jrn.rows := [], jrn.streams := s1.jrn.streams.map (fun p => (p.1, { p.2 with progRow := p.2.rowIdx, dur := p.2.chained })) }

/-- The entry grains of R64, each under FLASH commit: the COMMAND grains up to a command that caused the entry (R582), the
MODE and HOLD EVENT grains. [log 22 DEDUCED, unsafe] -/
def holdGrains (s : State) (hf : HoldFlush) : State :=
  let put (a : State) (t : Nat) (g : GReq) : State := chainGrain a t g 0 true
  let s1 := hf.tenants.foldl (fun a t => put a t ⟨hdrOf t 9 7 0 hf.tai hf.u 0 hf.cjn, evBody 0x0381 [hf.cause, hf.detail]⟩) s
  let cs := s1.con.cmds.filter (fun c => !c.grained && decide (c.cjn ≤ hf.cjn))
  let s2 := cs.foldl (fun a c => put a sD ⟨hdrOf sD 10 c.con 0 c.tai c.u 0 c.cjn, cmdBody c⟩) s1
  let s3 := put s2 sD ⟨hdrOf sD 9 1 0 hf.tai hf.u 0 hf.cjn, evBody 0x0380 [hf.old, 6, 0x100 + hf.cause, hf.cjn]⟩
  put s3 sD ⟨hdrOf sD 9 7 0 hf.tai hf.u 0 hf.cjn, evBody 0x0381 [hf.cause, hf.detail]⟩

/-- The HOLD flush completes (R64): the durable grains are in Sapwood, the entry grains are written and durable, the
journal is closed; the replies of commands that waited for it leave (R582). -/
def holdFlushDone (s : State) : State :=
  match s.jrn.holdFlush with
  | none => s
  | some hf =>
    let s1 := flushAll (holdGrains (flushAll s) hf)
    let done := s1.con.cmds.filter (fun c => !c.grained && decide (c.cjn ≤ hf.cjn))
    let s2 : State :=
      { s1 with jrn.holdFlush := none, jrn.closed := true,
                hlt.elog := s1.hlt.elog.map (fun e => if (e.code = 0x0380 ∨ e.code = 0x0381) ∧ e.tai = hf.tai then { e with pend := false } else e),
                con.cmds := s1.con.cmds.filter (fun c => c.grained || decide (hf.cjn < c.cjn)),
                con.appended := max s1.con.appended hf.cjn }
    let s3 := done.foldl (fun a c => sendReply (keepRecord a c) c.con c.cjn c.reply) s2
    appendFormed s3.con.cmds.length s3

/-- The row after the last that the flush keeps of stream t: phase 1 programs every row up to the last that holds a durable grain,
phase 2 the next `kept` rows in opening order (R490). -/
def keptRow (s : State) (kept t : Nat) : Nat :=
  let first (r : Row) : Bool := decide (r.idx < rowsTo (strm s r.stream) (strm s r.stream).dur)
  let rows := s.jrn.rows.filter first ++ (s.jrn.rows.filter (fun r => !first r)).take kept
  (rows.filter (fun r => r.stream == t)).foldl (fun a r => max a (r.idx + 1)) (strm s t).progRow

/-- The number after the last grain whose items lie before a row. -/
def keptSeq (st : Stream) (row : Nat) : Nat := (st.grains.filter (fun g => decide (row ≤ g.row))).foldl (fun a g => min a g.seq) st.chained

/-- A stream after the flush: what the rows before `row` hold is durable, the rest is discarded (R446). -/
def flushStream (st : Stream) (row : Nat) : Stream :=
  let n := keptSeq st row
  { cutAt st n row with dur := n, progRow := row }

/-- The body of a POWERFAIL grain (Table 17.3). -/
def pfBody (st : Stream) (row cause : Nat) : List Byte :=
  let last (n : Nat) : Nat := (n + (2 ^ 64 - 1)) % 2 ^ 64
  be 8 (last st.dur) ++ be 8 (last (keptSeq st row)) ++ be 4 (st.chained - keptSeq st row) ++ be 1 cause ++ be 3 0

/-- A POWERFAIL grain is appended to a stream, and closes its segment (R446). [log 72 DEDUCED, unsafe] -/
def pfAppend (s : State) (t : Nat) (body : List Byte) : State :=
  let s1 := chainGrain s t ⟨hdrOf t 8 0 0 s.now s.tim.u 0 0, body⟩ 0 true
  let st := strm s1 t
  setStrm s1 t { st with segs := closeSegment st.segs s.now st.lastDig st.chained (st.rowIdx - 1) }

/-- Steps 3 to 7 of the power-fail sequence where the journal takes grains (R490, R492, R493): the flush, and a POWERFAIL grain in
every active stream, tenant streams in ascending order and then stream D. -/
def flushWith (s : State) (tenants : List Nat) (cause kept : Nat) : State :=
  let first (r : Row) : Bool := decide (r.idx < rowsTo (strm s r.stream) (strm s r.stream).dur)
  let rows := s.jrn.rows.filter first ++ (s.jrn.rows.filter (fun r => !first r)).take kept
  let cut : State := { s with jrn.rows := [], jrn.streams := s.jrn.streams.map (fun p => (p.1, flushStream p.2 (keptRow s kept p.1))) }
  let s1 := programRows cut rows
  flushAll ((tenants ++ [sD]).foldl (fun a t => pfAppend a t (pfBody (strm s t) (keptRow s kept t) cause)) s1)

/-- The power-fail sequence up to the reset of the island: a pending HOLD entry is completed first (R493); before stream D is writable,
or after the journal has closed in HOLD, no grain is written. The flush copies the health event log (R607). [log 72 DEDUCED, unsafe] -/
def powerFlush (s : State) (cause kept : Nat) : State :=
  let copy (a : State) : State := { a with hlt.elogSaved := a.hlt.elog, hlt.lostSaved := (a.hlt.lost, a.hlt.lostSaid) }
  match s.jrn.holdFlush with
  | some hf => copy (flushWith (holdFlushDone s) hf.tenants cause kept)
  | none =>
    if s.jrn.dWritable then copy (flushWith s ((activeTenants s).filter (fun t => !streamStill s t)) cause kept) else s

/-- The buffer is lost with the island's rails: each stream keeps what its programmed rows hold. [log 72 DEDUCED, unsafe] -/
def bufferLost (s : State) : State :=
  { s with jrn.rows := [], jrn.streams := s.jrn.streams.map (fun p => (p.1, flushStream p.2 p.2.progRow)) }

/-! ### Resets (R103) -/

/-- RSTCAUSE bits of Table 4.1. -/
def rcPOR : Nat := 1
def rcEXT : Nat := 2
def rcWDOG : Nat := 4
def rcCMD : Nat := 8
def rcVBATLOST : Nat := 16

/-- The state that every reset source leaves (R103): everything as at State.reset but one-time storage, the key vault with its log
and keys, the retained command buffer, and what lies in flash or in the tags: the boot area, the journal, the health region,
the import and replay areas, the witness table. An erasure of session keys that the reset interrupts sets ZPEND (R129, Table
4.7). The model's own clock, free-value counter, output record and queue run on. [log 33 DEDUCED, safe; log 69 DEDUCED, unsafe; log 74 DEDUCED, unsafe] -/
def resetTo (s : State) (cause : Nat) : State :=
  let cutErase := match s.sec.eraseTick with | some t => decide (s.since t < ticksOfUs 2100) | none => false
  let z := State.reset
  { z with
    sys := { z.sys with regs := s.sys.regs.filter (fun p => decide (rkey bAWP 0x1100 ≤ p.1 ∧ p.1 < rkey bAWP 0x1200)) },
    tim := { z.tim with ticks := s.tim.ticks },
    jrn := { z.jrn with streams := s.jrn.streams.map (fun p => (p.1, { p.2 with reqs := [], numbered := [] })), lastSeal := s.jrn.lastSeal },
    awp := { z.awp with kek := s.awp.kek },
    hlt := { z.hlt with elogSaved := s.hlt.elogSaved, lostSaved := s.hlt.lostSaved, tiers := s.hlt.tiers },
    con := { z.con with retained := s.con.retained, records := s.con.records ++ s.con.cmds.filter (·.grained) },
    sec := { z.sec with otp := s.sec.otp, slots := s.sec.slots, rstCause := cause, stepSince := s.tim.ticks,
                        vault := { s.sec.vault with zpend := s.sec.vault.zpend || cutErase },
                        decl := s.sec.decl, leapSaved := s.sec.leapSaved, holdBooks := s.sec.holdBooks, heldHold := s.sec.heldHold },
    rpl := { z.rpl with sets := s.rpl.sets, journals := s.rpl.journals },
    fla := s.fla,
    wit := { z.wit with tags := s.wit.tags },
    free := s.free, out := s.out, pending := s.pending }

/-- The device is held in reset with its main supply lost or failing: the vault counts from here (R518). [log 74 DEDUCED, unsafe] -/
def heldReset (s : State) (done : Bool) : State :=
  let r := resetTo s rcPOR
  { r with pwr.held := true, pwr.latched := done, pwr.huDone := done, sec.vault.offTai := s.now, sec.vault.offSecs := 0,
           sec.vault.offState := [] }

/-- The device leaves reset as after power-on (R103, R104). [log 74 DEDUCED, unsafe] -/
def release (s : State) : State :=
  { s with pwr.held := false, pwr.latched := false, pwr.huDone := false, sec.stepSince := s.tim.ticks,
           sec.rstCause := rcPOR + (if s.sec.vault.vbatLost then rcVBATLOST else 0), sec.vault.vbatLost := false }

/-- A reset source other than POR takes effect: the flush and POWERFAIL with CAUSE 0x02 first (R446, R492). -/
def resetSource (s : State) (cause : Nat) : State :=
  if s.pwr.held then s else resetTo (powerFlush s 2 s.jrn.rows.length) cause

/-- The power-fail sequence from the latch to HU_DONE; `kept` rows are programmed in phase 2, and `lat` µs pass (R490). [log 72 DEDUCED, unsafe] -/
def pfSequence (s : State) (kept lat : Nat) : State :=
  let s1 := powerFlush s 1 kept
  heldReset { s1 with sec.vault.pfCnt := sat 32 (s1.sec.vault.pfCnt + 1), sec.vault.pfLat := sat 32 lat } true

/-- PFAIL_LATCH. -/
def execPfailLatch (kept lat : Nat) (s : State) : Host.Outcome State Fault Refusal :=
  .next (if s.pwr.held then s else pfSequence s kept lat)

/-- PFAIL_RESTART: PFAIL# has been high for 100 ms after the sequence (R491). -/
def execPfailRestart (s : State) : Host.Outcome State Fault Refusal :=
  .next (if s.pwr.held && s.pwr.huDone then release s else s)

/-- PFAIL_GLITCH: a pulse below 200 ns is only counted (R479). -/
def execPfailGlitch (s : State) : Host.Outcome State Fault Refusal :=
  .next (if s.pwr.held then s else bumpSat s bPWR 0x88 16 16 1)

/-- POWER_ON_RESET: a rail of Table 25.2 with thresholds rises above its rising one or falls below its falling one (0 VDD_CORE, 1
VDD_FAB, 2 VDD_ISL, 3 VDD_PLL, 4 VDD_IO33). A non-island rail that falls before any latch is a PFAIL# latch; from a latch
on only the island rails act (R612). `kept` and `lat` are those of the sequence. -/
def execPowerOnReset (rail : Nat) (rising : Bool) (kept lat : Nat) (s : State) : Host.Outcome State Fault Refusal :=
  .next (if rail > 4 then s
    else if rising then (if s.pwr.held then release s else s)
    else if s.pwr.held then s
    else if rail = 2 ∨ rail = 3 then heldReset (bufferLost s) false
    else pfSequence s kept lat)

/-- EXTERNAL_RESET. -/
def execExternalReset (s : State) : Host.Outcome State Fault Refusal := .next (resetSource s rcEXT)

/-- MGMT_WATCHDOG_EXPIRE. -/
def execMgmtWatchdogExpire (s : State) : Host.Outcome State Fault Refusal := .next (resetSource s rcWDOG)

/-- MGMT_LOCKSTEP_MISMATCH. -/
def execMgmtLockstepMismatch (s : State) : Host.Outcome State Fault Refusal :=
  .next (if s.pwr.held then s else enterHold s hMGMT_LOCKSTEP 0 0)

/-- The reset of RESET DEVICE follows once its reply has left (R581). [log 75 DEDUCED, safe] -/
def resetIfAsked (s : State) : State :=
  if s.con.records.any (fun c => c.resets && (getCon s c.con).txq.isEmpty) then
    let plain (l : List Cmd) : List Cmd := l.map (fun c => { c with resets := false })
    resetSource { s with con.records := plain s.con.records, con.retained := plain s.con.retained } rcCMD
  else s

/-- HOLD_FLUSH_COMPLETE. -/
def execHoldFlushComplete (s : State) : Host.Outcome State Fault Refusal := .next (resetIfAsked (holdFlushDone s))

/-! ### The hold-up store (R486 to R489) -/

/-- The least square root not below a number, by bisection between lo and lo + 2^k. -/
def ceilSqrt : Nat → Nat → Nat → Nat
  | 0, lo, _ => lo
  | k + 1, lo, x => let mid := lo + 2 ^ k; if mid * mid ≤ x then ceilSqrt k mid x else ceilSqrt k lo x

/-- The square root rounded up. -/
def rootUp (x : Nat) : Nat := let r := ceilSqrt 20 0 x; if r * r = x then r else r + 1

/-- ½·C·(a² − b²) in µJ, of a capacitance in µF and voltages in mV. [log 71 DEDUCED, unsafe] -/
def halfC (c a b : Nat) : Nat := c * (a * a - b * b) / 2000000

/-- The commit window of an energy, in KiB (R487). [log 71 DEDUCED, unsafe] -/
def windowOf (euse epm efix : Nat) : Nat := if epm = 0 then 0 else min 49152 (1024 * (7 * euse - 10 * efix) / (10 * epm))

/-- EUSE for a store voltage: the lesser of the measured and the declared energy; with ECLASS NONE the measured (R487, R584). [log 71 DEDUCED, unsafe] -/
def energyAt (s : State) (v : Nat) : Nat :=
  let emeas := halfC (rawGet s bPWR 0x20) v (fget s bPWR 0x1C 0 16)
  if s.pwr.eclass.maj % 4 = 0 then emeas else min emeas (1000 * fget s bPWR 0x18 0 16)

/-- CWIN as PWR and JRN show it. -/
def putCwin (s : State) (c : Nat) : State := rawSet (rawSet s bPWR 0x3C c) bJRN 0x20 c

/-- HOLDUP_SAMPLE: the store voltage in mV (R489). Below 0.98 of V0 the window is formed again and taken where it is smaller; below
1,024 KiB the device enters HOLD. [log 71 DEDUCED, unsafe] -/
def execHoldupSample (mv : Nat) (s : State) : Host.Outcome State Fault Refusal :=
  if s.pwr.held then .next s
  else
    let s1 := fset s bPWR 0x24 16 16 (sat 16 mv)
    if fget s bPWR 0x14 0 1 = 0 ∨ 100 * mv ≥ 98 * s.pwr.calV0 then .next s1
    else
      let c := windowOf (energyAt s1 mv) (rawGet s1 bPWR 0x34) (rawGet s1 bPWR 0x38)
      if c ≥ rawGet s1 bJRN 0x20 then .next s1
      else
        let s2 := bumpSat (fset (putCwin s1 c) bPWR 0x24 0 16 (sat 16 mv)) bPWR 0x88 0 16 1
        let s3 := drainOver (eventD s2 9 0xC 0x0D81 [mv, c] 0)
        .next (if c < 1024 then enterHold s3 hHOLDUP_LOST 0 0 else s3)

/-! ### VBAT and the vault monitor (R496, R104, R130, R518) -/

/-- VBAT_LOW: the cell voltage in mV with main power present; journaled when it first falls below 2.70 V. -/
def execVbatLow (mv : Nat) (s : State) : Host.Outcome State Fault Refusal :=
  if s.pwr.held then .next s
  else
    let s1 : State := { s with sec.vault.vbatMv := sat 16 mv, pwr.vbatLow := decide (mv < 2700) }
    .next (if mv < 2700 ∧ s.pwr.vbatLow = false then eventD s1 9 0xC 0x0D82 [mv] 0 else s1)

/-- VBAT_LOST with main power off: the vault's contents are lost, which counts as a completed ZEROIZE (R104). [log 78 DEDUCED, unsafe] -/
def execVbatLost (s : State) : Host.Outcome State Fault Refusal :=
  if s.pwr.held then
    let z := zeroize s
    .next { z with sec.vault := { vaultEmpty with zeroized := true, zcount := 1, zkeys := z.sec.vault.zkeys, vbatLost := true,
                                                  offTai := s.sec.vault.offTai, offSecs := s.sec.vault.offSecs },
                   sec.eraseTick := none }
  else .next s

/-- The source of the vault monitor's own entry. [log 27 DESIGN CHOICE, unsafe] -/
def srcVBAT : Nat := 4

/-- The reaction that the vault holds for a class (R126); without a copy, the reset value of the register. -/
def vaultReaction (v : VaultSt) (r : Raise) : Nat :=
  if r.src = srcVBAT then 0
  else bits (lkD v.react (if r.src = srcLOOP then r.idx else 9) (resetWord bSEC (reactOff r))) (2 * (r.cls - 1)) 2

/-- An entry of the vault log: the oldest of 32 gives way (R130). -/
def vaultLog (v : VaultSt) (r : Raise) : VaultSt :=
  let e : VaultEntry := ⟨r.src, r.cls, r.idx, v.offTai + 1000000000 * v.offSecs, v.offSecs, vaultReaction v r, false⟩
  if v.log.length < 32 then { v with log := v.log ++ [e] } else { v with log := v.log.drop 1 ++ [e], ovf := sat 32 (v.ovf + 1) }

/-- A loop's samples off power: OPEN (1) or SHORT (2) is raised after 2 consecutive samples of the class (R518). Gives the
vault and the class raised. [log 78 DEDUCED, unsafe] -/
def vaultLoop (v : VaultSt) (n cls : Nat) : VaultSt × List Raise :=
  let was := lkD v.offState n 0
  let count := if was / 256 = cls then min 3 (was % 256 + 1) else 1
  ({ v with offState := ins v.offState n (256 * cls + count) }, if count = 2 ∧ (cls = 1 ∨ cls = 2) then [raiseNow srcLOOP cls n 0] else [])

/-- VAULT_MONITOR_SAMPLE with main power off: the class of each loop's pulse, the vault temperature in 0.25 °C and VBAT in mV. Events
are logged; a reaction of ZEROIZE erases the vault at once (R130). Below 2.3 V one entry records the stop, and nothing is sensed
from then on (R622). [log 78 DEDUCED, unsafe] -/
def execVaultMonitorSample (loops : List Nat) (temp : Int) (mv : Nat) (s : State) : Host.Outcome State Fault Refusal :=
  if s.pwr.held = false then .next s
  else
    let v0 : VaultSt := { s.sec.vault with offSecs := s.sec.vault.offSecs + 1, vbatMv := sat 16 mv }
    if lkD v0.offState 9 0 = 1 then .next { s with sec.vault := v0 }
    else if mv < 2300 then
      .next { s with sec.vault := vaultLog { v0 with offState := ins v0.offState 9 1 } (raiseNow srcVBAT 0 0 0) }
    else
      let on (n : Nat) : Bool := bit (lkD v0.react n 0) 8
      let a := (loops.zipIdx.filter (fun p => decide (p.2 < 8) && on p.2)).foldl
        (fun (a : VaultSt × List Raise) p => let r := vaultLoop a.1 p.2 p.1; (r.1, a.2 ++ r.2)) (v0, [])
      let hot := tempOut [temp]
      let raised := if hot && lkD a.1.offState 8 0 == 0 then a.2 ++ [raiseNow srcDIE 2 0 0] else a.2
      let v1 := raised.foldl vaultLog { a.1 with offState := ins a.1.offState 8 (b2n hot) }
      let s1 : State := { s with sec.vault := v1 }
      .next (if raised.any (fun r => vaultReaction v1 r == 3) then { zeroize s1 with sec.eraseTick := none } else s1)

end Sys2Proof.Machine
end

