-- ==== Sys2Proof/Machine/ModeRows.lean ====
section
/-! DEFINITION. The rows of chapter 2: SET MODE, the drain, and RESET DEVICE with the release of command replies (R48 to R52,
R535, R565, R581, R582). -/
namespace Sys2Proof.Machine

open Sys2Proof

/-- What a command's row lists, in full. [log 76 DEDUCED, unsafe] -/
def specOn (a : Auth) (cons : List Nat) (modes : List DMode) (s9 argsOk : Bool) : CmdSpec := ⟨a, cons, modes, s9, argsOk, false, false, false⟩

/-- The commands that wait for the drain complete at once, superseded by a later command (R564). -/
def supersede (s : State) (cjn : Nat) : State :=
  (s.con.cmds.filter (fun c => match c.phase with | .drain _ _ => true | _ => false)).foldl
    (fun a c => formReply a c.cjn { c.reply with superseded := some cjn }) s

/-- A mode command's refusal: the mode held now (R48, R592). [log 76 DEDUCED, unsafe] -/
def modeRefused (s : State) : ActRes := err s eMODE [(modeCode s : Int)]

/-- SET MODE LIVE. -/
def execSetModeLive (l : ConLine) (s : State) : Host.Outcome State Fault Refusal :=
  .next (runCmd l (specOn .operate [0, 1] [.sealed, .quiet] true true)
    (fun cjn s =>
      if transitOk s .live true then ok (transit (supersede s cjn) .live mcCommand cjn) [(cjn : Int), 2, (s.now : Int)]
      else modeRefused s) s)

/-- The authority of SET MODE QUIET in a mode, and its consoles (Table 2.2). -/
def quietSpec (s : State) : CmdSpec :=
  if s.inMode .audit then specOn .regulate [1] [.audit] true true
  else specOn (if s.inMode .replay then .engineer else .operate) [0, 1] [.sealed, .live, .replay] true true

/-- A run stops after its current grain: at once where none is under evaluation (R542). -/
def stopRun (s : State) : State :=
  match s.rpl.run with
  | none => s
  | some r => if r.cur.isNone then finishRun s 4 else { s with rpl.run := some { r with stopAsked := true } }

/-- SET MODE QUIET: from LIVE the reply waits while the drain lasts (R51). [log 76 DEDUCED, unsafe] -/
def execSetModeQuiet (l : ConLine) (s : State) : Host.Outcome State Fault Refusal :=
  .next (runCmd l (quietSpec s)
    (fun cjn s =>
      if transitOk s .quiet true then
        let s1 := transit { (if s.inMode .replay then stopRun s else s) with con.auditHolder := false } .quiet mcCommand cjn
        let vals : List Int := [(cjn : Int), 3, (s.now : Int)]
        if s1.sys.drain then
          ⟨s1, reply 0 vals [], .drain s.tim.ticks (s1.awp.inputs.filter (fun i => !(isDurable s1 i.tenant i.seq))).length⟩
        else ok s1 vals
      else modeRefused s) s)

/-- DRAIN_COMPLETE: every sequenced input is durable (R51); the reply adds the inputs drained and the time in µs. -/
def execDrainComplete (s : State) : Host.Outcome State Fault Refusal :=
  .next (if s.sys.drain && !anyInFlight s then
    completePhase { s with sys.drain := false } (fun p => match p with | .drain _ _ => true | _ => false)
      (fun c => match c.phase with
        | .drain t n => { c.reply with vals := c.reply.vals ++ [(n : Int), ((s.since t / 800 : Nat) : Int)] }
        | _ => c.reply)
  else s)

/-- SET MODE AUDIT. -/
def execSetModeAudit (l : ConLine) (s : State) : Host.Outcome State Fault Refusal :=
  .next (runCmd l (specOn .regulate [1] [.quiet] false true)
    (fun cjn s =>
      if transitOk s .audit true then
        ok { transit s .audit mcCommand cjn with con.auditHolder := true } [(cjn : Int), 4, (s.now : Int)]
      else modeRefused s) s)

/-- An import whose last part has come is being verified (R535). -/
def importVerifying (s : State) : Bool := match s.rpl.recv with | some r => r.last | none => false

/-- SET MODE REPLAY: refused with IMPORT_BUSY while an import is being verified (R535). -/
def execSetModeReplay (l : ConLine) (s : State) : Host.Outcome State Fault Refusal :=
  .next (runCmd l (specOn .engineer [0, 1] [.quiet] false true)
    (fun cjn s =>
      if transitOk s .replay true = false then modeRefused s
      else if importVerifying s then err s 0x0B01 []
      else ok (transit s .replay mcCommand cjn) [(cjn : Int), 5, (s.now : Int)]) s)

/-- SET MODE HOLD: the reply leaves once the HOLD EVENT grains are durable (R582); where stream D takes no grain, at once. -/
def execSetModeHold (l : ConLine) (s : State) : Host.Outcome State Fault Refusal :=
  .next (runCmd l (specOn .engineer [0, 1] [.sealed, .live, .quiet, .audit, .replay] false true)
    (fun cjn s =>
      let s1 := transit s .hold mcCommand cjn
      ⟨s1, reply 0 [(cjn : Int), 6, (s.now : Int)] [], if s1.jrn.holdFlush.isSome then .hold else .formed⟩) s)

/-! ### Replies and RESET DEVICE -/

/-- COMMAND_REPLY_RELEASE: the reply of a command leaves once its COMMAND grain is durable (R565). [log 75 DEDUCED, safe] -/
def execCommandReplyRelease (cjn : Nat) (s : State) : Host.Outcome State Fault Refusal :=
  match s.con.cmds.find? (fun c => c.cjn == cjn && c.grained) with
  | none => .next s
  | some c =>
    .next (if cmdDurable s cjn then
      let s1 : State := { s with con.cmds := s.con.cmds.filter (fun k => k.cjn ≠ cjn) }
      resetIfAsked (tryCj (sendReply (keepRecord s1 c) c.con cjn c.reply))
    else s)

/-- RESET DEVICE: the reset follows the reply (R581). [log 75 DEDUCED, safe] -/
def execResetDevice (l : ConLine) (s : State) : Host.Outcome State Fault Refusal :=
  .next (resetIfAsked (runCmd l (specOn .engineer [0, 1] allModes false true)
    (fun cjn s =>
      ok { s with con.cmds := s.con.cmds.map (fun k => if k.cjn = cjn then { k with resets := true } else k) } [(cjn : Int)]) s))

/-- RTS_ASSERTED: the host asserts RTS; the waiting replies and event lines leave (R549). [log 33 DEDUCED, safe] -/
def execRtsAsserted (con : Nat) (s : State) : Host.Outcome State Fault Refusal :=
  if con ≥ 2 ∨ s.pwr.held = true then .next s
  else
    let k := getCon s con
    let s1 := updCon s con (fun x => { x with rts := true, txq := [] })
    let s2 := k.txq.foldl (fun a r => sendReply a con r.1 r.2) s1
    .next (resetIfAsked (flushEvt s2 con))

end Sys2Proof.Machine
end

