-- ==== Sys2Proof/Machine/RegCmds.lean ====
section
/-! DEFINITION. The rows of register space: a requester's accesses (R70 to R101), the slow domains, IPISEND, and the console
commands SET REG and SHOW REG. -/
namespace Sys2Proof.Machine

open Sys2Proof

/-- What a requester sees of a write: nothing, or a bus error. -/
def wrote (req : Nat) (r : BusRes) : Host.Outcome State Fault Refusal :=
  .next (if r.reason = 0 then r.st else emitOut r.st (.busErr req r.reason))

/-- What a requester sees of a read: the value, or a bus error. -/
def sawRead (req : Nat) (r : BusRes) : Host.Outcome State Fault Refusal :=
  .next (emitOut r.st (if r.reason = 0 then .regRead req (BitVec.ofNat 32 r.val) else .busErr req r.reason))

/-- A write by a requester of R71; no other reaches register space. -/
def fabricWrite (s : State) (req b off width v : Nat) : Host.Outcome State Fault Refusal :=
  if req > reqMgmt ∨ s.pwr.held = true then .next s else wrote req (busWrite s req b off width v false 0)

/-- UNLOCK of a block. -/
def execUnlock (req block val : Nat) (s : State) : Host.Outcome State Fault Refusal := fabricWrite s req block 4 32 val

/-- KEYGUARD_EXPIRE: the guard disarms at the end of the 256th cycle. -/
def execKeyguardExpire (block : Nat) (s : State) : Host.Outcome State Fault Refusal :=
  match lk s.sys.guards block with
  | some g => .next (if s.sys.cycle - g.since ≥ 256 then disarm s block else s)
  | none => .next s

/-- UPDATE: a mask written to SYS.UPDATE. -/
def execUpdate (req mask : Nat) (s : State) : Host.Outcome State Fault Refusal := fabricWrite s req bSYS 0x30 32 mask

/-- SNAP. -/
def execSnap (req : Nat) (s : State) : Host.Outcome State Fault Refusal := fabricWrite s req bSYS 0x40 32 0

/-- MODE_WRITE: a code written to SYS.MODE. -/
def execModeWrite (req val : Nat) (s : State) : Host.Outcome State Fault Refusal := fabricWrite s req bSYS 0x20 32 val

/-- REGISTER_WRITE: a write of any register, of any width, to any offset of a slot. -/
def execRegisterWrite (req block off width val : Nat) (s : State) : Host.Outcome State Fault Refusal :=
  fabricWrite s req block off width val

/-- POSTED_WRITE_TAKEN. -/
def execPostedWriteTaken (block : Nat) (s : State) : Host.Outcome State Fault Refusal := .next (postedTaken s block)

/-- A block with a posted domain (3.5). -/
def hasDomain (b : Nat) : Bool := b == bFLC || b == bWIT || decide (0x20 ≤ b ∧ b ≤ 0x2B)

/-- The registers, shadows and staging copies of a block return to reset, apart from its header. -/
def resetBlock (s : State) (b : Nat) : State :=
  let keep (m : Map Word32) : Map Word32 := m.filter (fun p => decide (p.1 / 0x10000 ≠ b ∨ p.1 % 0x10000 < 0x10))
  { s with sys.regs := keep s.sys.regs, sys.shadow := keep s.sys.shadow, sys.staging := keep s.sys.staging }

/-- The pairs of a block have no owner (R91). -/
def dropPairs (s : State) (b : Nat) : State := { s with sys.pairs := s.sys.pairs.filter (fun p => decide (p.1 / 0x10000 ≠ b)) }

/-- What a slow domain's reset returns to reset: all of FLC and WIT, the PHY space of an LQ block (R89). -/
def domainReset (s : State) (b : Nat) : State :=
  let s1 := dropPairs s b
  if 0x20 ≤ b ∧ b ≤ 0x2B then { s1 with lane.phy := s1.lane.phy.filter (fun p => decide (p.1 / 1024 ≠ b - bLQ)) }
  else
    let s2 := resetBlock { s1 with sys.staged := s1.sys.staged.filter (fun g => groupOf b ≠ some g) } b
    if b = bWIT then { s2 with wit.run := false, wit.txq := [] } else s2

/-- POSTED_DOMAIN_RESET: pending writes and transfers are discarded, RSTDROP sets where one was pending, RST reads 1. -/
def execPostedDomainReset (block : Nat) (s : State) : Host.Outcome State Fault Refusal :=
  if hasDomain block then
    let p := getPosted s block
    let s1 := putPosted (domainReset s block) block ⟨[], false, true⟩
    .next (if p.xfer || !p.pend.isEmpty then setStat s1 block 4 else s1)
  else .next s

/-- INDIRECT_ADDR_WRITE: <SPACE>_ADDR at an offset. -/
def execIndirectAddrWrite (req block off val : Nat) (s : State) : Host.Outcome State Fault Refusal :=
  if (addrSpace s block off).isSome then fabricWrite s req block off 32 val else .next s

/-- INDIRECT_DATA_WRITE: <SPACE>_DATA at an offset. -/
def execIndirectDataWrite (req block off val : Nat) (s : State) : Host.Outcome State Fault Refusal :=
  if (dataSpace s block off).isSome then fabricWrite s req block off 32 val else .next s

/-- INDIRECT_DATA_READ. -/
def execIndirectDataRead (req block off : Nat) (s : State) : Host.Outcome State Fault Refusal :=
  if (dataSpace s block off).isSome ∧ req ≤ reqMgmt ∧ s.pwr.held = false then sawRead req (busRead s req block off 32) else .next s

/-! ### BOOKCMD -/

/-- The word of BOOKCMD: book, tenant, scope, operation (Table 6.4). -/
def bookWord (op scope tenant book : Nat) : Nat := book % 4096 + 2 ^ 12 * (tenant % 64) + 2 ^ 18 * (scope % 4) + 2 ^ 20 * op

/-- BOOKCMD_OPEN. -/
def execBookcmdOpen (req scope tenant book : Nat) (s : State) : Host.Outcome State Fault Refusal :=
  fabricWrite s req bPRT 0x20 32 (bookWord 1 scope tenant book)

/-- BOOKCMD_SETCAUSE: the mask stands in BOOKARG. -/
def execBookcmdSetcause (req scope tenant book : Nat) (s : State) : Host.Outcome State Fault Refusal :=
  fabricWrite s req bPRT 0x20 32 (bookWord 2 scope tenant book)

/-- BOOKCMD_CLEARCAUSE: the mask stands in BOOKARG. -/
def execBookcmdClearcause (req scope tenant book : Nat) (s : State) : Host.Outcome State Fault Refusal :=
  fabricWrite s req bPRT 0x20 32 (bookWord 3 scope tenant book)

/-- BOOKCMD_RELEASE. -/
def execBookcmdRelease (req scope tenant book : Nat) (s : State) : Host.Outcome State Fault Refusal :=
  fabricWrite s req bPRT 0x20 32 (bookWord 4 scope tenant book)

/-- BOOKCMD_RESTORE: state and mask stand in BOOKARG. -/
def execBookcmdRestore (req scope tenant book : Nat) (s : State) : Host.Outcome State Fault Refusal :=
  fabricWrite s req bPRT 0x20 32 (bookWord 5 scope tenant book)

/-! ### Registers that act -/

/-- IPISEND: MTCR to control register 0x016 by a core, from register rd. -/
def execIpisend (core : Nat) (rd : BitVec 5) (s : State) : Host.Outcome State Fault Refusal :=
  let f : IF := ⟨rd, 0, 0x016⟩
  runInsn core (encI 0x32 f) (fun s =>
    let w := reg s core rd.toNat
    chk s (crChecks s core f true) <| consume s [w] <| crWrite s core 0x016 w) s

/-- REFEN_WRITE. -/
def execRefenWrite (req val : Nat) (s : State) : Host.Outcome State Fault Refusal := fabricWrite s req bTIM 0x38 32 val

/-- ECLASS_WRITE. -/
def execEclassWrite (req val : Nat) (s : State) : Host.Outcome State Fault Refusal := fabricWrite s req bPWR 0x10 32 val

/-- FREEZE_WRITE of a lane's LCTL. -/
def execFreezeWrite (req lane val : Nat) (s : State) : Host.Outcome State Fault Refusal :=
  if lane < 48 then fabricWrite s req (bLQ + lane / 4) (laneOff (lane % 4) 0) 32 val else .next s

/-- LMARG_WRITE of a lane's floor policy. -/
def execLmargWrite (req lane val : Nat) (s : State) : Host.Outcome State Fault Refusal :=
  if lane < 48 then fabricWrite s req (bLQ + lane / 4) (laneOff (lane % 4) 4) 32 val else .next s

/-- RPL_RUN_WRITE. -/
def execRplRunWrite (req val : Nat) (s : State) : Host.Outcome State Fault Refusal := fabricWrite s req bRPL 0x28 32 val

/-! ### SET REG and SHOW REG (R100) -/

/-- The authority of SET REG for a register: REGULATE for the reactions (R126), PEERID, MIRROR and SYNC (R419) and RETAIN
(R448), else ENGINEER. -/
def setRegAuth (b off : Nat) : Auth :=
  if (b = bSEC ∧ 0x60 ≤ off ∧ off ≤ 0x84) ∨ (b = bMIR ∧ 0x20 ≤ off ∧ off < 0x50) ∨ (b = bJRN ∧ 0x100 ≤ off ∧ off < 0x300) then .regulate
  else .engineer

/-- SET REG: the block's STAT after the write; for SYS.UPDATE the groups applied and refused too. -/
def execSetReg (l : ConLine) (block off val : Nat) (key : Bool) (s : State) : Host.Outcome State Fault Refusal :=
  .next (runCmd l (spec (setRegAuth block off) [.sealed, .live, .quiet, .replay, .hold] (decide (val < 2 ^ 32)))
    (fun cjn s =>
      let s1 := if key then (busWrite s reqMgmt block 4 32 (0x5A00 + block) false cjn).st else s
      let gs := maskGroups val
      let good : Nat := (gs.filter (groupOk s1)).foldl (fun a g => a + 2 ^ g) 0
      let bad : Nat := (gs.filter (fun g => !groupOk s1 g)).foldl (fun a g => a + 2 ^ g) 0
      let r := busWrite s1 reqMgmt block off 32 val true cjn
      if r.reason ≠ 0 then err r.st eBUSERR [(r.reason : Int)]
      else ok r.st ((cjn : Int) :: (statRead r.st block : Int) :: (if block = bSYS ∧ off = 0x30 then [Int.ofNat good, Int.ofNat bad] else []))) s)

/-- SHOW REG. -/
def execShowReg (l : ConLine) (block off : Nat) (s : State) : Host.Outcome State Fault Refusal :=
  .next (runCmd l (spec .observe allModes true)
    (fun _ s =>
      let r := busRead s reqMgmt block off 32
      if r.reason ≠ 0 then err r.st eBUSERR [(r.reason : Int)] else ok r.st [(r.val : Int)]) s)

end Sys2Proof.Machine
end

