-- ==== Sys2Proof/Machine/Witness.lean ====
section
/-! DEFINITION. The witness mesh and the tamper loops (chapter 20): the mesh's start, its events and transmissions, the frames of
tags, supervision, loop pulses. -/
namespace Sys2Proof.Machine

open Sys2Proof

/-! ### The mesh (R502 to R504, R513) -/

/-- Witness frame types of Table 20.4 that the device sends. -/
def wfBEACON : Nat := 1
def wfJOINRSP : Nat := 5
def wfCMD : Nat := 6

/-- The settings of Table 20.8 that take effect on air at a switch event (R504). -/
def airRegs (s : State) : AirMap :=
  ⟨fget s bWIT 0x20 0 8, rawGet s bWIT 0x24, fget s bWIT 0x20 8 8, fget s bWIT 0x20 16 8, fget s bWIT 0x18 0 2⟩

/-- The event interval in ticks: 250, 500 or 1,000 ms. -/
def evTicks (a : AirMap) : Nat := ticksOfMs (if a.evint = 0 then 250 else if a.evint = 1 then 500 else 1000)

/-- Tag a changed. -/
def updTag (s : State) (a : Nat) (f : Tag → Tag) : State := { s with wit.tags := ins s.wit.tags a (f (getTag s a)) }

/-- A tag at the start of the mesh: no frame counter of the new epoch has been accepted, and the timer of a joined tag is RESYNC
seconds (R514). -/
def tagStart (s : State) (t : Tag) : Tag :=
  { t with last := 0, due := if t.st = 2 then some (s.tim.ticks + ticksOfS (fget s bWIT 0x18 16 8)) else none }

/-- The mesh starts (R513, R514): a new epoch, beacon nonce and beacon key are drawn, and EVC is 0. [log 79 DEDUCED, unsafe] -/
def meshStart (s : State) : State :=
  let a := drawFree s
  let b := drawFree a.2
  let c := drawFree b.2
  let d := drawFree c.2
  { d.2 with
    wit := { run := true, epoch := a.1.toNat % 2 ^ 32, bnonce := b.1.toNat, bkey := c.1.toNat * 2 ^ 64 + d.1.toNat, evc := 0,
             evTick := s.tim.ticks, air := airRegs s, switch := none, devCtr := 0, ack := [], seen := [],
             tags := s.wit.tags.map (fun p => (p.1, tagStart s p.2)), tx := s.wit.tx, txq := [(wfBEACON, 0xFF)],
             authAt := rawGet s bWIT 0x44, authTick := s.tim.ticks, loops := s.wit.loops } }

/-- The first event whose EVC is a multiple of 64 and lies at least 32 events after event e (R504). -/
def switchAfter (e : Nat) : Nat := (e + 32 + 63) / 64 * 64

/-- A deferred apply of UG12 takes place at the event instant (R83, R504); a change of what is used on air waits for the switch
event. [log 79 DEDUCED, unsafe] -/
def witApply (s : State) : State :=
  if s.sys.staged.contains 12 then
    let old := airRegs s
    let s1 := applyWith { s with sys.staged := s.sys.staged.filter (· ≠ 12) } [12] s.sys.stagedReq 0
    if airRegs s1 = old then s1
    else { s1 with wit.switch := if airRegs s1 = s1.wit.air then none else some (switchAfter s1.wit.evc % 2 ^ 32) }
  else s

/-- WITNESS_EVENT_INSTANT: EVINT after the last. -/
def execWitnessEventInstant (s : State) : Host.Outcome State Fault Refusal :=
  if s.wit.run = false ∨ s.tim.ticks < s.wit.evTick + evTicks s.wit.air then .next s
  else
    let e := (s.wit.evc + 1) % 2 ^ 32
    let s1 := witApply { s with wit.evc := e, wit.evTick := s.wit.evTick + evTicks s.wit.air }
    let s2 : State := if s1.wit.switch = some e then { s1 with wit.air := airRegs s1, wit.switch := none } else s1
    .next (if e % 8 = 0 ∧ ¬ s2.wit.txq.any (fun p => p.1 == wfBEACON) then { s2 with wit.txq := (wfBEACON, 0xFF) :: s2.wit.txq } else s2)

/-- Octets of the PSDU of a frame that the device sends (Tables 20.4, 20.5): header, payload, MIC, FCS. -/
def psdu (s : State) (typ : Nat) : Nat :=
  19 + (if typ = wfBEACON then 33 + (if s.wit.switch.isSome then 12 else 0) else if typ = wfJOINRSP then 32 else 4)

/-- WITNESS_TRANSMIT: the first frame that waits is transmitted, or dropped by the duty ceiling, or, where `busy`, because it can no
longer end within its slots (R500). Until PROFILE names a profile nothing is sent (R499). A beacon sent clears the ACK bitmap. [log 79 DEDUCED, unsafe] -/
def execWitnessTransmit (busy : Bool) (s : State) : Host.Outcome State Fault Refusal :=
  match s.wit.txq with
  | [] => .next s
  | f :: rest =>
    if s.wit.run = false ∨ fget s bWIT 0x10 0 8 = 0 then .next s
    else
      let s1 : State := { s with wit.txq := rest }
      let air := (12 + psdu s f.1) * 16
      if airUsed s + air > 360000 * fget s bWIT 0x14 24 8 then .next (bumpSat s1 bWIT 0x54 16 16 1)
      else if busy then .next (bumpSat s1 bWIT 0x54 0 16 1)
      else
        let s2 : State := { s1 with wit.devCtr := (s.wit.devCtr + 1) % 2 ^ 32,
                                    wit.tx := (s.tim.ticks, air) :: s.wit.tx.filter (fun p => decide (s.since p.1 < ticksOfS 3600)),
                                    wit.ack := if f.1 = wfBEACON then [] else s.wit.ack }
        .next (bumpWrap (emitOut s2 (.witness f.1 f.2)) bWIT 0x50 0 32 1)

/-! ### Frames of tags (R508, R509, R514, R515) -/

/-- A frame that fails R509. -/
def authFail (s : State) : State := bumpWrap s bWIT 0x44 0 32 1

/-- The seen cache with a frame accepted now: 256 entries of 60 s, the oldest replaced (R511). -/
def seeFrame (s : State) (a c : Nat) : List (Nat × Nat × Nat × Nat) :=
  ((a, c, s.wit.evc, s.tim.ticks) :: s.wit.seen.filter (fun e => decide (s.since e.2.2.2 < ticksOfS 60))).take 256

/-- A frame of tag a with counter c is a flooding copy of one accepted in this event. -/
def floodCopy (s : State) (a c : Nat) : Bool :=
  s.wit.seen.any (fun e => e.1 == a && e.2.1 == c && e.2.2.1 == s.wit.evc && decide (s.since e.2.2.2 < ticksOfS 60))

/-- A frame of tag a is accepted: its counter, the seen cache, the supervision timer; a LOST or PAIRED tag is JOINED, and for a
LOST tag an event is written. -/
def acceptFrame (s : State) (a c : Nat) : State :=
  let t := getTag s a
  let s1 := updTag { s with wit.seen := seeFrame s a c } a (fun t =>
    { t with last := c, st := 2, evc := s.wit.evc, due := some (s.tim.ticks + ticksOfS (fget s bWIT 0x18 8 8)) })
  let s2 := bumpWrap s1 bWIT 0x40 0 32 1
  if t.st = 3 then eventD s2 9 0xC 0x0681 [a, t.eui.toNat] 0 else s2

/-- A repeated counter that is no flooding copy: the class REPLAY for tag a. -/
def replayFrame (s : State) (a : Nat) : State :=
  let s1 := bumpSat (updTag s a (fun t => { t with replays := sat 32 (t.replays + 1) })) bWIT 0x4C 0 32 1
  tamper s1 [raiseNow srcWITNESS 5 a 0]

/-- The counter rule of R508 on an authenticated frame of tag a: what acceptance does is `f`. [log 79 DEDUCED, unsafe] -/
def counterRule (s : State) (a c : Nat) (f : State → State) : State :=
  if c > (getTag s a).last then f (acceptFrame s a c)
  else if floodCopy s a c then bumpWrap s bWIT 0x48 0 32 1
  else replayFrame s a

/-- The instant and uncertainty of an edge (R515): the start of the receiving slot less AGE event intervals. -/
def edgeInstant (s : State) (f : WitFrame) : Nat × Nat × Bool :=
  let tick := s.wit.evTick + f.slot * 12500000
  let step := evTicks s.wit.air * 5 / 4
  ((s.tim.tai - (s.tim.ticks - tick) * 100000) / 80000 - f.age * step, sat 32 (uAtTick s tick + (f.age + 1) * step), f.age == 255)

/-- An accepted REPORT or ALARM (R515): the tag's words, and where EDGESEQ is new the classes of its edges, on one edge, and the
tag's bit in the next beacon. -/
def tagReport (s : State) (f : WitFrame) : State :=
  let a := f.src
  let isNew := (getTag s a).edgeSeq ≠ some f.edgeSeq
  let s1 := updTag s a (fun t => { t with status := f.status, batt := f.batt, rssi := f.rssi, edgeSeq := some f.edgeSeq })
  if isNew then
    let w := edgeInstant s f
    let s2 : State := { s1 with wit.ack := if s1.wit.ack.contains a then s1.wit.ack else a :: s1.wit.ack }
    let s3 := if bit f.edges 4 then eventFlags s2 0xC 0x0682 [a, f.batt] w.1 w.2.1 (if w.2.2 then 4 else 0) else s2
    tamper s3 (((List.range 4).filter (bit f.edges)).map (fun i => ⟨srcWITNESS, i + 1, a, f.edgeSeq, some w⟩))
  else s1

/-- A REPORT or ALARM reaches the device during the mesh's run: one whose MIC fails or whose source is no joined tag is counted
(R509). The slot has begun. -/
def tagFrame (s : State) (f : WitFrame) : State :=
  if s.wit.run = false ∨ f.slot ≥ 16 ∨ s.tim.ticks < s.wit.evTick + f.slot * 12500000 then s
  else
    let st := (getTag s f.src).st
    if f.micOk = false ∨ ¬ (st = 2 ∨ st = 3) then authFail s
    else counterRule s f.src f.fctr (fun x => tagReport x f)

/-- REPORT. -/
def execReport (f : WitFrame) (s : State) : Host.Outcome State Fault Refusal := .next (tagFrame s f)

/-- ALARM. -/
def execAlarm (f : WitFrame) (s : State) : Host.Outcome State Fault Refusal := .next (tagFrame s f)

/-- JOINREQ of the tag with an EUI-64 (R513): a paired tag joins, and a JOINRSP waits for a contention slot. The device answers
nothing while no profile is named. [log 79 DEDUCED, unsafe] -/
def execJoinreq (eui : BitVec 64) (fctr : Nat) (micOk : Bool) (s : State) : Host.Outcome State Fault Refusal :=
  if s.wit.run = false ∨ fget s bWIT 0x10 0 8 = 0 then .next s
  else match s.wit.tags.find? (fun p => p.2.st != 0 && p.2.eui == eui) with
    | none => .next (authFail s)
    | some p =>
      if micOk = false then .next (authFail s)
      else .next (counterRule s p.1 fctr (fun x => { x with wit.txq := x.wit.txq ++ [(wfJOINRSP, p.1)] }))

/-- SUPERVISION_TIMEOUT of tag a: LOST, and the class LOSS (R514). [log 79 DEDUCED, unsafe] -/
def execSupervisionTimeout (a : Nat) (s : State) : Host.Outcome State Fault Refusal :=
  let t := getTag s a
  match t.due with
  | none => .next s
  | some d =>
    if s.wit.run = false ∨ t.st ≠ 2 ∨ s.tim.ticks < d then .next s
    else
      let s1 := updTag s a (fun t => { t with st := 3, due := none, losses := sat 32 (t.losses + 1) })
      .next (tamper (bumpSat s1 bWIT 0x58 0 32 1) [raiseNow srcWITNESS 6 a 0])

/-- AUTHFAIL_MINUTE: a minute of the mesh has ended; 16 or more failures in it write one event (R509). -/
def execAuthfailMinute (s : State) : Host.Outcome State Fault Refusal :=
  if s.wit.run = false ∨ s.tim.ticks < s.wit.authTick + ticksOfS 60 then .next s
  else
    let n := (rawGet s bWIT 0x44 + 2 ^ 32 - s.wit.authAt) % 2 ^ 32
    let start := (s.tim.tai - (s.tim.ticks - s.wit.authTick) * 100000) / 80000
    let s1 : State := { s with wit.authTick := s.wit.authTick + ticksOfS 60, wit.authAt := rawGet s bWIT 0x44 }
    .next (if n ≥ 16 then eventD s1 9 0xC 0x0680 [start, n] 0 else s1)

/-! ### Tamper loops (R516, R517) -/

/-- Loop n before any pulse. -/
def loopReset : Loop := ⟨0, 0, 0, []⟩

/-- Loop n. -/
def getLoop (s : State) (n : Nat) : Loop := lkD s.wit.loops n loopReset

/-- The class of a pulse: 0 NORMAL, 1 OPEN, 2 SHORT, 3 DRIFT, judged against LOOPNOM and BAND (R516, R519). `r` is in Ω, none where no
current flows. [log 80 DEDUCED, unsafe] -/
def loopClass (nom band : Nat) (r : Option Nat) : Nat :=
  if nom = 0 then 1
  else match r with
    | none => 1
    | some x =>
      if x < 100 ∨ 8 * x < nom then 2
      else if x > 100000 ∨ x > 8 * nom then 1
      else if 100 * x < nom * (100 - band) ∨ 100 * x > nom * (100 + band) then 3
      else 0

/-- RMEAS of a pulse, in 10 Ω units; out of the measuring range the reading is open. [log 80 DEDUCED, unsafe] -/
def loopMeas (s : State) (r : Option Nat) : Nat × State :=
  match r with
  | some x => if 100 ≤ x ∧ x ≤ 100000 then (x / 10, s) else let d := drawFree s; (d.1.toNat % 2 ^ 16, d.2)
  | none => let d := drawFree s; (d.1.toNat % 2 ^ 16, d.2)

/-- A pulse of class c on an enabled loop: three in a row of a fault class raise it, ten NORMAL ones end it. -/
def loopPulse (s : State) (n c meas : Nat) : State :=
  let l := getLoop s n
  let run := if l.cand = c then l.run + 1 else 1
  let s1 : State := { s with wit.loops := ins s.wit.loops n { l with cand := c, run := run } }
  let put (a : State) : State := { a with wit.loops := ins a.wit.loops n { getLoop a n with cls := c } }
  if c = l.cls then s1
  else if c = 0 then (if run ≥ 10 then eventD (put s1) 9 0xC 0x0684 [n, meas] 0 else s1)
  else if run ≥ 3 then tamper (bumpSat (put s1) bWIT (0x108 + 16 * n) 0 32 1) [raiseNow srcLOOP c n 0]
  else s1

/-- A calibration of loop n waits for pulses. -/
def calWaits (s : State) (n : Nat) : Bool := s.con.cmds.any (fun c => c.phase == .loopcal n)

/-- A calibration with its hundredth pulse: refused outside the range of R_T or with a spread above 2 % of the mean, else the mean
goes to LOOPNOM's shadow (R517). Resistances in Ω, 0 where out of the measuring range. [log 80 DEDUCED, unsafe] -/
def loopCal (s : State) (n : Nat) (l : List Nat) : State :=
  let hi := l.foldl max 0
  let lo := l.foldl min hi
  let sum := l.sum
  let bad := l.any (fun x => decide (x < 500 ∨ x > 50000)) || decide ((hi - lo) * 5000 > sum)
  let nom := (sum + 500) / 1000
  let off := 0x100 + 16 * n
  if bad then completePhase s (fun p => p == .loopcal n) (fun _ => reply eCALIBRATION [] [])
  else
    let w := setBits (shadowWord s bWIT off) 0 16 nom
    let s1 : State := { s with sys.shadow := ins s.sys.shadow (rkey bWIT off) (BitVec.ofNat 32 w) }
    let s2 := eventD s1 9 0xC 0x0685 [n, nom] (((s.con.cmds.find? (fun c => c.phase == .loopcal n)).map (·.cjn)).getD 0)
    completePhase s2 (fun p => p == .loopcal n) (fun c => { c.reply with vals := c.reply.vals ++ [(nom : Int), 1] })

/-- LOOP_PULSE of loop n: the resistance in Ω, none where no current flows. A loop that is neither enabled nor under calibration is not
driven (20.6). [log 80 DEDUCED, unsafe] -/
def execLoopPulse (n : Nat) (r : Option Nat) (s : State) : Host.Outcome State Fault Refusal :=
  if n ≥ 8 ∨ s.pwr.held = true ∨ (loopOn s n = false ∧ calWaits s n = false) then .next s
  else
    let m := loopMeas s r
    let s1 := fset m.2 bWIT (0x104 + 16 * n) 0 16 m.1
    let s2 := if loopOn s1 n then loopPulse s1 n (loopClass (10 * fget s1 bWIT (0x100 + 16 * n) 0 16) (fget s1 bWIT (0x100 + 16 * n) 16 8) r) m.1 else s1
    if calWaits s2 n then
      let l := (match r with | some x => if 100 ≤ x ∧ x ≤ 100000 then x else 0 | none => 0) :: (getLoop s2 n).samples
      let s3 : State := { s2 with wit.loops := ins s2.wit.loops n { getLoop s2 n with samples := l } }
      .next (if l.length ≥ 100 then loopCal s3 n (l.take 100) else s3)
    else .next s2

end Sys2Proof.Machine
end

