-- ==== Sys2Proof/Machine/Boot.lean ====
section
/-! DEFINITION. The SEALED sequence: its steps, tail recovery, held events, hold-up calibration, measured boot and the quote; the end
of a domain reset (4.1 to 4.5, 17.6, 19.4, R89, R309). -/
namespace Sys2Proof.Machine

open Sys2Proof

/-! ### The quote (Table 4.5) -/

/-- FLAGS of the quote. -/
def quoteFlags (s : State) : Nat :=
  b2n s.sec.otp.jhash.isSome + 2 * b2n (decide (s.cpu.patch ≠ [])) + 4 * b2n s.sec.vault.zeroized + 8 * b2n (decide (s.sec.tstat ≠ 0))
    + 16 * b2n s.sec.recovery

/-- The 344 bytes that the attestation key signs. -/
def quoteHead (s : State) (cjn : Nat) (nonce : Digest) : List Byte :=
  be 2 1 ++ be 2 0x4864 ++ be 1 2 ++ be 1 s.role.code ++ be 1 (modeCode s) ++ be 1 (s.pwr.eclass.maj % 4) ++ be 1 s.tim.qual.code
    ++ be 1 (quoteFlags s)
    ++ be 2 (regValue s 0 bUCD 0x10 % 65536) ++ be 2 (regValue s 0 bUCD 0x10 / 65536) ++ be 2 0 ++ be 4 (regValue s 0 bUCD 0x14)
    ++ be 4 (regValue s 0 bSEC 0x2C) ++ be 8 s.now ++ be 8 s.tim.u ++ be 8 cjn ++ be 4 s.sec.otp.bootCnt ++ be 4 0
    ++ digBytes nonce ++ digBytes Config.idHash ++ s.sec.ms.flatMap digBytes ++ digBytes s.sec.bm
    ++ digBytes (if s.sec.step < 7 then 0 else tmSet s) ++ digBytes (s.sec.otp.jhash.getD 0)

/-- The quote of 440 bytes (R119). [log 70 DEDUCED, safe] -/
def quote (s : State) (cjn : Nat) (nonce : Digest) : List Byte :=
  let h := quoteHead s cjn nonce
  h ++ be 96 (Config.attSign h).toNat

/-! ### Steps that fail (R106, R107) -/

/-- A step fails: ROM recovery for S0 to S4, HOLD BOOT_STEP for S5 to S9. -/
def bootFail (s : State) : State :=
  if s.sec.step ≤ 4 then { s with sec.fail := true, sec.recovery := true }
  else enterHold { s with sec.fail := true } hBOOT_STEP s.sec.step 0

/-- The device is in a step of Table 4.2. -/
def booting (s : State) : Bool := s.inMode .sealed && !s.sec.fail && !s.sec.done && !s.pwr.held

/-! ### S0 to S4 -/

/-- Step S0: the test-access port is closed; a pending erasure is repeated and complete; a session wrapping key is drawn. [log 73 DEDUCED, safe] -/
def stepS0 (s : State) : State :=
  let v := s.sec.vault
  beginStep { s with sec.locks := votedOf (s.sec.locks.maj ||| 2), sec.vault := { v with swk := true, zpend := false, zeroized := v.zeroized || v.zpend } } 1

/-- Step S1: the root PLL locks and the time base starts from 0 (R142); below 0 °C, S2 waits (R614). -/
def stepS1 (f : BootFacts) (s : State) : State :=
  let s0 : State := { s with tim.usable := f.usable % 8 }
  match bestInput s0 with
  | none => bootFail s
  | some i =>
    let cold := match s.hlt.temps with | [] => false | t :: l => decide (l.foldl max t < 0)
    let s1 : State := { s0 with tim.usableSince := [s.tim.ticks, s.tim.ticks, s.tim.ticks], tim.pllSrc := i, tim.pllLock := true,
                                tim.running := true, tim.tai := 0, tim.rem := 0, sec.coldWait := cold }
    beginStep (putLeap s1) 2

/-- Step S2: the DRAM population, checked and trained (R303, R304). -/
def stepS2 (f : BootFacts) (s : State) : State :=
  if s.sec.coldWait then s
  else if [1, 3, 15, 255].contains f.pop && [1, 2, 4, 8].contains f.dimm && decide (f.speed ≤ 2) then
    let s1 := rawSet s bMEM 0x10 (f.pop + 2 ^ 8 * f.speed + 2 ^ 16 * f.dimm + 2 ^ 24)
    beginStep (rawSet s1 bMEM 0x14 (chanCount f.pop * f.dimm * 16)) 3
  else bootFail s

/-- A slot's image is valid (R114). [log 48 PRESUMED, safe] -/
def slotValid (s : State) (readable : Bool) (im : Image) : Bool :=
  let j := match s.sec.otp.jhash with | none => true | some h => im.jOk && im.jpub == h
  readable && im.fOk && j && im.compsOk && decide (im.rollback ≥ s.sec.otp.rollback)

/-- The slot that boots: the valid one with the higher IMGVER, A on a tie. [log 98 DEDUCED, unsafe] -/
def chooseSlot (a b : Option Image) : Option (Nat × Image) :=
  match a, b with
  | none, none => none
  | some x, none => some (0, x)
  | none, some y => some (1, y)
  | some x, some y => if x.ver < y.ver then some (1, y) else some (0, x)

/-- Step S3: the slots are checked, each failed one recorded, one chosen, the firmware measured (R114, R117). -/
def stepS3 (f : BootFacts) (s : State) : State :=
  let image (i : Nat) : Option Image := (s.sec.slots[i]?).join
  let valid (i : Nat) (readable : Bool) : Option Image := (image i).filter (slotValid s readable)
  let note (s : State) (i : Nat) (v : Option Image) : State := if (image i).isSome && v.isNone then logOpen s [i] else s
  let a := valid 0 f.slotA
  let b := valid 1 f.slotB
  let s1 := note (note s 0 a) 1 b
  match chooseSlot a b with
  | none => bootFail s1
  | some (i, im) =>
    beginStep { s1 with sec.slot := i, sec.ms := [Config.sha256 (Config.romHead ++ digBytes (s.sec.otp.jhash.getD 0)), im.fw, 0, 0] } 4

/-- Step S4: the patch is checked, measured, loaded and locked (R117, R326, R329). -/
def stepS4 (s : State) : State :=
  let lock (s : State) : State := { s with sec.locks := votedOf (s.sec.locks.maj ||| 1) }
  match (s.sec.slots[s.sec.slot]?).join with
  | none => bootFail s
  | some im =>
    match im.patch with
    | none => beginStep (lock s) 5
    | some d =>
      if im.patchOk && decide (im.patchId ≠ 0) && patchWordsOk im.patchWords im.patchMicro im.patchNano im.patchMatch then
        let s1 := rawSet { s with cpu.patch := im.patchWords, sec.ms := upd s.sec.ms 2 (fun _ => d) } bUCD 0x10 (0x105 + 65536 * im.patchId)
        let s2 := rawSet s1 bUCD 0x14 (digWord d 0)
        beginStep (lock (rawSet s2 bUCD 0x18 (1 + 2 * im.patchMicro + 2 ^ 11 * im.patchNano + 2 ^ 19 * im.patchMatch))) 5
      else bootFail s

/-! ### S5: the flash scan (R449 to R453) -/

/-- The scan finds a population that may run: equal channels, one profile, no die with too many factory bad blocks, every channel
trained, and the recorded population once the role is written (R450, R451). [log 84 DEDUCED, safe] -/
def scanOk (f : BootFacts) (s : State) : Bool :=
  [2, 4, 8, 16].contains f.dpc && decide (f.prof ≠ 0) && !f.trainFail
    && (List.range 256).all (fun d => decide ((f.badBlocks.filter (fun k => k / 8192 == d)).length * 100 ≤ 2 * dieBlocks))
    && (match s.fla.population with | some p => p == (f.dpc, f.prof, f.ids) | none => true)

/-- A block's read count and measurements as of the last checkpoint, and raised by 10 % of RDLIMIT; logged erases apply (R453). [log 66 DEDUCED, safe] -/
def restoreBlk (ckpt : Map Blk) (k : Nat) (b : Blk) : Blk :=
  let b0 := { b with reads := 0, rber := 0, level := 0, measSec := 0, slope := 0, fresh := [], queued := none, eol := 65535, lo := 65535, hi := 65535 }
  let b1 := match lk ckpt k with
    | some c => if c.st = b.st ∧ c.peSlc = b.peSlc ∧ c.peTlc = b.peTlc then
        { b0 with reads := c.reads, rber := c.rber, level := c.level, measSec := c.measSec, slope := c.slope, fresh := c.fresh } else b0
    | none => b0
  { b1 with reads := b1.reads + rdLimit b.tlc / 10 }

/-- The flash scan: TOPO, the dies with their training temperatures, the block table, the energy figures of the profile (R487). [log 66 DEDUCED, safe; log 84 DEDUCED, safe] -/
def flashScan (f : BootFacts) (s : State) : State :=
  let s1 := rawSet s bFLC 0x10 (f.dpc + 2 ^ 8 * (f.prof % 256) + 2 ^ 16)
  let first := s.fla.population.isNone
  let s2 := if first then f.badBlocks.foldl (fun a k => updBlk a k (fun b => if b.st = 0 then { b with st := 5 } else b)) s1 else s1
  let temp (d : Nat) : Int := (f.dieTemps[d]?).getD 0
  let s3 : State :=
    { s2 with fla.dies := s2.fla.dies.map (fun p => (p.1, { p.2 with grown := [], unread := [], hist := List.replicate 18 0, eol := 65535 })),
              fla.blocks := s2.fla.blocks.map (fun p => (p.1, restoreBlk s2.fla.ckpt p.1 p.2)),
              fla.population := if s2.fla.population.isNone && s2.role != .none then some (f.dpc, f.prof, f.ids) else s2.fla.population,
              fla.ckptTick := s2.tim.ticks, fla.evalTick := s2.tim.ticks, fla.zqTick := s2.tim.ticks, fla.warnHours := 0, fla.critHours := 0 }
  let s4 := ((List.range 256).filter (fun d => decide (d % 16 < f.dpc))).foldl (fun a d => updDie a d (fun x => { x with trainTemp := temp d })) s3
  let e := if f.prof = 3 ∧ f.dpc = 16 then (5000, 87500) else Config.flushEnergy f.prof f.dpc
  let s5 := rawSet (rawSet s4 bPWR 0x34 e.1) bPWR 0x38 e.2
  putFailcnt (f.deadDies.foldl (fun a d => dieFail a d.1 d.2) s5)

/-! ### S5: tail recovery (R447) -/

/-- A recovered stream: everything kept is durable, its segment is closed, its next number follows the last grain. -/
def recoverStream (st : Stream) : Stream :=
  let tai := match st.grains with | g :: _ => g.hdr.tai | [] => 0
  { st with next := st.chained, dur := st.chained, progRow := st.rowIdx, reqs := [], numbered := [],
            segs := closeSegment st.segs tai st.lastDig st.chained (st.rowIdx - 1) }

/-- One grain of a tenant stream in the rebuild of the parting table (R163): its sales-state change, and what R170 counts. -/
def rebuildGrain (t : Nat) (s : State) (g : Grain) : State :=
  let b := g.hdr.book
  if g.unreadable then s
  else
    let s1 := applySales s t g.hdr g.body
    let k := getBook s1 t b
    if g.hdr.typ = 1 ∨ g.hdr.typ = 2 ∨ g.hdr.typ = 3 then putBook s1 t b { k with lastSeq := some g.seq, count := k.count + 1 }
    else if g.hdr.typ = 4 then putBook s1 t b { k with partSeq := some g.seq }
    else if g.hdr.typ = 5 then putBook s1 t b { k with settled := true }
    else if g.hdr.typ = 6 ∧ g.hdr.kind = 2 ∧ (getBook s t b).sales = .dormant ∧ k.sales = .open then
      putBook s1 t b { k with lastSeq := none, count := 0, partSeq := none, settled := false }
    else s1

/-- The parting table rebuilt from the tenant streams. -/
def rebuildBooks (s : State) : State :=
  let s1 := (List.range 64).foldl (fun a t => (strm a t).grains.reverse.foldl (rebuildGrain t) a) { s with books := [] }
  { s1 with books := s1.books.map (fun p => (p.1, { p.2 with prev := [], late := 0, lateu := 0, partialCnt := onSale p.2 })) }

/-- The journal counter that a CTRINC's operand digest names. -/
def counterOf (dig : BitVec 64) : Option Nat := (List.range 16).find? (fun c => opDigest (twBytes (wInt c)) == dig)

/-- The highest value that an effect entry logs for its counter. -/
def restoreEffect (t : Nat) (m : Map Nat) (e : Effect) : Map Nat :=
  if e.unit = 3 ∧ e.op = 3 then
    match counterOf e.dig, e.res with
    | some c, w :: _ => ins m (t * 16 + c) (max (lkD m (t * 16 + c) 0) w.val.toNat)
    | _, _ => m
  else m

/-- The journal counters restored from the input record. -/
def restoreCounters (s : State) : Map Nat :=
  (List.range 64).foldl (fun m t =>
    (strm s t).grains.foldl (fun m g => match g.recd with | some i => i.log.foldl (restoreEffect t) m | none => m) m) []

/-! ### S5: what stream D receives (R108, R130, R566, R608) -/

/-- TYPE and KIND of the grain that an event has in stream D (Table 24.3). [log 83 DEDUCED, safe] -/
def kindOf (code : Nat) : Nat × Nat :=
  match code with
  | 0x0580 => (7, 1) | 0x0581 => (7, 2) | 0x0582 => (7, 3) | 0x0583 => (7, 4)
  | 0x0180 => (9, 0xB) | 0x0380 => (9, 1) | 0x0381 => (9, 7) | 0x0382 => (9, 4) | 0x0383 => (9, 3) | 0x0384 => (9, 2)
  | 0x0385 => (9, 6) | 0x0A86 => (9, 0xA)
  | 0x0A80 => (9, 5) | 0x0D80 => (9, 5) | 0x0E81 => (9, 5)
  | 0x0B80 => (9, 9) | 0x0B81 => (9, 9) | 0x0B82 => (9, 9) | 0x0B83 => (9, 9)
  | 0x0780 => (9, 8) | 0x0781 => (9, 8) | 0x0A81 => (9, 8) | 0x0A85 => (9, 8) | 0x0C80 => (9, 8) | 0x0C81 => (9, 8)
  | 0x0C83 => (9, 8) | 0x0C84 => (9, 8) | 0x0C86 => (9, 8) | 0x0C87 => (9, 8)
  | _ => (9, 0xC)

/-- An event held for stream D, with its header flags. -/
structure HeldEvent where
  ev : ElogEvent
  flags : Nat

/-- Insertion by instant; equal instants keep their order. [log 83 DEDUCED, safe] -/
def insTai (h : HeldEvent) : List HeldEvent → List HeldEvent
  | [] => [h]
  | x :: l => if h.ev.tai < x.ev.tai then h :: x :: l else x :: insTai h l

/-- The events of the vault log that do not stand in stream D, with the uncertainty of R518. [log 83 DEDUCED, safe] -/
def vaultEvents (s : State) : List ElogEvent :=
  (s.sec.vault.log.filter (fun e => !e.written)).map (fun e =>
    ⟨0x0385, [e.src, e.cls, e.idx, e.react, 0], e.tai, 1000000000 + 100000 * e.secs, false, true⟩)

/-- The CJN that a held event's grain carries: a mode change's own, and a HOLD's that of its mode change. [log 82 DEDUCED, unsafe] -/
def heldCjn (l : List ElogEvent) (e : ElogEvent) : Nat :=
  if e.code = 0x0380 then (e.par[3]?).getD 0
  else if e.code = 0x0381 then
    match l.find? (fun x => x.code == 0x0380 && x.tai == e.tai) with | some m => (m.par[3]?).getD 0 | none => 0
  else 0

/-- The held events are written in the order of their instants, with DEFERRED and, from the vault, OFFPOWER; preceded by ELOG LOST
where events were lost (R108, R608). [log 82 DEDUCED, unsafe] -/
def writeHeld (s : State) : State :=
  let vault := vaultEvents s
  let s0 : State := if vault.isEmpty then s else { s with sec.tstat := s.sec.tstat ||| 2 ^ 13 }
  let put (a : State) (code : Nat) (par : List Nat) (tai u flags cjn : Nat) : State :=
    chainGrain a sD ⟨hdrOf sD (kindOf code).1 (kindOf code).2 flags tai u 0 cjn, evBody code par⟩ 0 false
  let s1 :=
    if s0.hlt.lost > s0.hlt.lostSaid then
      let a := put s0 0x0F80 [s0.hlt.lost] s0.now s0.tim.u 0 0
      logEvent { a with hlt.lostSaid := s0.hlt.lost } ⟨0x0F80, [s0.hlt.lost], s0.now, s0.tim.u, false, false⟩
    else s0
  let all := (s.hlt.elog.filter (·.pend)).map (fun e => (⟨e, 4⟩ : HeldEvent)) ++ vault.map (fun e => ⟨e, 12⟩)
  let s2 := (all.foldl (fun l h => insTai h l) []).foldl (fun a h =>
    put a h.ev.code h.ev.par h.ev.tai h.ev.u h.flags (heldCjn s.hlt.elog h.ev)) s1
  let s3 : State := { s2 with hlt.elog := s2.hlt.elog.map (fun e => { e with pend := false }),
                              sec.vault.log := s2.sec.vault.log.map (fun e => { e with written := true }) }
  vault.foldl logEvent s3

/-- A COMMAND grain of stream D by CJN. -/
def cmdInD (s : State) (n : Nat) : Bool := (strm s sD).grains.any (fun g => g.hdr.typ == 10 && g.hdr.cjn == n)

/-- The record of a command that left no trace but its number (R566). -/
def lostCmd (n : Nat) : Cmd :=
  { cjn := n, con := 0, auth := .observe, line := [], tag := [], tai := 0, u := 0, phase := .formed, reply := reply eLOST [] [], grained := true, dup := false, resets := false }

/-- The body of a LOST grain: RESULT LOST, an empty line, no tag, no reply. [log 82 DEDUCED, unsafe] -/
def lostBody : List Byte := be 2 eLOST ++ be 2 0 ++ be 12 0 ++ be 4 0 ++ digBytes (Config.sha256 [])

/-- The number n in the COMMAND series of stream D: it stands there, or its retained record is written, or a LOST grain (R108, R566). [log 82 DEDUCED, unsafe] -/
def writeCjn (s : State) (n : Nat) : State :=
  if cmdInD s n then s
  else match s.con.retained.find? (fun c => c.cjn == n) with
    | some c => chainGrain s sD ⟨hdrOf sD 10 c.con 0 c.tai c.u 0 n, cmdBody c⟩ 0 false
    | none =>
      chainGrain { s with con.records := s.con.records ++ [lostCmd n] } sD ⟨hdrOf sD 10 0 0 s.now s.tim.u 0 n, lostBody⟩ 0 false

/-- The highest CJN of stream D and of the retained records. -/
def highCjn (s : State) : Nat :=
  max (((strm s sD).grains.map (·.hdr.cjn)).foldl max 0) ((s.con.retained.map (·.cjn)).foldl max 0)

/-- The first number of the COMMAND series that stream D still holds. [log 82 DEDUCED, unsafe] -/
def lowCjn (s : State) : Nat :=
  if (strm s sD).segs.any (·.retired) then
    (((strm s sD).grains.filter (fun g => g.hdr.typ == 10)).map (·.hdr.cjn) ++ s.con.retained.map (·.cjn)).foldl min (highCjn s + 1)
  else 1

/-- The COMMAND series made gapless, and resumed after its highest number (R108, R566). -/
def writeCommands (s : State) : State :=
  let lo := lowCjn s
  let hi := highCjn s
  let s1 := (List.range' lo (hi + 1 - lo)).foldl writeCjn s
  { s1 with con.retained := [], con.nextCjn := hi + 1, con.appended := hi }

/-- The records that answer CJ and fill the tag caches: those whose COMMAND grain stands in stream D or that are retained (R447, R570). -/
def rebuildTags (s : State) : State :=
  let kept := s.con.records.filter (fun c => cmdInD s c.cjn || s.con.retained.any (fun r => r.cjn == c.cjn))
  let tags (i : Nat) : List Cmd := (kept.filter (fun c => c.con == i && !c.tag.isEmpty && !c.dup)).reverse
  updCon (updCon { s with con.records := kept } 0 (fun k => { k with tags := tags 0 })) 1 (fun k => { k with tags := tags 1 })

/-- Records of the health log that the flash held come before those entered since reset, and are entered again. -/
def relog (s : State) : State :=
  (s.hlt.elogSaved ++ s.hlt.elog).foldl logEvent
    { s with hlt.elog := [], hlt.lost := sat 32 (s.hlt.lost + s.hlt.lostSaved.1), hlt.lostSaid := s.hlt.lostSaved.2, hlt.elogSaved := [] }

/-- The leap table that the flash held is in force again. -/
def restoreLeap (s : State) : State :=
  match s.sec.leapSaved with
  | some l => putLeap { s with tim.leaps := l.1, tim.leapEnd := some l.2 }
  | none => s

/-- The import area that was found, with the sets that survive in it. [log 85 DEDUCED, unsafe] -/
def restoreArea (f : BootFacts) (s : State) : State :=
  fset (rawSet { s with rpl.stats := s.rpl.sets.map (fun p => (p.1, ⟨3, 0, p.2.segs⟩)) } bRPL 0x78 f.areaSegs) bJRN 0x3C 0 1 1

/-- Command numbers go on after the highest held; a device with a role opens stream D for the records that waited. -/
def restoreCommands (s : State) : State :=
  if s.role = .none then { s with con.nextCjn := highCjn s + 1, con.appended := highCjn s }
  else writeCommands (writeHeld { s with jrn.dWritable := true })

/-- The journal as the flash holds it, the books that follow from it, and the counters. -/
def restoreJournal (s : State) : State :=
  let s1 : State := { s with jrn.streams := s.jrn.streams.map (fun p => (p.1, recoverStream p.2)), jrn.closed := false }
  rebuildBooks { s1 with jrn.counters := restoreCounters s1 }

/-- The end of S5: the streams recovered, the tables rebuilt, stream D writable where the role is written, the mesh started. -/
def endS5 (f : BootFacts) (s : State) : State :=
  let s1 := rebuildTags (restoreCommands (restoreArea f (restoreLeap (relog (restoreJournal s)))))
  beginStep (meshStart { s1 with sec.s5done := true }) 6

/-- Step S5. -/
def stepS5 (f : BootFacts) (s : State) : State :=
  if scanOk f s = false then bootFail s
  else
    let s1 := flashScan f s
    match f.tailFail with
    | some t => bootFail (fset (fset s1 bJRN 0x3C 1 1 1) bJRN 0x3C 8 7 t)
    | none => if s1.inMode .hold then s1 else endS5 f s1

/-! ### S6 and S7 (R117, R483 to R488) -/

/-- The declaration in the boot area is signed by the active operator key. [log 86 DEDUCED, safe] -/
def declOk (s : State) : Option Decl :=
  match activeOp s, s.sec.decl with
  | some i, some d => if (s.sec.otp.ops[i]?).join = some d.op then some d else none
  | _, _ => none

/-- The firmware writes a declaration into PWR at the start of S7 (R483). -/
def applyDecl (s : State) (d : Decl) (cjn : Nat) : State :=
  let s1 := rawSet (rawSet s bPWR 0x18 d.hudecl) bPWR 0x1C (d.vmin + 65536 * d.hudiv)
  eclassWrite s1 d.cls cjn

/-- S7 waits for a declaration (R105). [log 86 DEDUCED, safe] -/
def waitsDecl (s : State) : Bool := s.sec.step == 7 && (activeOp s).isSome && s.pwr.eclass.maj % 4 == 0

/-- Step S6: the runtimes are measured and loaded; S7 begins with the stored declaration, if it is valid. -/
def stepS6 (s : State) : State :=
  match (s.sec.slots[s.sec.slot]?).join with
  | none => bootFail s
  | some im =>
    let ms := upd s.sec.ms 3 (fun _ => Config.sha256 (im.tenants.flatMap (fun p => digBytes p.2)))
    let s1 := beginStep { s with sec.ms := ms, sec.bm := Config.sha256 (ms.flatMap digBytes), awp.runtime := im.tenants.map (·.1) } 7
    match declOk s1 with
    | some d => applyDecl s1 d 0
    | none => s1

/-- The hold-up cap of a class in µJ (Table 19.2); none for NONE. -/
def holdupCap (cls : Nat) : Option Nat :=
  if cls = 1 then some 1000000 else if cls = 2 then some 10000000 else if cls = 3 then some 50000000 else none

/-- Step S7: the store is calibrated (R486 to R488). [log 86 DEDUCED, safe] -/
def stepS7 (f : BootFacts) (s : State) : State :=
  let den := 2 * f.vb - (f.va + f.vc)
  let cap := if den = 0 then 0 else 4000000000 / den
  let vmin := fget s bPWR 0x1C 0 16
  let efix := rawGet s bPWR 0x38
  let s1 := rawSet (rawSet s bPWR 0x20 cap) bPWR 0x24 (f.v0 + 65536 * f.v0)
  let s2 := rawSet (rawSet s1 bPWR 0x28 (halfC cap f.v0 0)) bPWR 0x2C (halfC cap f.v0 vmin)
  let euse := energyAt s2 f.v0
  let emeas := halfC cap f.v0 vmin
  let cls := s.pwr.eclass.maj % 4
  let src := if cls = 0 ∨ emeas < 1000 * fget s bPWR 0x18 0 16 then 1 else 2
  let cwin := windowOf euse (rawGet s bPWR 0x34) efix
  let vres := if cap = 0 then 65535 else rootUp (vmin * vmin + 20 * efix * 1000000 / (7 * cap))
  let ovc := match holdupCap cls with | some c => decide (halfC cap f.v0 0 > c) | none => false
  let noen := decide (cwin < 1024 ∨ f.low < vres)
  let norech := !f.recharged
  let s3 := rawSet (putCwin (rawSet s2 bPWR 0x30 euse) cwin) bPWR 0x40 (sat 16 vres)
  let bad := ovc || noen || norech
  let s4 := rawSet { s3 with pwr.calV0 := f.v0 } bPWR 0x14 (b2n (!bad) + 2 * b2n ovc + 4 * b2n noen + 8 * b2n norech + 16 * src)
  if bad then bootFail s4 else beginStep s4 8

/-! ### S9 (R117, R120) -/

/-- A grain of stream D is chained after every request that waits. [log 87 DEDUCED, safe] -/
def chainD (s : State) (g : GReq) : State :=
  let s1 := (strm s sD).reqs.foldl (fun a _ => numberHead a sD) s
  chainGrain s1 sD g 0 false

/-- Step S9: the measurement is closed, the BOOT grain and the self-quote are written. [log 70 DEDUCED, safe; log 87 DEDUCED, safe] -/
def stepS9 (s : State) : State :=
  let s1 : State := { s with sec.otp.bootCnt := sat 32 (s.sec.otp.bootCnt + 1), sec.locks := votedOf (s.sec.locks.maj ||| 4), sec.done := true }
  let par := [s1.sec.rstCause, s1.sec.otp.bootCnt, s1.sec.slot] ++ s1.sec.ms.flatMap digPar ++ digPar s1.sec.bm
  let s2 := logEvent s1 ⟨0x0384, par, s1.now, s1.tim.u, !s1.jrn.dWritable, false⟩
  let s3 :=
    if s2.jrn.dWritable then
      let a := chainD s2 ⟨hdrOf sD 9 2 0 s2.now s2.tim.u 0 0, evBody 0x0384 par⟩
      let q := quote a 0 (strm a sD).lastDig
      chainD a ⟨hdrOf sD 9 2 0 a.now a.tim.u 0 0, evBody 0x0384 ((List.range 55).map (fun i => ofBe ((q.drop (8 * i)).take 8)))⟩
    else s2
  evtLine s3 ⟨0x0384, par⟩

/-! ### The rows -/

/-- SEALED_STEP_COMPLETE: the work of the present step ends with what it found, and the next begins or R106 or R107 applies. -/
def execSealedStepComplete (f : BootFacts) (s : State) : Host.Outcome State Fault Refusal :=
  if booting s = false then .next s
  else .next (match s.sec.step with
    | 0 => stepS0 s
    | 1 => stepS1 f s
    | 2 => stepS2 f s
    | 3 => stepS3 f s
    | 4 => stepS4 s
    | 5 => stepS5 f s
    | 6 => stepS6 s
    | 7 => if waitsDecl s then s else stepS7 f s
    | 8 => checkS8 s
    | _ => stepS9 s)

/-- The limit of a step in ticks (Table 4.2). -/
def stepLimit (s : State) (n : Nat) : Nat :=
  match n with
  | 0 => ticksOfMs 2
  | 1 => ticksOfMs 10
  | 2 => ticksOfMs 1500
  | 3 => ticksOfMs 600
  | 4 => ticksOfMs 5
  | 5 => ticksOfS 20
  | 6 => ticksOfMs 200
  | 7 => ticksOfMs 300
  | 8 => ticksOfS (fget s bTIM 0x30 0 16)
  | _ => ticksOfMs 20

/-- BOOT_STEP_TIMEOUT: the step fails, or it passes its limit; the time that S2 waits for warmth and S7 for a declaration does not
count. -/
def execBootStepTimeout (failed : Bool) (s : State) : Host.Outcome State Fault Refusal :=
  .next (if booting s && !s.sec.coldWait && !(waitsDecl s) && (failed || decide (s.since s.sec.stepSince > stepLimit s s.sec.step)) then bootFail s
  else s)

/-- SWEEP_COMPLETE: the DRAM sweep after S2 ends (R309). [log 73 DEDUCED, safe] -/
def execSweepComplete (s : State) : Host.Outcome State Fault Refusal :=
  .next (if s.pwr.held = false ∧ rawGet s bMEM 0x14 ≠ 0 then fset s bMEM 0x10 24 1 0 else s)

/-- DOMAIN_RESET_END: the slow domain of a posted block leaves reset; the mesh starts again (R89, R513). -/
def execDomainResetEnd (block : Nat) (s : State) : Host.Outcome State Fault Refusal :=
  let p := getPosted s block
  if p.rst then
    let s1 := putPosted s block { p with rst := false }
    .next (if block = bWIT ∧ s.sec.s5done then meshStart s1 else s1)
  else .next s

end Sys2Proof.Machine
end

