-- ==== Sys2Proof/Machine/ConEvents.lean ====
section
/-! DEFINITION. Console events, authority, the command journal, STATE, ATTEST and the staging buffer (22.1 to 22.6, 23.2, 23.3). -/
namespace Sys2Proof.Machine

open Sys2Proof

/-! ### Events of a console (R550, R554, R558 to R560) -/

/-- A console's authority becomes OBSERVE. -/
def toObserve (s : State) (c : Nat) : State := updCon s c (fun k => { k with auth := .observe, authSlot := none })

/-- CON1 loses the REGULATE authority that entered AUDIT (R49). [log 88 DEDUCED, unsafe] -/
def dropAuth (s : State) (c cause : Nat) : State :=
  let s1 := toObserve s c
  if c = 1 then auditEnds s1 cause else s1

/-- BREAK: the challenge is void and the authority OBSERVE; a line whose execution has not begun is no command of the block yet. [log 26 DESIGN CHOICE, safe] -/
def execBreakLine (con : Nat) (s : State) : Host.Outcome State Fault Refusal :=
  .next (if con ≥ 2 ∨ s.pwr.held = true then s
  else dropAuth (bumpSat (updCon s con (fun k => { k with chal := none })) bCON (0x100 + 0x20 * con + 0x18) 16 16 1) con mcBreak)

/-- A line refused before stage 5 (R554): counted, answered without a CJN; it voids a challenge as any other line does. [log 90 DEDUCED, safe] -/
def badLine (s : State) (con code : Nat) : State :=
  if readsLine s con = false then s
  else
    sendReply (bumpWrap (updCon s con (fun k => { k with lastLine := s.tim.ticks, chal := none })) bCON (0x100 + 0x20 * con + 0x0C) 0 32 1)
      con 0 (reply code [] [])

/-- BAD_LINE with its refusal: LONG, FORM, CRC or UNKNOWN (Table 22.3). -/
def execBadLine (con code : Nat) (s : State) : Host.Outcome State Fault Refusal :=
  .next (if code = 0x0101 ∨ code = 0x0103 ∨ code = 0x0104 ∨ code = 0x0105 then badLine s con code else s)

/-- CHALLENGE_TIMEOUT: 60 s without a response. -/
def execChallengeTimeout (con : Nat) (s : State) : Host.Outcome State Fault Refusal :=
  match (getCon s con).chal with
  | none => .next s
  | some h => .next (if s.since h.since ≥ ticksOfS 60 then updCon s con (fun k => { k with chal := none }) else s)

/-- CONSOLE_IDLE_TIMEOUT: 15 minutes without a line. -/
def execConsoleIdleTimeout (con : Nat) (s : State) : Host.Outcome State Fault Refusal :=
  .next (if con < 2 ∧ s.since (getCon s con).lastLine ≥ ticksOfS 900 then dropAuth s con mcIdle else s)

/-- AUTH_LOCK_EXPIRE. [log 89 DEDUCED, unsafe] -/
def execAuthLockExpire (con : Nat) (s : State) : Host.Outcome State Fault Refusal :=
  match (getCon s con).lockUntil with
  | none => .next s
  | some t => .next (if t ≤ s.tim.ticks then updCon s con (fun k => { k with lockUntil := none }) else s)

/-! ### Authority (R557 to R561) -/

/-- What an AUTH line lists: OBSERVE, all modes, served in ROM recovery as a part of LOAD IMAGE (R579). -/
def authSpec (cons : List Nat) (keepChal : Bool) : CmdSpec := ⟨.observe, cons, allModes, false, true, keepChal, false, true⟩

/-- An AUTH line: a tag on it fails stage 2 (R560). [log 90 DEDUCED, safe] -/
def authLine (l : ConLine) (sp : CmdSpec) (act : Nat → State → ActRes) (s : State) : State :=
  if l.tag.isEmpty then runCmd l sp act s else badLine s l.con 0x0103

/-- The console's AUTH lines are locked (R559). [log 89 DEDUCED, unsafe] -/
def authLocked (s : State) (c : Nat) : Bool :=
  match (getCon s c).lockUntil with | some t => decide (s.tim.ticks < t) | none => false

/-- AUTH <level>: a challenge of 32 random bytes (R558). -/
def challenge (l : ConLine) (level : Auth) (cjn : Nat) (s : State) : ActRes :=
  if authLocked s l.con then err s eAUTH_LOCKED []
  else
    let d0 := drawFree s
    let d1 := drawFree d0.2
    let d2 := drawFree d1.2
    let d3 := drawFree d2.2
    let ws := [d0.1, d1.1, d2.1, d3.1]
    okB (updCon d3.2 l.con (fun k => { k with chal := some ⟨level, cjn, ws, s.tim.ticks⟩ })) [] (ws.flatMap (fun w => be 8 w.toNat))

/-- AUTH OPERATE. -/
def execAuthOperate (l : ConLine) (s : State) : Host.Outcome State Fault Refusal :=
  .next (authLine l (authSpec [0, 1] false) (challenge l .operate) s)

/-- AUTH ENGINEER. -/
def execAuthEngineer (l : ConLine) (s : State) : Host.Outcome State Fault Refusal :=
  .next (authLine l (authSpec [0, 1] false) (challenge l .engineer) s)

/-- AUTH REGULATE, on CON1 only. -/
def execAuthRegulate (l : ConLine) (s : State) : Host.Outcome State Fault Refusal :=
  .next (authLine l (authSpec [1] false) (challenge l .regulate) s)

/-- M of R558; the first 11 bytes are KM4864-AUTH. -/
def authMessage (con : Nat) (h : Chal) : List Byte :=
  [0x4B, 0x4D, 0x34, 0x38, 0x36, 0x34, 0x2D, 0x41, 0x55, 0x54, 0x48] ++ digBytes Config.idHash ++ be 1 con ++ be 1 h.level.code
    ++ h.bytes.flatMap (fun w => be 8 w.toNat) ++ be 8 h.cjn

/-- The hash of the key that a level is verified with (R558, R561): the jurisdiction key of the running image, checked against the
jurisdiction hash, or the active operator key; with the operator slot. -/
def levelKey (s : State) (level : Auth) : Option (Digest × Option Nat) :=
  match level with
  | .regulate =>
    match (s.sec.slots[s.sec.slot]?).join, s.sec.otp.jhash with
    | some im, some j => if im.jpub = j then some (j, none) else none
    | _, _ => none
  | _ =>
    match activeOp s with
    | some i => ((s.sec.otp.ops[i]?).join).map (fun k => (k, some i))
    | none => none

/-- An AUTH_FAIL refusal: the third within 10 minutes locks the console for 10 minutes (R559). [log 89 DEDUCED, unsafe] -/
def authFailed (s : State) (c : Nat) : State :=
  let fails := s.tim.ticks :: (getCon s c).fails.filter (fun t => decide (s.since t < ticksOfS 600))
  let s1 := bumpSat s bCON (0x100 + 0x20 * c + 0x14) 0 32 1
  updCon s1 c (fun k => { k with chal := none, fails := fails.take 3, lockUntil := if fails.length ≥ 3 then some (s.tim.ticks + ticksOfS 600) else k.lockUntil })

/-- The response of a challenge verifies (R558): the key that the level verifies with. -/
def responseKey (s : State) (con : Nat) (sig : List Byte) : Option (Chal × Option Nat) :=
  match (getCon s con).chal with
  | none => none
  | some h =>
    if s.since h.since ≥ ticksOfS 60 then none
    else match levelKey s h.level with
      | none => none
      | some k => if Config.keyVerify k.1 (authMessage con h) sig then some (h, k.2) else none

/-- AUTH RESPONSE, with r ‖ s as 24 groups. [log 88 DEDUCED, unsafe] -/
def execAuthResponse (l : ConLine) (sig : List Byte) (s : State) : Host.Outcome State Fault Refusal :=
  .next (authLine l { authSpec [0, 1] true with argsOk := decide (sig.length = 96) } (fun _ s =>
    match responseKey s l.con sig with
    | none => err (authFailed s l.con) eAUTH_FAIL []
    | some (h, slot) =>
      ok (updCon s l.con (fun k => { k with auth := h.level, authSlot := slot, chal := none })) [(h.level.code : Int)]) s)

/-- AUTH LOGOUT. [log 88 DEDUCED, unsafe] -/
def execAuthLogout (l : ConLine) (s : State) : Host.Outcome State Fault Refusal :=
  .next (authLine l (authSpec [0, 1] false) (fun _ s => ok (dropAuth s l.con mcLogout) [0]) s)

/-- AUTH OBSERVE. -/
def execAuthObserve (l : ConLine) (s : State) : Host.Outcome State Fault Refusal :=
  .next (authLine l (authSpec [0, 1] false) (fun _ s => ok (dropAuth s l.con mcLogout) [0]) s)

/-! ### CJ (R567) -/

/-- A CJ command waits until every lower COMMAND grain is durable; where it need not wait, its reply is formed at once. -/
def cjWait (from_ cjn : Nat) (s : State) : ActRes :=
  if lowerDurable s cjn then ⟨s, cjReply s from_ cjn, .formed⟩ else ⟨s, reply 0 [] [], .cj from_⟩

/-- CJ FROM n. -/
def execCjFrom (l : ConLine) (n : Nat) (s : State) : Host.Outcome State Fault Refusal :=
  .next (runCmd l (spec .observe allModes (decide (n < 2 ^ 64))) (fun cjn s => cjWait n cjn s) s)

/-- CJ TAIL k. -/
def execCjTail (l : ConLine) (k : Nat) (s : State) : Host.Outcome State Fault Refusal :=
  .next (runCmd l (spec .observe allModes (decide (1 ≤ k ∧ k ≤ 64))) (fun cjn s => cjWait (cjn - k) cjn s) s)

/-! ### STATE and ATTEST (R566, R568, R583, R119) -/

/-- A command served before the end of S5. -/
def earlySpec (argsOk : Bool) : CmdSpec := ⟨.observe, [0, 1], allModes, false, argsOk, false, true, false⟩

/-- The first three lines of the STATE reply (Table 23.5); before S5 a field that is not yet known is −1. -/
def stateHead (s : State) : List Int :=
  let after (x : Nat) : Int := if s.sec.s5done then (x : Int) else -1
  [(modeCode s : Int), (b2n s.sys.drain : Int), (s.role.code : Int), (s.tim.qual.code : Int), (s.tim.u : Int),
   ((getCon s 0).auth.code : Int), ((getCon s 1).auth.code : Int), after s.con.nextCjn,
   (tstatWord s : Int), (b2n s.sec.vault.zeroized : Int), after (regValue s reqMgmt bFLC 0x14), (s.pwr.eclass.maj % 4 : Nat),
   after (rawGet s bPWR 0x3C)]

/-- Books of tenant t in a sales state; a book that the table does not hold is DORMANT (R163). -/
def salesCount (s : State) (t : Nat) (x : Sales) : Nat :=
  let mine := s.books.filter (fun p => p.1 / 4096 == t)
  (mine.filter (fun p => p.2.sales == x)).length + (if x = .dormant then 4096 - mine.length else 0)

/-- The line of an active tenant. -/
def stateTenant (s : State) (t : Nat) : List Int :=
  let st := strm s t
  [(t : Int), (st.next : Int), (st.dur : Int) - 1, (b2n (tenantBit s bJRN 0x10 t) : Int), (salesCount s t .dormant : Int),
   (salesCount s t .open : Int), (salesCount s t .parting : Int), (salesCount s t .closed : Int), (salesCount s t .suspended : Int)]

/-- The values of the STATE reply. [log 92 DEDUCED, safe] -/
def stateVals (s : State) : List Int :=
  stateHead s ++ (if s.sec.recovery then [(s.sec.step : Int)] else [])
    ++ (if s.sec.s5done then
          (activeTenants s).flatMap (stateTenant s) ++ [((strm s sD).next : Int), ((strm s sD).dur : Int) - 1]
        else [])

/-- STATE. [log 92 DEDUCED, safe] -/
def execState (l : ConLine) (s : State) : Host.Outcome State Fault Refusal :=
  .next (runCmd l (earlySpec true) (fun _ s => ok s (stateVals s)) s)

/-- ATTEST, with its nonce, zero when omitted. [log 70 DEDUCED, safe] -/
def execAttest (l : ConLine) (nonce : Option Digest) (s : State) : Host.Outcome State Fault Refusal :=
  .next (runCmd l (earlySpec true) (fun cjn s => okB s [] (quote s cjn (nonce.getD 0))) s)

/-! ### The staging buffer (R578, R579) -/

/-- What a STAGE line lists. -/
def stageSpec (argsOk : Bool) : CmdSpec := ⟨.operate, [0, 1], [.sealed, .live, .quiet, .replay], false, argsOk, false, false, true⟩

/-- The staged bytes. -/
def stagedBytes (g : Stage) : List Byte := (g.groups.flatMap (fun p => be 4 p.2.toNat)).take g.size

/-- Bytes written so far. -/
def stagedCount (g : Stage) : Nat := (g.groups.map (fun p => min 4 (g.size - 4 * p.1))).sum

/-- The console's staging buffer. -/
def stageOf (s : State) (c : Nat) : Stage := (getCon s c).stage

/-- STAGE BEGIN n. -/
def execStageBegin (l : ConLine) (n : Nat) (s : State) : Host.Outcome State Fault Refusal :=
  .next (runCmd l (stageSpec (decide (1 ≤ n ∧ n ≤ 25165824))) (fun cjn s =>
    ok (updCon s l.con (fun k => { k with stage := ⟨.opened, n, []⟩ })) [(cjn : Int), 1, (n : Int)]) s)

/-- A group at an offset lies wholly beyond n, or has a byte that is not zero at or beyond n. -/
def groupBad (n off : Nat) (w : Word32) : Bool := decide (off ≥ n) || decide (off + 4 > n ∧ w.toNat % 256 ^ (off + 4 - n) ≠ 0)

/-- STAGE DATA offset groups. [log 94 DEDUCED, safe] -/
def execStageData (l : ConLine) (off : Nat) (g : List Word32) (s : State) : Host.Outcome State Fault Refusal :=
  .next (runCmd l (stageSpec (decide (off % 4 = 0 ∧ 1 ≤ g.length ∧ g.length ≤ 24))) (fun cjn s =>
    let b := stageOf s l.con
    if b.st ≠ .opened then err s eSTATE []
    else if g.zipIdx.any (fun p => groupBad b.size (off + 4 * p.2) p.1) then err s eARGS []
    else
      let b' : Stage := { b with groups := g.zipIdx.foldl (fun a p => ins a (off / 4 + p.2) p.1) b.groups }
      ok (updCon s l.con (fun k => { k with stage := b' })) [(cjn : Int), (stagedCount b' : Int), (b.size : Int)]) s)

/-- STAGE END DIGEST: complete, and its digest as given; in ROM recovery it enters the health event log (R579). [log 94 DEDUCED, safe] -/
def execStageEnd (l : ConLine) (d : Digest) (s : State) : Host.Outcome State Fault Refusal :=
  .next (runCmd l (stageSpec true) (fun cjn s =>
    let b := stageOf s l.con
    if b.st ≠ .opened then err s eSTATE []
    else if stagedCount b ≠ b.size then err s eINCOMPLETE []
    else if Config.sha256 (stagedBytes b) ≠ d then err s eDIGEST []
    else
      let s1 := updCon s l.con (fun k => { k with stage := { b with st := .closed } })
      okB (if s.sec.s5done then s1 else logOpen s1 (digPar d)) [(cjn : Int), 2] (digBytes d)) s)

/-- STAGE DROP. -/
def execStageDrop (l : ConLine) (s : State) : Host.Outcome State Fault Refusal :=
  .next (runCmd l (stageSpec true) (fun cjn s =>
    ok (updCon s l.con (fun k => { k with stage := stageEmpty })) [(cjn : Int), 0]) s)

/-- A consuming command (R578): it needs a CLOSED buffer on its console; where it is accepted, it empties the buffer. [log 94 DEDUCED, safe] -/
def consume1 (l : ConLine) (f : List Byte → ActRes) (s : State) : ActRes :=
  let b := stageOf s l.con
  if b.st ≠ .closed then err s eNOSTAGE []
  else
    let r := f (stagedBytes b)
    if r.reply.code = 0 then { r with st := updCon r.st l.con (fun k => { k with stage := stageEmpty }) } else r

end Sys2Proof.Machine
end

