-- ==== Sys2Proof/Machine/SeqRows.lean ====
section
/-! DEFINITION. The sequencer's and the journal's own steps: partings, PART grains, closing, numbering, durability under PFB
commit, the release of replies (R31, R168 to R171, R393, R442). -/
namespace Sys2Proof.Machine

open Sys2Proof

/-- PARTING_INSTANT (R168): the time base has reached P_b of an OPEN or SUSPENDED book. [log 31 DEDUCED, unsafe] -/
def execPartingInstant (t b : Nat) (s : State) : Host.Outcome State Fault Refusal :=
  let k := getBook s t b
  .next (if onSale k && decide (k.pb ≤ s.now) && !(followsRecord s t) && s.tim.acquired && !(s.inMode .hold) && !(s.inMode .sealed) then
    partBook s t b (uAtTick s (s.tim.ticks - ticksOfNs (s.now - k.pb))) false 0
  else s)

/-- PART_NUMBER (R169): `clear` says that no frame of the tenant accepted before P_b remains in ingress. Books of one P_b are
numbered in ascending order (R168). -/
def execPartNumber (t b : Nat) (clear : Bool) (s : State) : Host.Outcome State Fault Refusal :=
  let k := getBook s t b
  let earlier := (booksOf s t).any (fun x => decide (x < b) && (getBook s t x).partWait && (getBook s t x).pb == k.pb)
  .next (if clear && k.partWait && !earlier && !(streamStill s t) && !s.jrn.closed && !(s.inMode .hold) && !(s.inMode .sealed) then
    mediaGate s t (numberPart s t b 0) else s)

/-- The TAI ns of an earlier tick. -/
def taiAt (s : State) (tk : Nat) : Nat := (s.tim.tai - 100000 * (s.tim.ticks - tk)) / 80000

/-- BOOK_CLOSE (R171): a book in PARTING whose PART grain is durable closes, at the instant at which that grain became durable. -/
def execBookClose (t b : Nat) (s : State) : Host.Outcome State Fault Refusal :=
  let k := getBook s t b
  match k.partSeq with
  | none => .next s
  | some n =>
    match grainAt s t n with
    | none => .next s
    | some g =>
      .next (if k.sales = .parting ∧ isDurable s t n = true ∧ s.inMode .hold = false ∧ s.inMode .sealed = false then
        let te := taiAt s g.durAt
        eventOwn (changeBook s t b te (fun k => { k with st := votedOf Sales.closed.code })) t 9 3 0x0383 [b, n] te (uAtTick s g.durAt) b 0 0
      else s)

/-- Room in the 48 MiB power-fail buffer for a body's item (R445). -/
def roomFor (s : State) (t : Nat) (body : List Byte) : Bool := decide (occ s + 72 + storedLen (strm s t) body ≤ 48 * 2 ^ 20)

/-- GRAIN_REQUEST_NUMBER (R393, R445): the head request of stream t takes its number in a cycle without a frame, where the
buffer has room. -/
def execGrainRequestNumber (t : Nat) (s : State) : Host.Outcome State Fault Refusal :=
  match (strm s t).reqs with
  | [] => .next s
  | g :: _ => .next (if roomFor s t g.body then mediaGate s t (numberHead s t) else s)

/-- GRAIN_DURABLE (R442): the next chained grain of stream t is durable where OCC up to it is within CWIN; one that fails only
this test waits and is counted once. [log 61 DEDUCED, unsafe] -/
def execGrainDurable (t : Nat) (s : State) : Host.Outcome State Fault Refusal :=
  let st := strm s t
  match grainAt s t st.dur with
  | none => .next s
  | some g =>
    .next (if g.flash then s
    else if occUpTo s t g ≤ cwinBytes s then nowDurable s t (st.dur + 1)
    else if g.waited then s
    else bumpWrap (setStrm s t { st with grains := st.grains.map (fun x => if x.seq = g.seq then { x with waited := true } else x) }) bJRN 0x4C 0 32 1)

/-! ### REPLY_RELEASE (R31, R38, R386) -/

/-- The reply of a session that is next to leave: that of its lowest number. -/
def nextReply (s : State) (t session : Nat) : Option Reply :=
  (s.awp.replies.filter (fun r => r.tenant == t && r.session == session)).foldl
    (fun a r => match a with | none => some r | some x => if r.seq < x.seq then some r else some x) none

/-- A reply may leave: its grain is durable, and matched where SYNC applies. [log 51 DEDUCED, safe] -/
def mayRelease (s : State) (t n : Nat) : Bool := isDurable s t n && (!(syncOn s t) || decide (n < firstUnmatched s t))

/-- The reply that a grain gives: RECEIPT, or REJECT RULE where the rule program refused. A RECEIPT's latency is kept for
telemetry (R605). [log 51 DEDUCED, safe] -/
def sendReceipt (s : State) (r : Reply) (g : Grain) : State :=
  if bit g.hdr.flags 0 then
    sendReject s r.tenant r.session r.route rjRULE (rejectBody r.counter rjRULE true r.seq (dig8 g.digest) g.hdr.rule 0 0)
  else
    let s1 : State := { s with hlt.latencies := s.hlt.latencies ++ [(r.tenant, s.now - r.tai)] }
    sendAwp s1 r.tenant r.session r.route mtRECEIPT (receiptBody r.counter r.seq (dig8 g.digest) r.tai r.u (g.body.take g.hdr.tlen))

/-- REPLY_RELEASE. [log 51 DEDUCED, safe] -/
def execReplyRelease (t session : Nat) (s : State) : Host.Outcome State Fault Refusal :=
  match nextReply s t session with
  | none => .next s
  | some r =>
    match grainAt s t r.seq with
    | none => .next s
    | some g =>
      .next (if mayRelease s t r.seq then
        let s1 : State := { s with awp.replies := s.awp.replies.filter (fun x => !(x.tenant == t && x.seq == r.seq)) }
        replyGone (sendReceipt s1 r g) t session
      else s)

end Sys2Proof.Machine
end

