-- ==== Sys2Proof/Machine/MgmtRows.lean ====
section
/-! DEFINITION. Management messages (R389 to R392): key import, session load and drop; exports and imports (chapter 21). -/
namespace Sys2Proof.Machine

open Sys2Proof

/-! ### MACK (Table 15.7) -/

def mkOK : Nat := 0
def mkMODE : Nat := 1
def mkSCOPE : Nat := 2
def mkSIGNATURE : Nat := 3
def mkVERSION : Nat := 4
def mkTABLE_FULL : Nat := 5
def mkSESSION_REUSED : Nat := 6
def mkFORMAT : Nat := 7
def mkUNWRAP : Nat := 8

/-- The MACK of a frame. -/
def mack (s : State) (f : Frame) (status : Nat) : State := answer s f mtMACK (be 6 f.counter ++ be 1 status ++ be 1 0)

/-- A management message: A1 to A5, then its modes (R392), then what it does. -/
def mgmtFrame (s : State) (f : Frame) (classes : List SClass) (modes : List DMode) (go : State → State) : State :=
  ingress s f true classes (fun s => if modes.any (fun m => s.inMode m) then go s else mack s f mkMODE)

/-! ### Key import (R391) -/

/-- The operator key of an envelope is the active one (R110, R111). -/
def opKeyActive (s : State) (k : Digest) : Bool :=
  match activeOp s with
  | some i => (s.sec.otp.ops[i]?).join == some k
  | none => false

/-- What an envelope of a kind and target fails on, as a MACK status (R391, R580): layout, signature, seal; none where it
verifies. -/
def envelopeFault (s : State) (e : Envelope) (kind : Nat) (target : Nat → Bool) : Option Nat :=
  if e.len ≠ 354 ∨ e.kind ≠ kind ∨ target e.target = false then some mkFORMAT
  else if opKeyActive s e.opKey = false ∨ e.sigOk = false then some mkSIGNATURE
  else if e.sealOk = false then some mkUNWRAP
  else none

/-- The envelope of a tenant KEK: its binding is zero, its version above the one held. -/
def kekFault (s : State) (e : Envelope) : Option Nat :=
  match envelopeFault s e 1 (fun t => decide (t < 64)) with
  | some x => some x
  | none =>
    if e.session ≠ 0 ∨ e.tsalt ≠ 0 ∨ e.dsalt ≠ 0 then some mkFORMAT
    else if e.version ≤ rawGet s bAWP (0x1100 + 4 * e.target) then some mkVERSION
    else none

/-- A tenant's KEK is held from now on: its version, ZEROIZED where it was the last tenant to wait for its key (R129), and the
CONFIG KEY and KEY IMPORT grains, which name the version and never the key. -/
def importKek (s : State) (e : Envelope) (cjn : Nat) : State :=
  let t := e.target
  let left := s.sec.vault.zkeys.filter (· ≠ t)
  let s1 : State := { s with awp.kek := ins s.awp.kek t e.key, sec.vault.zkeys := left,
                             sec.vault.zeroized := s.sec.vault.zeroized && !(s.sec.vault.zkeys.contains t && left.isEmpty) }
  let s2 := rawSet s1 bAWP (0x1100 + 4 * t) e.version
  eventD (eventT s2 t 6 3 (evBody 0x0488 [t, e.version]) s2.now s2.tim.u 0 cjn) 9 0x0C 0x0488 [t, e.version] cjn

/-- KEYIMP. [log 54 DEDUCED, unsafe] -/
def execKeyimp (f : Frame) (e : Envelope) (s : State) : Host.Outcome State Fault Refusal :=
  .next (mgmtFrame s f [.devmgmt] [.live, .quiet] (fun s =>
    if f.plen ≠ 354 then mack s f mkFORMAT
    else match kekFault s e with
      | some x => mack s f x
      | none => mack (importKek s e 0) f mkOK))

/-! ### Sessions (R381, R390) -/

/-- A session as it is loaded (R383): H is 0 and only bit 0 is set. -/
def newSession (cls : SClass) (t terminal : Nat) (key : BitVec 256) (tsalt dsalt : BitVec 32) : Session :=
  { cls := cls, opened := true, tenant := t, terminal := terminal, keyHeld := true, key := key, tsalt := tsalt, dsalt := dsalt,
    high := 0, bitmap := 1, devCtr := 0, unreplied := 0, a4 := 0, a5 := 0 }

/-- Sessions of a tenant in the table. -/
def sessCount (s : State) (t : Nat) : Nat := (s.awp.sessions.filter (fun p => p.1 / 2 ^ 32 == t)).length

/-- The tenant and session ID are in the table, or have a grain in the journal index. -/
def sessUsed (s : State) (t session : Nat) : Bool :=
  (sessOf s t session).isSome ||
    (strm s t).grains.any (fun g => decide (1 ≤ g.hdr.typ ∧ g.hdr.typ ≤ 3) && g.hdr.session == session && isDurable s t g.seq)

/-- A SESSLOAD payload (R390); `key` is what its ciphertext opens to under the tenant's KEK, none where the tag fails or no KEK
is held. [log 53 DEDUCED, unsafe] -/
def sessload (f : Frame) (key : Option (BitVec 256)) (s : State) : State :=
  let p := f.payload
  let t := ofBe (p.take 1)
  let cls := ofBe ((p.drop 1).take 1)
  let id := ofBe ((p.drop 4).take 4)
  if p.length ≠ 80 ∨ t ≥ 64 ∨ cls > 1 ∨ ofBe ((p.drop 2).take 2) ≠ 0 then mack s f mkFORMAT
  else if f.tenant ≠ tDEV ∧ f.tenant ≠ t then mack s f mkSCOPE
  else match (if (lk s.awp.kek t).isSome then key else none) with
    | none => mack s f mkUNWRAP
    | some k =>
      if sessCount s t ≥ fget s bAWP (0x1000 + 4 * t) 0 23 ∨ s.awp.sessions.length ≥ 4194304 then mack s f mkTABLE_FULL
      else if sessUsed s t id then mack s f mkSESSION_REUSED
      else
        let x := newSession (if cls = 0 then .terminal else .mgmt) t (ofBe ((p.drop 8).take 4)) k
          (BitVec.ofNat 32 (ofBe ((p.drop 12).take 4))) (BitVec.ofNat 32 (ofBe ((p.drop 16).take 4)))
        mack { s with awp.sessions := ins s.awp.sessions (skey t id) x } f mkOK

/-- SESSLOAD. [log 34 DESIGN CHOICE, safe; log 53 DEDUCED, unsafe] -/
def execSessload (f : Frame) (key : Option (BitVec 256)) (s : State) : Host.Outcome State Fault Refusal :=
  .next (mgmtFrame s f [.devmgmt, .mgmt] [.live, .quiet] (sessload f key))

/-- SESSDROP of the session that its payload names: it is CLOSING, and freed once nothing more is due (R381). [log 54 DEDUCED, unsafe] -/
def execSessdrop (f : Frame) (tenant session : Nat) (s : State) : Host.Outcome State Fault Refusal :=
  .next (mgmtFrame s f [.devmgmt, .mgmt] [.live, .quiet] (fun s =>
    if f.tenant ≠ tDEV ∧ f.tenant ≠ tenant then mack s f mkSCOPE
    else if (sessOf s tenant session).isNone then mack s f mkFORMAT
    else freeIfDone (mack (updSess s (skey tenant session) (fun x => { x with opened := false })) f mkOK) (skey tenant session)))

/-! ### Export (R529 to R531) -/

/-- The segments that an export of a range freezes, oldest first: the sealed segments, consecutive within one epoch, from the
one that holds `lo` through the last one whose grains are all at or below `hi`. A replay journal's segments carry no seal. -/
def exportSegs (s : State) (t : Nat) (rj : Bool) (lo hi : Nat) : List Segment :=
  let all := (if rj then rjSegs s t else (strm s t).segs.filter (fun g => g.sealTai.isSome && !g.retired)).reverse
  match all.find? (fun g => decide (g.first ≤ lo ∧ lo < g.next)) with
  | none => []
  | some a => all.filter (fun g => g.epoch == a.epoch && decide (a.no ≤ g.no ∧ g.next ≤ hi + 1))

/-- Bytes of an export image (R530). -/
def exportLen (e : Export) : Nat := 188 + (if e.genesis then 20 else 0) + 786492 * e.segs.length + 156

/-- Part p of an image (R531). -/
def exportPart (e : Export) (p : Nat) : List Byte :=
  let n := exportLen e
  let len := min 1388 (n - 1388 * p)
  be 4 e.reqid ++ be 4 p ++ be 1 (b2n (decide (1388 * (p + 1) ≥ n))) ++ be 3 0
    ++ fit len (Config.exportBytes (e.tenant + 128 * b2n e.rj) (e.segs.headD 0) (1388 * p) len)

/-- Parts FROMPART to FROMPART + 63 that the image has leave in order. -/
def sendParts (s : State) (f : Frame) (e : Export) (fromPart : Nat) : State :=
  ((List.range 64).map (· + fromPart)).foldl (fun a p =>
    if 1388 * p < exportLen e then answer a f mtEXPDATA (exportPart e p) else a) s

/-- An EXPREQ payload (R529). [log 54 DEDUCED, unsafe] -/
def expreq (f : Frame) (s : State) : State :=
  let p := f.payload
  let t := ofBe (p.take 1)
  let fl := ofBe ((p.drop 1).take 1)
  let id := ofBe ((p.drop 4).take 4)
  let part := ofBe ((p.drop 8).take 4)
  let lo := ofBe ((p.drop 16).take 8)
  let hi := ofBe ((p.drop 24).take 8)
  if p.length ≠ 32 ∨ t ≥ 64 ∨ fl > 1 ∨ ofBe ((p.drop 2).take 2) ≠ 0 ∨ ofBe ((p.drop 12).take 4) ≠ 0 then mack s f mkFORMAT
  else if f.tenant ≠ tDEV ∧ f.tenant ≠ t then mack s f mkSCOPE
  else if s.rpl.closedReq.contains id then mack s f mkSCOPE
  else match s.rpl.exports.find? (fun e => e.reqid == id) with
    | some e =>
      if e.tenant ≠ t ∨ e.rj ≠ (fl == 1) ∨ e.lo ≠ lo ∨ e.hi ≠ hi then mack s f mkFORMAT
      else sendParts { s with rpl.exports := s.rpl.exports.map (fun x => if x.reqid = id then { x with lastReq := s.tim.ticks } else x) } f e part
    | none =>
      let gs := exportSegs s t (fl == 1) lo hi
      match gs with
      | [] => mack s f mkFORMAT
      | g :: _ =>
        if lo > hi then mack s f mkFORMAT
        else if s.rpl.exports.length ≥ 4 then mack s f mkTABLE_FULL
        else
          let e : Export := ⟨id, t, fl == 1, lo, hi, gs.map (·.no), decide (g.first = 0), s.tim.ticks⟩
          sendParts { s with rpl.exports := s.rpl.exports ++ [e] } f e part

/-- EXPREQ. -/
def execExpreq (f : Frame) (s : State) : Host.Outcome State Fault Refusal :=
  .next (mgmtFrame s f [.devmgmt, .mgmt] [.live, .quiet, .audit, .replay] (expreq f))

/-- EXPORT_IDLE_TIMEOUT of a REQID. -/
def execExportIdleTimeout (reqid : Nat) (s : State) : Host.Outcome State Fault Refusal :=
  .next { s with rpl.exports := s.rpl.exports.filter (fun e => !(e.reqid == reqid && decide (s.since e.lastReq ≥ ticksOfS 60))) }

/-! ### Import (R532, R533) -/

/-- What RPL shows of a tenant's import, replaced. -/
def putStat (s : State) (t : Nat) (x : ImpStat) : State := { s with rpl.stats := ins s.rpl.stats t x }

/-- Segments of the import area that an image of n bytes takes. [log 55 DEDUCED, safe] -/
def imageSegs (n : Nat) : Nat := (n + 786491) / 786492

/-- A part is accepted: the last one waits for the verification, whose result its MACK carries. -/
def takePart (s : State) (f : Frame) (setid part len tenant bytes : Nat) (last : Bool) : State :=
  let s1 : State := { s with rpl.recv := some ⟨setid, part + 1, bytes + len, last, tenant, f.session, f.counter, routeOf f⟩ }
  let s2 := putStat s1 tenant ⟨if last then 2 else 1, 0, 0⟩
  if last then s2 else mack s2 f mkOK

/-- The image set that an IMPDATA part continues, or that part 0 starts: the bytes already in the area, and the tenant. -/
def impCont (s : State) (p : List Byte) : Option (Nat × Nat) :=
  let setid := ofBe (p.take 4)
  let part := ofBe ((p.drop 4).take 4)
  let fresh := if part = 0 then some (0, ofBe ((p.drop 152).take 1) % 64) else none
  match s.rpl.recv with
  | some r => if r.setid = setid ∧ r.next = part then some (r.bytes, r.tenant) else fresh
  | none => fresh

/-- An IMPDATA part is malformed, or the set it comes after already has its last part. -/
def impBad (s : State) (p : List Byte) : Bool :=
  decide (p.length < 12) || decide (ofBe ((p.drop 8).take 1) > 1) || decide (ofBe ((p.drop 9).take 3) ≠ 0)
    || (match s.rpl.recv with | some r => r.last | none => false)

/-- An IMPDATA payload (R532). A part 0 of another SETID begins that set and discards the incomplete one. Byte 140 of the image
is the TENANT of HEAD. -/
def impdata (f : Frame) (s : State) : State :=
  let p := f.payload
  let len := p.length - 12
  if s.role ≠ .lab then mack s f mkSCOPE
  else if impBad s p then mack s f mkFORMAT
  else
    match impCont s p with
    | none => mack s f mkFORMAT
    | some c =>
      if imageSegs (c.1 + len) > areaFree s then mack (putStat { s with rpl.recv := none } c.2 ⟨0, 0, 0⟩) f mkTABLE_FULL
      else takePart s f (ofBe (p.take 4)) (ofBe ((p.drop 4).take 4)) len c.2 c.1 (ofBe ((p.drop 8).take 1) == 1)

/-- IMPDATA. [log 54 DEDUCED, unsafe] -/
def execImpdata (f : Frame) (s : State) : Host.Outcome State Fault Refusal :=
  .next (mgmtFrame s f [.devmgmt] [.quiet, .replay] (impdata f))

/-- IMPORT_VERIFY: what the verification of R533 finds: the set, or the reason of Table 21.5 and the failing segment. The MACK of
the last part leaves. [log 34 DESIGN CHOICE, safe] -/
def execImportVerify (set : Option ImpSet) (reason seg : Nat) (s : State) : Host.Outcome State Fault Refusal :=
  match s.rpl.recv with
  | none => .next s
  | some r =>
    if r.last = false then .next s
    else
      let s0 : State := { s with rpl.recv := none }
      let done (s : State) (status : Nat) : State :=
        freeIfDone (sendAwp s tDEV r.session r.route mtMACK (be 6 r.echo ++ be 1 status ++ be 1 0)) (skey tDEV r.session)
      match set with
      | some x => .next (done (putStat { s0 with rpl.sets := ins s0.rpl.sets r.tenant x } r.tenant ⟨3, 0, x.segs⟩) mkOK)
      | none => .next (done (putStat s0 r.tenant ⟨4, reason, seg⟩) mkSIGNATURE)

end Sys2Proof.Machine
end

