-- ==== Sys2Proof/Machine/Keys.lean ====
section
/-! DEFINITION. Commissioning, key and image commands (23.4; R110 to R118, R391, R432, R584, R585). -/
namespace Sys2Proof.Machine

open Sys2Proof

/-! ### One-time values (R109 to R112) -/

/-- A fuse write: after a third failed read-back the device enters HOLD with cause OTP_FAIL (R112), and the command is refused with the
mode that then holds. [log 95 DEDUCED, unsafe] -/
def fuse (good : Bool) (s : State) (f : ActRes) : ActRes := if good then f else modeRefused (enterHold s hOTP_FAIL 0 0)

/-- The image that runs. -/
def runningImage (s : State) : Option Image := (s.sec.slots[s.sec.slot]?).join

/-- COMMISSION JKEY HASH: on PROG_EN alone; `fuseOk` says that one of its three fuse writes reads back. [log 95 DEDUCED, unsafe] -/
def execCommissionJkeyHash (l : ConLine) (hash : Digest) (progEn fuseOk : Bool) (s : State) : Host.Outcome State Fault Refusal :=
  .next (runCmd l (specOn .observe [1] [.sealed] true true) (fun cjn s =>
    if progEn = false then err s eAUTHORITY []
    else if s.sec.otp.jhash.isSome then err s eONCE []
    else if (runningImage s).map (·.jpub) ≠ some hash then err s eKEY_MISMATCH []
    else fuse fuseOk s (okB { s with sec.otp.jhash := some hash } [(cjn : Int)] (digBytes hash))) s)

/-- The next free operator slot. -/
def freeSlot (s : State) : Option Nat := (List.range 4).find? (fun i => ((s.sec.otp.ops[i]?).join).isNone)

/-- COMMISSION OPKEY: the hash of the staged key into the next free slot. [log 95 DEDUCED, unsafe] -/
def execCommissionOpkey (l : ConLine) (fuseOk : Bool) (s : State) : Host.Outcome State Fault Refusal :=
  .next (runCmd l (specOn .regulate [1] [.sealed, .quiet] true true) (fun cjn s =>
    consume1 l (fun b =>
      if b.length ≠ 96 then err s eARGS []
      else if s.sec.otp.jhash.isNone then err s eORDER []
      else match freeSlot s with
        | none => err s eONCE []
        | some i =>
          let h := Config.sha256 b
          fuse fuseOk s (okB { s with sec.otp.ops := upd s.sec.otp.ops i (fun _ => some h) } [(cjn : Int), (i : Int)] (digBytes h))) s) s)

/-- The role of a code of Table 2.7. -/
def roleOf (n : Nat) : Option Role := if n = 1 then some .primary else if n = 2 then some .shadow else if n = 3 then some .lab else none

/-- The genesis of the 65 streams (R429), and the commands kept until now, in CJN order (R577), then the events that waited. -/
def writeGenesis (s : State) : State :=
  let now := s.now
  let s1 := ((List.range 64) ++ [sD]).foldl (fun a t =>
    setStrm a t { strm a t with genesis := genesisDigest t now, lastDig := genesisDigest t now }) s
  let s2 : State := { s1 with sec.otp.genesisTai := some now, jrn.dWritable := true }
  let s3 := (List.range' 1 s2.con.appended).foldl writeCjn s2
  writeHeld { s3 with con.retained := [] }

/-- COMMISSION ROLE: 1 PRIMARY, 2 SHADOW, 3 LAB. [log 95 DEDUCED, unsafe] -/
def execCommissionRole (l : ConLine) (role : Nat) (fuseOk : Bool) (s : State) : Host.Outcome State Fault Refusal :=
  .next (runCmd l (specOn .regulate [1] [.sealed] true (roleOf role).isSome) (fun cjn s =>
    if s.sec.otp.jhash.isNone ∨ freeSlot s = some 0 then err s eORDER []
    else if s.role ≠ .none then err s eONCE []
    else fuse fuseOk s (ok (writeGenesis { s with sec.otp.role := (roleOf role).getD .none })
      [(cjn : Int), (role : Int), (s.now : Int), 65])) s)

/-- REVOKE OPKEY: authority gained with that slot's key ends (R560). [log 95 DEDUCED, unsafe] -/
def execRevokeOpkey (l : ConLine) (slot : Nat) (fuseOk : Bool) (s : State) : Host.Outcome State Fault Refusal :=
  .next (runCmd l (specOn .regulate [1] [.sealed, .quiet] false (decide (slot < 4))) (fun cjn s =>
    if (s.sec.otp.revoked[slot]?).getD false then err s eONCE []
    else
      let s1 : State := { s with sec.otp.revoked := upd s.sec.otp.revoked slot (fun _ => true),
                                 con.cons := s.con.cons.map (fun k => if k.authSlot = some slot then { k with auth := .observe, authSlot := none } else k) }
      fuse fuseOk s (ok s1 [(cjn : Int), (slot : Int), match activeOp s1 with | some i => (i : Int) | none => -1])) s)

/-! ### The board declaration (R483, R584, Table 23.3) -/

/-- A field of a staged object. -/
def field (b : List Byte) (off n : Nat) : Nat := ofBe ((b.drop off).take n)

/-- The declaration of 208 bytes; its figures fit the fields that take them. [log 96 DEDUCED, safe] -/
def parseDecl (b : List Byte) : Option Decl :=
  let d : Decl := ⟨field b 0 1, field b 4 4, field b 8 4, field b 12 4, Config.sha256 ((b.drop 16).take 96)⟩
  if b.length = 208 ∧ 1 ≤ d.cls ∧ d.cls ≤ 3 ∧ d.hudecl < 65536 ∧ d.vmin < 65536 ∧ d.hudiv < 65536 then some d else none

/-- SET ECLASS: stored, and applied at once where S7 waits for it (R105). [log 96 DEDUCED, safe] -/
def execSetEclass (l : ConLine) (s : State) : Host.Outcome State Fault Refusal :=
  .next (runCmd l (specOn .engineer [0, 1] [.sealed] false true) (fun cjn s =>
    consume1 l (fun b =>
      match parseDecl b with
      | none => err s eARGS []
      | some d =>
        if opKeyActive s d.op = false ∨ Config.keyVerify d.op (b.take 112) (b.drop 112) = false then err s eSIGNATURE []
        else
          let s1 : State := { s with sec.decl := some d }
          let vals (k : Int) : List Int := [(cjn : Int), (d.cls : Int), (d.hudecl : Int), k]
          if waitsDecl s1 then ok (applyDecl { s1 with sec.stepSince := s1.tim.ticks } d cjn) (vals 1)
          else ok s1 (vals 0)) s) s)

/-! ### Import envelopes (R391, R580) -/

/-- The envelope of 354 bytes; `key` is what its sealed key opens to, none where its tag fails. [log 97 DEDUCED, safe] -/
def parseEnvelope (b : List Byte) (key : Option (BitVec 256)) : Envelope :=
  let op := Config.sha256 ((b.drop 162).take 96)
  { target := field b 0 1, kind := field b 1 1, version := field b 2 4, session := field b 6 4, tsalt := BitVec.ofNat 32 (field b 10 4),
    dsalt := BitVec.ofNat 32 (field b 14 4), key := key.getD 0, sealOk := key.isSome, opKey := op,
    sigOk := Config.keyVerify op (b.take 258) (b.drop 258), len := b.length }

/-- The console refusal of a fault that an envelope's check finds. [log 97 DEDUCED, safe] -/
def envelopeErr (s : State) (x : Nat) : ActRes :=
  err s (if x = mkVERSION then eVERSION else if x = mkSIGNATURE ∨ x = mkUNWRAP then eSIGNATURE else eENVELOPE) []

/-- IMPORT KEY t. [log 97 DEDUCED, safe] -/
def execImportKey (l : ConLine) (t : Nat) (key : Option (BitVec 256)) (s : State) : Host.Outcome State Fault Refusal :=
  .next (runCmd l (spec .engineer [.live, .quiet] (decide (t < 64))) (fun cjn s =>
    consume1 l (fun b =>
      let e := parseEnvelope b key
      if b.length ≠ 354 then err s eARGS []
      else if e.target ≠ t then err s eENVELOPE []
      else match kekFault s e with
        | some x => envelopeErr s x
        | none => ok (importKek s e cjn) [(cjn : Int), (e.version : Int)]) s) s)

/-- OPEN MGMT: a DEVMGMT session; an ID is used once. [log 34 DESIGN CHOICE, safe; log 97 DEDUCED, safe] -/
def execOpenMgmt (l : ConLine) (key : Option (BitVec 256)) (s : State) : Host.Outcome State Fault Refusal :=
  .next (runCmd l (spec .engineer [.live, .quiet, .audit, .replay] true) (fun cjn s =>
    consume1 l (fun b =>
      let e := parseEnvelope b key
      if b.length ≠ 354 then err s eARGS []
      else match envelopeFault s e 2 (· == tDEV) with
        | some x => envelopeErr s x
        | none =>
          if sessUsed s tDEV e.session then err s eSESSION_REUSED []
          else if s.awp.sessions.length ≥ 4194304 then err s eFULL []
          else
            ok { s with awp.sessions := ins s.awp.sessions (skey tDEV e.session) (newSession .devmgmt tDEV 0 e.key e.tsalt e.dsalt) }
              [(cjn : Int), (e.session : Int)]) s) s)

/-! ### Firmware images (R113 to R115, R585) -/

/-- The slot that LOAD IMAGE writes: in ROM recovery the one named; else the one that does not run, which alone may be named. -/
def imageSlot (s : State) (slot : Option Nat) : Option Nat :=
  if s.sec.recovery then (match slot with | some i => if i < 2 then some i else none | none => none)
  else match slot with
    | none => some (1 - s.sec.slot)
    | some i => if i = 1 - s.sec.slot then some i else none

/-- LOAD IMAGE: `im` is the image that the staged object holds, none where its layout is not that of Table 4.4. Its reply waits until both
copies of the slot read back. [log 34 DESIGN CHOICE, safe; log 48 PRESUMED, safe; log 98 DEDUCED, unsafe] -/
def execLoadImage (l : ConLine) (slot : Option Nat) (im : Option Image) (s : State) : Host.Outcome State Fault Refusal :=
  .next (runCmd l ⟨.engineer, [0, 1], [.sealed, .quiet], false, (imageSlot s slot).isSome, false, false, true⟩ (fun cjn s =>
    consume1 l (fun _ =>
      match im, imageSlot s slot with
      | some im, some i =>
        if slotValid { s with sec.otp.rollback := 0 } true im = false then err s eSIGNATURE []
        else if im.rollback < s.sec.otp.rollback then err s eROLLBACK []
        else
          let s1 : State := { s with sec.slots := upd s.sec.slots i (fun _ => none) }
          ⟨if s.sec.s5done then s1 else logOpen s1 [], reply 0 [(cjn : Int), (i : Int), (im.ver : Int), (im.rollback : Int)] [], .image i im⟩
      | _, _ => err s eARGS []) s) s)

/-- COMMIT IMAGE: the rollback counter advances to the running image's ROLLBACK. -/
def execCommitImage (l : ConLine) (fuseOk : Bool) (s : State) : Host.Outcome State Fault Refusal :=
  .next (runCmd l (specOn .regulate [1] [.quiet] false true) (fun cjn s =>
    let r := max s.sec.otp.rollback (((runningImage s).map (·.rollback)).getD 0)
    fuse fuseOk s (ok { s with sec.otp.rollback := r } [(cjn : Int), (r : Int)])) s)

/-! ### Rule programs and dictionaries (R116, R118, R432) -/

/-- A rule container (Table 23.3): tenant, version, program; `sig` says that JSIG verifies with the jurisdiction key. -/
structure RuleBox where
  tenant : Nat
  version : Nat
  prog : List Byte
  signed : Bool
deriving DecidableEq, Repr

/-- The rule container of a staged object. -/
def parseRules (s : State) (b : List Byte) : Option RuleBox :=
  let n := field b 12 4
  if b.length ≠ 208 + n ∨ field b 0 4 ≠ 0x4B4D5250 ∨ field b 4 2 ≠ 1 then none
  else
    let h := Config.sha256 ((b.drop (16 + n)).take 96)
    some ⟨field b 6 1, field b 8 4, (b.drop 16).take n, decide (s.sec.otp.jhash = some h) && Config.keyVerify h (b.take (112 + n)) (b.drop (112 + n))⟩

/-- Tenant t's rule program from now on; a change of TM_t has its grains, and waits for its MEAS item (R118, R525). [log 69 DEDUCED, unsafe] -/
def setRules (s : State) (t : Nat) (r : Rules) (cjn : Nat) : State :=
  let s1 : State := { s with sec.rules := ins s.sec.rules t r }
  if tmOf s1 t = tmOf s t then s1
  else
    let par := [t, r.version] ++ digPar (tmOf s1 t)
    let s2 := eventT s1 t 6 4 (evBody 0x0489 par) s1.now s1.tim.u 0 cjn
    eventD { s2 with jrn.measDue := (t :: s2.jrn.measDue).eraseDups } 9 0x0C 0x0489 par cjn

/-- LOAD RULES t. [log 34 DESIGN CHOICE, safe] -/
def execLoadRules (l : ConLine) (t : Nat) (s : State) : Host.Outcome State Fault Refusal :=
  .next (runCmd l (spec .engineer [.quiet] (decide (t < 64))) (fun cjn s =>
    consume1 l (fun b =>
      match parseRules s b with
      | none => err s eARGS []
      | some r =>
        if r.tenant ≠ t then err s eARGS []
        else if r.signed = false then err s eSIGNATURE []
        else
          let s1 := setRules s t ⟨Config.sha256 r.prog, r.version⟩ cjn
          okB s1 [(cjn : Int), (r.version : Int)] (digBytes (tmOf s1 t))) s) s)

/-- Every request of a stream takes its number. [log 102 DEDUCED, unsafe] -/
def numberAll (s : State) (t : Nat) : State := (strm s t).reqs.foldl (fun a _ => numberHead a t) s

/-- LOAD DICT t: its CONFIG DICT grain takes the stream's next number; a stream that takes no grain refuses it. [log 101 DEDUCED, safe] -/
def execLoadDict (l : ConLine) (t : Nat) (s : State) : Host.Outcome State Fault Refusal :=
  .next (runCmd l (spec .engineer [.quiet] (decide (t < 64))) (fun cjn s =>
    consume1 l (fun b =>
      if b.length > 4096 then err s eARGS []
      else if !(streamTakes s t) then err s eSTATE []
      else
        let s1 := numberAll s t
        let n := (strm s1 t).next
        ok (numberHead (eventT s1 t 6 5 b s1.now s1.tim.u 0 cjn) t) [(cjn : Int), (n : Int)]) s) s)

end Sys2Proof.Machine
end

