-- ==== Sys2Proof/Machine/MirrorRows.lean ====
section
/-! DEFINITION. The rows of the mirror link (chapter 16): frames received and its timers. -/
namespace Sys2Proof.Machine

open Sys2Proof

/-! ### Reading bodies -/

/-- Effect entries from their bytes (R522). -/
def readEffects : Nat → List Byte → List Effect
  | 0, _ => []
  | n + 1, b =>
    let k := bodyNum b 6 1
    let w (i : Nat) : TWord := ⟨BitVec.ofNat 8 (bodyNum b (16 + 9 * i) 1), BitVec.ofNat 64 (bodyNum b (17 + 9 * i) 8)⟩
    ⟨bodyNum b 2 1, bodyNum b 4 2, BitVec.ofNat 64 (bodyNum b 8 8), (List.range k).map w⟩ :: readEffects n (b.drop (16 + 9 * k))

/-- An input from the body of an INPUT item (Tables 15.8 and 21.1); what the record loses reads zero (Table 21.3). -/
def readInput (b : List Byte) : Input :=
  let n := bodyNum b 0x2A 2
  let r : Route := ⟨bodyNum b 0x14 1, bodyNum b 0x15 1 == 6, BitVec.ofNat 128 (bodyNum b 0x30 16), BitVec.ofNat 128 (bodyNum b 0x40 16), bodyNum b 0x2C 2, bodyNum b 0x2E 2, 0, none⟩
  { tenant := bodyNum b 0x18 1, seq := bodyNum b 0 8, typ := bodyNum b 0x16 1, tai := bodyNum b 8 8, u := bodyNum b 0x10 4,
    book := bodyNum b 0x1A 2, terminal := bodyNum b 0x1C 4, session := bodyNum b 0x20 4, counter := bodyNum b 0x24 6, route := r,
    payload := (b.drop 0x50).take n, avoid := [], log := readEffects (bodyNum b (0x52 + n) 2) (b.drop (0x58 + n)), abandons := 0,
    pairFaults := 0, rerun := false, reran := bit (bodyNum b (0x50 + n) 2) 1, bound := false, single := false,
    recorded := some (bit (bodyNum b (0x50 + n) 2) 0) }

/-- A grain header from its 64 bytes (Table 17.1). -/
def readHdr (b : List Byte) : Hdr :=
  { stream := bodyNum b 0 1, typ := bodyNum b 1 1, kind := bodyNum b 45 1, flags := bodyNum b 2 2, tlen := bodyNum b 6 2,
    tai := bodyNum b 16 8, u := bodyNum b 24 4, terminal := bodyNum b 28 4, session := bodyNum b 32 4, counter := bodyNum b 36 6,
    book := bodyNum b 42 2, lane := bodyNum b 44 1, rule := bodyNum b 46 2, cjn := bodyNum b 48 8 }

/-! ### Receiving (R404) -/

/-- A frame of a running link: discarded with a NACK where its tag fails or it lies beyond the next LSEQ, discarded where it
was received before, else taken by `f`; every sixteenth is acknowledged at once. [log 45 DEDUCED, safe] -/
def mirTake (s : State) (lseq : Nat) (tagOk : Bool) (f : State → State) : State :=
  if s.mir.link ≠ 2 ∨ linkAllowed s = false then s
  else if tagOk = false then sendNack (bumpWrap s bMIR 0x88 0 32 1)
  else if lseq > s.mir.rxNext then sendNack s
  else if lseq < s.mir.rxNext then s
  else
    let s1 := f { s with mir.rxNext := s.mir.rxNext + 1, mir.rxSince := s.mir.rxSince + 1 }
    if s1.mir.rxSince ≥ 16 then sendAck s1 else s1

/-- The shadow takes frames for a tenant: its MIRROR bit is set, it is not DIVERGED, the sequencers run. -/
def shadowTakes (s : State) (t : Nat) : Bool :=
  s.role == .shadow && decide (t < 64) && tenantBit s bMIR 0x40 t && (getMir s t).st != 3 && !s.inMode .hold && !s.jrn.closed

/-- Why a HELLO is rejected: 1 role, 2 identity, 3 signature; 0 where it is accepted (R403). -/
def helloReason (s : State) (role : Nat) (ident : Digest) (sigOk : Bool) : Nat :=
  let other := if s.role = .primary then 2 else 1
  if role ≠ other then 1
  else if ident.toNat ≠ (List.range 8).foldl (fun a i => a * 2 ^ 32 + rawGet s bMIR (0x20 + 4 * i)) 0 then 2
  else if sigOk then 0 else 3

/-- The number after the last durable grain of each tenant, all ones where it is detached (R410). -/
def positionBody (s : State) : List Byte :=
  (List.range 64).flatMap (fun t =>
    be 8 (if tenantBit s bMIR 0x40 t && (getMir s t).st != 3 then (strm s t).dur else 2 ^ 64 - 1))

/-- HELLO: the peer's role, the hash of its identity key, whether its signature verifies. A link that is DOWN with every quad
UP answers with its own HELLO. [log 46 DEDUCED, unsafe] -/
def execHello (role : Nat) (ident : Digest) (sigOk : Bool) (s : State) : Host.Outcome State Fault Refusal :=
  if linkReady s = false ∨ linkAllowed s = false ∨ s.mir.link = 2 then .next s
  else
    let s1 := linkFollow s
    let r := helloReason s1 role ident sigOk
    if r ≠ 0 then .next (eventD (bumpSat s1 bMIR 0x90 16 16 1) 9 9 0x0B82 [r] 0)
    else
      let s2 := linkTo (linkClear s1) 2
      .next (if s.role = .shadow then mirSend s2 mPOSITION 0 (positionBody s2) else s2)

/-- RECORD: the shadow's sequencer takes the record's input with the number that it carries. -/
def execRecord (lseq tenant : Nat) (tagOk : Bool) (body : List Byte) (s : State) : Host.Outcome State Fault Refusal :=
  .next (mirTake s lseq tagOk (fun s =>
    let i := readInput body
    let st := strm s tenant
    if shadowTakes s tenant = false ∨ (getMir s tenant).st ≠ 2 ∨ i.seq ≠ st.next ∨ i.tenant ≠ tenant then s
    else
      let s1 := setStrm s tenant { st with next := st.next + 1 }
      bumpWrap { s1 with awp.inputs := s1.awp.inputs ++ [i], awp.runq := ins s1.awp.runq tenant (lkD s1.awp.runq tenant [] ++ [i.seq]) }
        bSEQ (0x800 + 0x10 * tenant) 0 32 1))

/-- GRAIN: journaled as received when its turn in the chain comes, with its sales-state change. -/
def execGrain (lseq tenant : Nat) (tagOk : Bool) (body : List Byte) (s : State) : Host.Outcome State Fault Refusal :=
  .next (mirTake s lseq tagOk (fun s =>
    let h := readHdr body
    let st := strm s tenant
    if shadowTakes s tenant = false ∨ (getMir s tenant).st ≠ 2 ∨ bodyNum body 8 8 ≠ st.next ∨ h.stream ≠ tenant then s
    else
      let s1 := setStrm s tenant { st with next := st.next + 1, numbered := ins st.numbered st.next ⟨h, body.drop 64⟩ }
      applyChained (cascade (st.numbered.length + 1) s1 tenant) tenant st.chained))

/-- ANCHOR: the tenant's next grain chains onto the digest; at k = 0 that is the primary's genesis digest (R408, R429). [log 46 DEDUCED, unsafe] -/
def execAnchor (lseq tenant k : Nat) (digest : Digest) (tagOk : Bool) (s : State) : Host.Outcome State Fault Refusal :=
  .next (mirTake s lseq tagOk (fun s =>
    let st := strm s tenant
    if shadowTakes s tenant = false ∨ k > st.chained then s
    else
      let s1 := updMir s tenant (fun x => { x with st := 2 })
      if k = st.chained then setStrm s1 tenant { st with lastDig := digest, genesis := if k = 0 then digest else st.genesis } else s1))

/-- MIRROR_DIVERGENCE at grain n (R412). -/
def mirrorDivergence (s : State) (t n : Nat) (mine theirs : Digest) : State :=
  let par := [n] ++ digPar mine ++ digPar theirs
  let s1 := mirrorCause s t
  let s2 := eventT s1 t 9 9 (evBody 0x0B81 par) s1.now s1.tim.u 0 0
  let s3 := eventD s2 9 9 0x0B81 par 0
  let s4 := if fget s3 bMIR 0xA0 8 1 = 1 then s3 else set64 (rawSet s3 bMIR 0xA0 (256 + t)) bMIR 0x98 n
  let body := be 8 n ++ digBytes mine ++ digBytes theirs
  updMir (if mirMay s4 mDIVERGE body.length then mirSend s4 mDIVERGE t body else s4) t (fun x => { x with st := 3 })

/-- The digests from number n on are compared in order (R411). -/
def matchDigests (t : Nat) : State → Nat → List Digest → State
  | s, _, [] => s
  | s, n, d :: l =>
    if (getMir s t).st = 3 then s
    else if n ≠ firstUnmatched s t then matchDigests t s (n + 1) l
    else match grainAt s t n with
      | none => s
      | some g =>
        if g.digest = d then matchDigests t (updMir s t (fun x => { x with matched := some n })) (n + 1) l
        else mirrorDivergence s t n g.digest d

/-- DIGEST: at most 64 digests from number `first` on. -/
def execDigest (lseq tenant first : Nat) (digests : List Digest) (tagOk : Bool) (s : State) : Host.Outcome State Fault Refusal :=
  .next (mirTake s lseq tagOk (fun s =>
    if s.role ≠ .primary ∨ tenant ≥ 64 ∨ tenantBit s bMIR 0x40 tenant = false ∨ digests.length > 64 then s
    else lagTest (releaseInputs (matchDigests tenant s first digests) tenant) tenant))

/-- ACK: the retransmit buffer is freed up to the LSEQ, the credit limit is the peer's latest, and what waits is sent. [log 45 DEDUCED, safe] -/
def execAck (lseq acked limit : Nat) (tagOk : Bool) (s : State) : Host.Outcome State Fault Refusal :=
  .next (mirTake s lseq tagOk (fun s =>
    let s1 : State := { s with mir.limit := limit }
    let s2 : State := if acked > s.mir.txAcked ∧ acked < s.mir.txNext then
        { s1 with mir.txAcked := acked, mir.buf := s.mir.buf.filter (fun f => decide (f.lseq > acked)), mir.ackTick := s.tim.ticks }
      else s1
    mirrorPumpAll s2))

/-- Every frame of the buffer from an LSEQ on is resent. -/
def resendFrom (s : State) (n : Nat) : State :=
  let l := s.mir.buf.filter (fun f => decide (f.lseq ≥ n))
  let s1 := l.foldl (fun a f => emitOut a (.mirror f.lseq f.kind f.tenant f.body)) s
  bumpWrap { s1 with mir.retxTick := s.tim.ticks } bMIR 0x80 0 32 l.length

/-- NACK: resend from the LSEQ that it names. [log 45 DEDUCED, safe] -/
def execNack (lseq expected : Nat) (tagOk : Bool) (s : State) : Host.Outcome State Fault Refusal :=
  .next (mirTake s lseq tagOk (fun s => resendFrom s expected))

/-- Where the primary resumes a tenant: at the shadow's position, from an ANCHOR; not at all where it is detached. A tenant
that stood DIVERGED and reports a position has been attached again (R413). -/
def resumeAt (s : State) (t pos : Nat) : State :=
  if tenantBit s bMIR 0x40 t = false then s
  else if pos = 2 ^ 64 - 1 then updMir s t (fun x => { x with st := if x.st = 3 then 3 else 0 })
  else
    let again := (getMir s t).st = 3
    updMir s t (fun x => { x with st := 1, sendNext := pos, anchorDue := true, matched := if again then none else x.matched, lagged := if again then false else x.lagged })

/-- POSITION: the 64 positions of the tenants. [log 46 DEDUCED, unsafe] -/
def execPosition (lseq : Nat) (pos : List Nat) (tagOk : Bool) (s : State) : Host.Outcome State Fault Refusal :=
  .next (mirTake s lseq tagOk (fun s =>
    if s.role ≠ .primary then s
    else mirrorPumpAll ((List.range 64).foldl (fun a t => resumeAt a t ((pos[t]?).getD (2 ^ 64 - 1))) s)))

/-- DIVERGE: the shadow marks the tenant and journals it in its stream D. [log 46 DEDUCED, unsafe] -/
def execDiverge (lseq tenant n : Nat) (mine theirs : Digest) (tagOk : Bool) (s : State) : Host.Outcome State Fault Refusal :=
  .next (mirTake s lseq tagOk (fun s =>
    if s.role ≠ .shadow ∨ tenant ≥ 64 ∨ tenantBit s bMIR 0x40 tenant = false then s
    else updMir (eventD s 9 9 0x0B81 ([n] ++ digPar mine ++ digPar theirs) 0) tenant (fun x => { x with st := 3 })))

/-! ### Timers -/

/-- MIRROR_RETRANSMIT_TIMEOUT: no ACK has advanced for 100 µs while frames are unacknowledged. -/
def execMirrorRetransmitTimeout (s : State) : Host.Outcome State Fault Refusal :=
  .next (if s.mir.link = 2 ∧ s.mir.buf ≠ [] ∧ s.since s.mir.ackTick ≥ ticksOfUs 100 ∧ s.since s.mir.retxTick ≥ ticksOfUs 100 then
      resendFrom s 0 else s)

/-- MIRROR_ACK_TIMER: an ACK at least every 10 µs. -/
def execMirrorAckTimer (s : State) : Host.Outcome State Fault Refusal :=
  .next (if s.mir.link = 2 ∧ s.since s.mir.ackSent ≥ ticksOfUs 10 then sendAck s else s)

/-- The digests of a tenant that wait, at most 64 in one frame. -/
def sendDigests (s : State) (t : Nat) : State :=
  let m := getMir s t
  let st := strm s t
  let n := min 64 (st.dur - m.digNext)
  if n = 0 ∨ m.st ≠ 2 ∨ mirMay s mDIGEST (16 + 32 * n) = false then s
  else
    let ds := (List.range n).map (fun i => match grainAt s t (m.digNext + i) with | some g => g.digest | none => 0)
    mirSend (updMir s t (fun x => { x with digNext := m.digNext + n })) mDIGEST t (be 8 m.digNext ++ be 2 n ++ be 6 0 ++ (ds.map digBytes).flatten)

/-- DIGEST_SEND_TIMER: a SHADOW in LIVE sends the digests that wait at least every 20 µs (R409, R417). -/
def execDigestSendTimer (s : State) : Host.Outcome State Fault Refusal :=
  .next (if s.role = .shadow ∧ s.inMode .live = true ∧ s.since s.mir.digSent ≥ ticksOfUs 20 then
      (s.mir.tens.map (·.1)).foldl sendDigests { s with mir.digSent := s.tim.ticks } else s)

/-- MIRROR_LOSS_TIMEOUT: no ACK has advanced for LOSSMS while frames are unacknowledged. -/
def execMirrorLossTimeout (s : State) : Host.Outcome State Fault Refusal :=
  .next (if s.mir.link = 2 ∧ s.mir.buf ≠ [] ∧ s.since s.mir.ackTick ≥ ticksOfMs (fget s bMIR 0x54 0 7) then linkTo s 0 else s)

/-- MIRROR_LAG_TIMEOUT: the age of the tenant's oldest unmatched grain passes LAG_TIME. [log 47 DEDUCED, safe] -/
def execMirrorLagTimeout (tenant : Nat) (s : State) : Host.Outcome State Fault Refusal := .next (lagTest s tenant)

end Sys2Proof.Machine
end

