-- ==== Sys2Proof/Machine/Manage.lean ====
section
/-! DEFINITION. Time and book commands (23.5, 23.6; R143 to R145, R154, R161, R586 to R588). -/
namespace Sys2Proof.Machine

open Sys2Proof

/-! ### Instants (R145, Table 22.2) -/

/-- An instant in TAI ns: TAI as written, or UTC converted with the leap-second table; none where it cannot be. -/
def toTai (s : State) (i : Instant) : Option Nat :=
  if i.ns ≥ 1000000000 then none
  else if i.utc then utcToTai s i.sec i.ns i.sec60
  else if i.sec60 then none
  else if i.sec * 1000000000 + i.ns < 2 ^ 64 then some (i.sec * 1000000000 + i.ns) else none

/-! ### The leap-second table (R144, Table 23.3) -/

/-- A number of n bytes as a signed one. -/
def signedOf (n x : Nat) : Int := if x < 256 ^ n / 2 then x else (x : Int) - (256 ^ n : Nat)

/-- The leap table of a staged object: its validity end and its entries. [log 99 DEDUCED, safe] -/
def parseLeaps (b : List Byte) : Option (Nat × List (Nat × Int)) :=
  let n := field b 8 2
  if b.length ≠ 16 + 16 * n ∨ n = 0 ∨ n > 64 then none
  else some (field b 0 8, (List.range n).map (fun i => (field b (16 + 16 * i) 8, signedOf 2 (field b (24 + 16 * i) 2))))

/-- The instants increase and adjacent offsets differ by one second. [log 99 DEDUCED, safe] -/
def leapsRise : List (Nat × Int) → Bool
  | a :: b :: l => decide (a.1 < b.1 ∧ (b.2 - a.2).natAbs = 1) && leapsRise (b :: l)
  | _ => true

/-- The offset that a table gives at an instant; before its first entry, that entry's. -/
def leapAt (l : List (Nat × Int)) (t : Nat) : Int :=
  (l.filter (fun p => decide (p.1 ≤ t))).foldl (fun _ p => p.2) (match l with | p :: _ => p.2 | [] => 0)

/-- A new table agrees with the loaded one at every instant up to the loaded validity end, and does not end before it. [log 99 DEDUCED, safe] -/
def leapsAgree (s : State) (e : Nat) (l : List (Nat × Int)) : Bool :=
  match s.tim.leapEnd with
  | none => true
  | some old =>
    decide (old ≤ e) && ((0 :: (s.tim.leaps ++ l).map (·.1)).filter (fun t => decide (t ≤ old))).all (fun t => leapAt s.tim.leaps t == leapAt l t)

/-- LOAD LEAPS: a table that R144 refuses is ARGS. [log 99 DEDUCED, safe] -/
def execLoadLeaps (l : ConLine) (s : State) : Host.Outcome State Fault Refusal :=
  .next (runCmd l (spec .engineer [.sealed, .live, .quiet] true) (fun cjn s =>
    consume1 l (fun b =>
      match parseLeaps b with
      | none => err s eARGS []
      | some (e, t) =>
        if leapsRise t = false ∨ leapsAgree s e t = false then err s eARGS []
        else
          let s1 := putLeap { s with tim.leaps := t, tim.leapEnd := some e, sec.leapSaved := some (t, e) }
          ok (eventAll s1 7 3 0x0582 [t.length, e, satSigned 64 s1.tim.leapOff] cjn) [(cjn : Int), (t.length : Int), (e : Int), s1.tim.leapOff]) s) s)

/-! ### Setting and stepping time (R143, R153 to R155) -/

/-- SET TIME: the base takes the instant with u0 = U, and S8 completes; references that had qualified qualify anew, so that the quality is
HOLDOVER. Outside S8 it is refused as in a mode that its row does not list. [log 100 DEDUCED, unsafe] -/
def execSetTime (l : ConLine) (at_ : Instant) (u : Nat) (s : State) : Host.Outcome State Fault Refusal :=
  .next (runCmd l (specOn .regulate [1] [.sealed] false ((toTai s at_).isSome && decide (u < 2 ^ 64))) (fun cjn s =>
    if inS8 s = false then modeRefused s
    else
      let t := (toTai s at_).getD 0
      let s1 := endS8 { s with tim.tai := 80000 * t, tim.rem := 0, tim.u0 := 80000 * u, tim.lastSteer := some s.tim.ticks,
                               tim.refs := s.tim.refs.map (fun r => { r with good := false, valid := 0 }) }
      ok s1 [(cjn : Int), (t : Int), (s1.tim.u : Int), (s1.tim.qual.code : Int)]) s)

/-- What STEP TIME lists in a mode (R154): REGULATE, on CON1, in LIVE and in BREACH; else ENGINEER. [log 100 DEDUCED, unsafe] -/
def stepSpec (s : State) (argsOk : Bool) : CmdSpec :=
  if s.inMode .live || s.tim.qual == .breach then specOn .regulate [1] [.live, .quiet] false argsOk
  else specOn .engineer [0, 1] [.live, .quiet] false argsOk

/-- The time base takes reference r's time on this tick, `off` being that time less the base's in 1/80,000 ns; a breach resolves, the TIME
grains precede what a forward step parts (R153 to R155). [log 100 DEDUCED, unsafe] -/
def stepTo (s : State) (r : Nat) (off : Int) (cjn : Nat) : State :=
  let before := s.now
  let s1 : State := { s with tim.tai := ((s.tim.tai : Int) + off).toNat, tim.rem := 0, tim.u0 := 80000 * aRef s r,
                             tim.lastSteer := some s.tim.ticks, tim.remRef := r, tim.breach := false,
                             tim.refs := s.tim.refs.map (fun k => { k with failed := false }),
                             tim.ppsStepped := fget s bTIM 0x34 9 1 == 1 }
  let s2 := eventAll (putLeap s1) 7 2 0x0581 [before, s1.now, r, s1.tim.ticks] cjn
  recompute ((dueBooks s2 s2.now).foldl (fun a p => partBook a p.1 p.2 a.tim.u true cjn) s2)

/-- STEP TIME REF: in LIVE every book on sale is first suspended with cause BREACH, one tick before the step. [log 100 DEDUCED, unsafe] -/
def execStepTime (l : ConLine) (ref : Nat) (off : Int) (s : State) : Host.Outcome State Fault Refusal :=
  .next (runCmd l (stepSpec s (decide (ref < 4))) (fun cjn s =>
    if (getRef s ref).good = false then err s eSTATE []
    else
      let s1 := if s.inMode .live then advance (setCauseAll s cBREACH s.now cjn) 1 else s
      let s2 := stepTo s1 ref off cjn
      ok s2 [(cjn : Int), (s1.now : Int), (s2.now : Int), (s2.now : Int) - (s1.now : Int), (ref : Int), (s2.now : Int)]) s)

/-- SET TIMEREF. -/
def execSetTimeref (l : ConLine) (ref : Nat) (on : Bool) (s : State) : Host.Outcome State Fault Refusal :=
  .next (runCmd l (specOn .regulate [1] [.sealed, .live, .quiet, .replay] false (decide (ref < 4))) (fun cjn s =>
    let v := setBits (bits (rawGet s bTIM 0x38) 0 4) ref 1 (b2n on)
    ok (refenWrite s v cjn) [(cjn : Int), (v : Int)]) s)

/-! ### Books (Table 23.8) -/

/-- A command of Table 23.8 on a PRIMARY; on a SHADOW or a LAB it is refused with ROLE (R588). [log 103 DEDUCED, safe] -/
def bookLine (l : ConLine) (sp : CmdSpec) (act : Nat → State → ActRes) (s : State) : Host.Outcome State Fault Refusal :=
  .next (runCmd l sp (fun cjn s => if s.role = .shadow ∨ s.role = .lab then err s eROLE [] else act cjn s) s)

/-- Tenant and book exist. -/
def bookArgs (t b : Nat) : Bool := decide (t < 64 ∧ b < 4096)

/-- The firmware's BOOKCMD for a command, with a cause mask in BOOKARG. -/
def viaBook (s : State) (op scope t b mask : Nat) (mirrorOk : Nat → Bool) (cjn : Nat) : State :=
  bookCmd (fset s bPRT 0x24 4 7 mask) (bookWord op scope t b) mirrorOk cjn

/-- The reason in BOOKSTAT. -/
def bookReason (s : State) : Nat := fget s bPRT 0x28 4 4

/-- The console refusal of a reason of Table 6.4. -/
def bookErr (s : State) (r : Nat) : ActRes :=
  if r = 3 then modeRefused s else err s (if r = 1 then eSTATE else if r = 2 then eWINDOW else eQUALITY) []

/-- The reply of a book command that ended with reason r: its values, or the refusal. -/
def bookDone (s : State) (r : Nat) (vals : List Int) : ActRes := if r = 0 then ok s vals else bookErr s r

/-- The book's effective instant of the last change. -/
def bookEff (s : State) : Int := (get64 s bPRT 0x2C : Nat)

/-- SET BOOK moves P_b later, or lowers the margin, of a book on sale (R161). -/
def bookLooser (s : State) (t b : Nat) (pb margin : Option Nat) : Bool :=
  let k := getBook s t b
  onSale k && ((match pb with | some p => decide (p > k.pb) | none => false) || (match margin with | some m => decide (m < k.margin) | none => false))

/-- What SET BOOK lists for its arguments. [log 103 DEDUCED, safe] -/
def setBookSpec (s : State) (t b : Nat) (at_ : Option Instant) (margin : Option Nat) : CmdSpec :=
  let pb := match at_ with | some i => toTai s i | none => none
  let good := bookArgs t b && (at_.isSome || margin.isSome) && (at_.isNone || pb.isSome) && decide (margin.getD 0 < 2 ^ 32)
  if bookLooser s t b pb margin then specOn .regulate [1] [.live, .quiet] false good else specOn .operate [0, 1] [.live, .quiet] false good

/-- SET BOOK: one entry write (R161, R162). -/
def execSetBook (l : ConLine) (t b : Nat) (at_ : Option Instant) (margin : Option Nat) (s : State) : Host.Outcome State Fault Refusal :=
  bookLine l (setBookSpec s t b at_ margin) (fun cjn s =>
    let k := getBook s t b
    let pb := match at_ with | some i => (toTai s i).getD k.pb | none => k.pb
    let m := margin.getD k.margin
    let r := entryReason s k pb m
    let s1 := entryWrite s t b pb m cjn
    bookDone s1 r [(cjn : Int), (bookEff s1), ((getBook s1 t b).st.maj : Nat), (pb : Int), (m : Int)]) s

/-- The reply of a command that changed one book's sales state to the state of code k. -/
def bookMoved (s : State) (cjn k : Nat) : ActRes := bookDone s (bookReason s) [(cjn : Int), bookEff s, (k : Int)]

/-- OPEN BOOK as an action. -/
def openBookAct (t b cjn : Nat) (s : State) : ActRes := bookMoved (viaBook s 1 0 t b 0 (fun _ => true) cjn) cjn 1

/-- OPEN BOOK (R58). -/
def execOpenBook (l : ConLine) (t b : Nat) (s : State) : Host.Outcome State Fault Refusal :=
  bookLine l (spec .operate [.live, .quiet] (bookArgs t b)) (openBookAct t b) s

/-- SUSPEND BOOK as an action: cause OPERATOR. -/
def suspendBookAct (t b cjn : Nat) (s : State) : ActRes := bookMoved (viaBook s 2 0 t b cOPERATOR (fun _ => true) cjn) cjn 4

/-- SUSPEND BOOK. -/
def execSuspendBook (l : ConLine) (t b : Nat) (s : State) : Host.Outcome State Fault Refusal :=
  bookLine l (spec .operate [.live, .quiet] (bookArgs t b)) (suspendBookAct t b) s

/-- SUSPEND TENANT: cause OPERATOR in every book of the tenant that is on sale (R60). -/
def execSuspendTenant (l : ConLine) (t : Nat) (s : State) : Host.Outcome State Fault Refusal :=
  bookLine l (spec .operate [.live, .quiet] (decide (t < 64))) (fun cjn s =>
    let n := ((scopeBooks s 1 t 0).filter (fun p => onSale (getBook s p.1 p.2))).length
    let s1 := viaBook s 2 1 t 0 cOPERATOR (fun _ => true) cjn
    ok s1 [(cjn : Int), bookEff s1, (n : Int)]) s

/-! ### RESUME (R586) -/

/-- The authority that clears a cause (Table 2.6). -/
def causeAuth (bit_ : Nat) : Auth := if bit_ ≤ 1 then .operate else if bit_ ≤ 3 then .regulate else .engineer

/-- The authority that a RESUME needs: that of each cause it names, and OPERATE. -/
def resumeAuth (causes : List Nat) : Auth :=
  if causes.any (fun c => causeAuth c == .regulate) then .regulate
  else if causes.any (fun c => causeAuth c == .engineer) then .engineer else .operate

/-- The causes that a RESUME names: without CAUSE, all that the console's authority may clear. [log 104 DEDUCED, unsafe] -/
def resumeMask (s : State) (con : Nat) (causes : List Nat) : Nat :=
  let cs := if causes.isEmpty then (List.range 7).filter (fun c => decide ((causeAuth c).code ≤ (getCon s con).auth.code)) else causes
  cs.foldl (fun a c => a ||| 2 ^ c) 0

/-- R416: a tenant's cause MIRROR may be cleared. -/
def mirrorClear (s : State) (t : Nat) : Bool :=
  if (getMir s t).st = 3 then !(tenantBit s bMIR 0x48 t)
  else !(s.role == .primary && tenantBit s bMIR 0x40 t && lagBeyond s t)

/-- The counts in the reply of a RESUME over the books bs, before it acts: made ACTIVE, still SUSPENDED, and those that a
window or the quality keeps, together and apart. [log 104 DEDUCED, unsafe] -/
def resumeCounts (s : State) (mask : Nat) (bs : List (Nat × Nat)) : List Int :=
  let n (k : Nat) : Nat := countOutcome s mask bs (mirrorClear s) s.now k
  let stay := (bs.filter (fun p => (getBook s p.1 p.2).sales == .suspended)).length
  [(n 2 : Int), ((stay - n 2 - n 3 - n 4 : Nat) : Int), ((n 3 + n 4 : Nat) : Int), (n 3 : Int), (n 4 : Int)]

/-- The reply of a RESUME: reason 2, a book that stays inside its window, shows in the counts and refuses nothing. [log 104 DEDUCED, unsafe] -/
def resumed (s : State) (cjn : Nat) (counts : List Int) : ActRes :=
  bookDone s (if bookReason s = 2 then 0 else bookReason s) ([(cjn : Int), bookEff s] ++ counts)

/-- RESUME of a scope as an action. -/
def resumeAct (con scope t b : Nat) (causes : List Nat) (cjn : Nat) (s : State) : ActRes :=
  resumed (viaBook s 3 scope t b (resumeMask s con causes) (mirrorClear s) cjn) cjn
    (resumeCounts s (resumeMask s con causes) (scopeBooks s scope t b))

/-- RESUME of a scope. -/
def resume (l : ConLine) (scope t b : Nat) (causes : List Nat) (s : State) : Host.Outcome State Fault Refusal :=
  bookLine l (spec (resumeAuth causes) [.live, .quiet] (bookArgs t b && causes.all (fun c => decide (c < 7)) && decide causes.Nodup))
    (resumeAct l.con scope t b causes) s

/-- RESUME BOOK. -/
def execResumeBook (l : ConLine) (t b : Nat) (causes : List Nat) (s : State) : Host.Outcome State Fault Refusal := resume l 0 t b causes s

/-- RESUME TENANT. -/
def execResumeTenant (l : ConLine) (t : Nat) (causes : List Nat) (s : State) : Host.Outcome State Fault Refusal := resume l 1 t 0 causes s

/-- RESUME DEVICE. -/
def execResumeDevice (l : ConLine) (causes : List Nat) (s : State) : Host.Outcome State Fault Refusal := resume l 2 0 0 causes s

/-! ### Settlement (R587) -/

/-- SETTLE BOOK: one SETTLE grain whose body is the staged declaration. [log 101 DEDUCED, safe] -/
def execSettleBook (l : ConLine) (t b : Nat) (s : State) : Host.Outcome State Fault Refusal :=
  bookLine l (spec .operate [.live, .quiet] (bookArgs t b)) (fun cjn s =>
    consume1 l (fun body =>
      if body.length > 4096 then err s eARGS []
      else if (getBook s t b).sales ≠ .closed ∨ streamTakes s t = false then err s eSTATE []
      else
        let s1 := numberAll s t
        let n := (strm s1 t).next
        let s2 := numberHead (eventT s1 t 5 0 body s1.now s1.tim.u b cjn) t
        ok (putBook s2 t b { getBook s2 t b with settled := true }) [(cjn : Int), (s1.now : Int), (n : Int), (body.length : Int)]) s) s

/-- RELEASE BOOK: CLOSED to DORMANT, once a SETTLE grain exists. -/
def execReleaseBook (l : ConLine) (t b : Nat) (s : State) : Host.Outcome State Fault Refusal :=
  bookLine l (spec .operate [.live, .quiet] (bookArgs t b)) (fun cjn s =>
    let k := getBook s t b
    if k.sales ≠ .closed then err s eSTATE []
    else if k.settled = false then err s eNOSETTLE []
    else
      let s1 := viaBook s 4 0 t b 0 (fun _ => true) cjn
      ok s1 [(cjn : Int), bookEff s1, 0]) s

end Sys2Proof.Machine
end

