-- ==== Sys2Proof/Machine/JournalCmds.lean ====
section
/-! DEFINITION. Journal, mirror and replay commands, tamper and witness commands, and what completes the flash work that a command waits for
(23.7, 23.8; R125, R413, R439, R440, R512, R517, R534, R536, R589). -/
namespace Sys2Proof.Machine

open Sys2Proof

/-! ### RETIRE (R439, R589) -/

/-- The Heartwood segments that a RETIRE names, oldest first: the closed ones from the oldest not retired whose last grain is at or below a
number. [log 105 DEDUCED, unsafe] -/
def retirePrefix (s : State) (t th : Nat) : List Segment :=
  (((strm s t).segs.filter (fun g => !g.retired)).reverse).takeWhile (fun g => g.closed && decide (g.next ≤ th + 1))

/-- A segment meets the test of R439: sealed longer ago than RETAIN days, and its Sapwood copy freed. [log 105 DEDUCED, unsafe] -/
def retireOk (s : State) (t : Nat) (g : Segment) : Bool :=
  match g.sealTai with
  | none => false
  | some x => g.freed && decide (x + fget s bJRN (0x100 + 4 * t) 0 16 * 86400000000000 < s.now)

/-- A dictionary grain of the prefix serves a kept segment, or the segments to come. -/
def dictKept (s : State) (t : Nat) (pre : List Segment) : Bool :=
  let hit (d : Option Nat) : Bool := match d with | some n => pre.any (fun g => decide (g.first ≤ n ∧ n < g.next)) | none => false
  hit (strm s t).dict || ((strm s t).segs.filter (fun g => !g.retired && !pre.contains g)).any (fun g => hit g.dict)

/-- The RETIRE grain in a tenant stream, where it takes one, and its number. [log 105 DEDUCED, unsafe] -/
def retireTenant (s : State) (t : Nat) (par : List Nat) (cjn : Nat) : State × Option Nat :=
  if t = sD ∨ streamTakes s t = false then (s, none)
  else
    let s1 := numberAll s t
    (numberHead (eventT s1 t 9 0xA (evBody 0x0A86 par) s1.now s1.tim.u 0 cjn) t, some (strm s1 t).next)

/-- RETIRE of an accepted prefix: its grains, numbered at once; exports that hold a segment of it close (R531). [log 105 DEDUCED, unsafe] -/
def retireNow (s : State) (t cjn : Nat) (pre : List Segment) (a z : Segment) : ActRes :=
  let par := [a.first, z.next - 1, pre.length] ++ digPar z.lastDig ++ dig384Par z.sealDig
  let r := retireTenant s t par cjn
  let s1 := numberAll (eventD r.1 9 0xA 0x0A86 par cjn) sD
  let dseq := (strm s1 sD).next - 1
  let st := strm s1 t
  let s2 := setStrm s1 t { st with segs := st.segs.map (fun g => if pre.any (fun x => x.no == g.no) then { g with retired := true } else g) }
  let hit (e : Export) : Bool := e.tenant == t && !e.rj && e.segs.any (fun n => pre.any (fun x => x.no == n))
  let s3 : State := { s2 with rpl.exports := s2.rpl.exports.filter (fun e => !hit e),
                              rpl.closedReq := s2.rpl.closedReq ++ (s2.rpl.exports.filter hit).map (·.reqid) }
  ⟨bumpWrap s3 bJRN 0x58 0 32 pre.length,
    reply 0 [(cjn : Int), (a.first : Int), (z.next : Int) - 1, (pre.length : Int), ((r.2.getD dseq : Nat) : Int)] [],
    .erase t ((pre.map (fun g => g.next - g.first)).sum) r.2 (some dseq) s.tim.ticks⟩

/-- RETIRE t THROUGH seq; t = 64 names stream D. -/
def execRetire (l : ConLine) (t seq : Nat) (s : State) : Host.Outcome State Fault Refusal :=
  .next (runCmd l (specOn .regulate [1] [.live, .quiet] false (decide (t ≤ 64 ∧ seq < 2 ^ 64))) (fun cjn s =>
    let pre := retirePrefix s t seq
    match pre.head?, pre.getLast? with
    | some a, some z =>
      if !(pre.all (retireOk s t)) || dictKept s t pre then err s eRETAIN [] else retireNow s t cjn pre a z
    | _, _ => err s eNONE_ELIGIBLE []) s)

/-! ### What completes on flash (R440, R585) -/

/-- The retired grains leave: the oldest `n` of a stream, its records of commands, and the counts of its retired rows. -/
def dropRetired (s : State) (t n : Nat) : State :=
  let st := strm s t
  let keep := st.grains.length + st.past.length - n
  let gone := (st.grains.drop keep) ++ (st.past.drop (keep - st.grains.length))
  let row := (st.segs.filter (·.retired)).foldl (fun a g => max a (g.lastRow + 1)) 0
  let s1 := setStrm s t { st with grains := st.grains.take keep, past := st.past.take (keep - st.grains.length),
                                  counts := st.counts.filter (fun c => decide (row ≤ c.row)) }
  if t = sD then
    let cs := (gone.filter (fun g => g.hdr.typ == 10)).map (·.hdr.cjn)
    { s1 with con.records := s1.con.records.filter (fun c => !cs.contains c.cjn) }
  else s1

/-- Closed Heartwood superblocks of a stream whose segments are all retired. -/
def retiredSupers (s : State) (t : Nat) : List Super :=
  s.fla.supers.filter (fun x => x.stream == t && x.tlc && !x.isOpen && x.segs.all (fun n => (strm s t).segs.all (fun g => g.no != n || g.retired)))

/-- Their blocks are erased, a refresh of one of them is abandoned, and the index loses the entries that named them. `bad` are the
blocks whose erase fails. -/
def eraseRetired (s : State) (t : Nat) (bad : List Nat) : State × Nat :=
  let xs := retiredSupers s t
  let bs := xs.flatMap (fun x => x.blocks ++ x.extra)
  let s1 := xs.foldl (fun a x => eraseSuper a x bad) s
  ({ s1 with fla.index := s1.fla.index.filter (fun r => !bs.contains (r.die * 8192 + r.dst)) }, bs.length)

/-- A grain that an erase waits for is durable, or none is due. [log 105 DEDUCED, unsafe] -/
def retireDurable (s : State) (t : Nat) (n : Option Nat) : Bool := match n with | some n => isDurable s t n | none => true

/-- The waiting command is ready: the RETIRE grains are durable; the slot's programs need nothing else. -/
def flashReady (s : State) (c : Cmd) : Bool :=
  match c.phase with
  | .erase t _ a b _ => retireDurable s t a && retireDurable s sD b
  | .image _ _ => true
  | _ => false

/-- A reply of a command that was served without a CJN leaves at once (R579). -/
def finishCmd (s : State) (c : Cmd) (r : ConReply) : State :=
  if c.cjn = 0 then sendReply { s with con.cmds := s.con.cmds.filter (fun k => !(k.cjn == 0 && k.con == c.con)) } c.con 0 r
  else formReply s c.cjn r

/-- FLASH_OPERATION_COMPLETE: the erases of a RETIRE, or the programs of a LOAD IMAGE, are complete, and its reply is formed. [log 98 DEDUCED, unsafe] -/
def execFlashOperationComplete (bad : List Nat) (s : State) : Host.Outcome State Fault Refusal :=
  match s.con.cmds.find? (flashReady s) with
  | none => .next s
  | some c =>
    match c.phase with
    | .erase t n _ _ since =>
      let r := eraseRetired (dropRetired s t n) t bad
      .next (finishCmd r.1 c { c.reply with vals := c.reply.vals ++ [(r.2 : Int), ((s.since since / 800000 : Nat) : Int)] })
    | .image i im => .next (finishCmd { s with sec.slots := upd s.sec.slots i (fun _ => some im) } c c.reply)
    | _ => .next s

/-! ### The mirror and replay -/

/-- A new epoch of tenant t's stream: its open segment closes, and the grains so far belong to the epoch before (R413). [log 106 DEDUCED, unsafe] -/
def newEpoch (s : State) (t : Nat) : State :=
  let s1 := closeStream s t
  let st := strm s1 t
  let s2 := setStrm s1 t { st with next := 0, reqs := [], numbered := [], chained := 0, dur := 0, past := st.grains ++ st.past, grains := [],
                                   dict := none, epoch := st.epoch + 1 }
  let mine (b : Option Bind) : Bool := match b with | some x => x.tenant == t | none => false
  { s2 with awp.inputs := s2.awp.inputs.filter (fun i => i.tenant != t), awp.runq := ins s2.awp.runq t [],
            cpu.cores := s2.cpu.cores.map (fun p => (p.1, if mine p.2.bind then { p.2 with bind := none, present := none, granted := none } else p.2)) }

/-- MIRROR REATTACH t, on a SHADOW: the tenant's books follow the record from its beginning, and position 0 is reported. [log 106 DEDUCED, unsafe] -/
def execMirrorReattach (l : ConLine) (t : Nat) (s : State) : Host.Outcome State Fault Refusal :=
  .next (runCmd l (specOn .regulate [1] [.live, .quiet] false (decide (t < 64))) (fun cjn s =>
    if s.role ≠ .shadow then err s eROLE []
    else if (getMir s t).st ≠ 3 then err s eSTATE []
    else
      let s1 := updMir (dormantAll (newEpoch s t) t) t (fun x => { x with st := 1, digNext := 0 })
      let e := (strm s1 t).epoch
      let s2 := eventD s1 9 9 0x0B83 [t, e] cjn
      let s3 := if mirMay s2 mPOSITION 512 then mirSend s2 mPOSITION 0 (positionBody s2) else s2
      ok s3 [(cjn : Int), (e : Int)]) s)

/-- REPLAY START: the firmware writes RPL and RUN (R535 to R537). -/
def execReplayStart (l : ConLine) (t fr th : Nat) (cross : Bool) (s : State) : Host.Outcome State Fault Refusal :=
  .next (runCmd l (spec .engineer [.replay] (decide (t < 64 ∧ fr < 2 ^ 64 ∧ th < 2 ^ 64))) (fun cjn s =>
    let s0 := fset (fset s bRPL 0x10 0 6 t) bRPL 0x10 8 1 (b2n cross)
    let s1 := replayStart (set64 (set64 s0 bRPL 0x18 fr) bRPL 0x20 th)
    if s.rpl.run.isNone && s1.rpl.run.isSome then
      ok s1 [(cjn : Int), 1, (((runSet s1 t).grains.filter (fun g => decide (g.seq < fr))).length : Int)]
    else err s1 eREPLAY_REFUSED [((rawGet s1 bRPL 0x2C / 256 : Nat) : Int)]) s)

/-- REPLAY CLEAR t, both the set and the journal or one of them. [log 85 DEDUCED, unsafe; log 107 DEDUCED, unsafe] -/
def execReplayClear (l : ConLine) (t : Nat) (set journal : Bool) (s : State) : Host.Outcome State Fault Refusal :=
  .next (runCmd l (spec .engineer [.quiet, .replay] (decide (t < 64) && (set || journal))) (fun cjn s =>
    if (match s.rpl.run with | some r => r.tenant == t | none => false) then err s eBUSY []
    else
      let n := (if set then (match lk s.rpl.sets t with | some x => x.segs | none => 0) else 0) + (if journal then (rjSegs s t).length else 0)
      let s1 : State := if set then { s with rpl.sets := del s.rpl.sets t, rpl.stats := del s.rpl.stats t } else s
      let s2 : State := if journal then { s1 with rpl.journals := del s1.rpl.journals t } else s1
      ok s2 [(cjn : Int), (n : Int)]) s)

/-! ### Tamper and witness commands -/

/-- The conditions of cleared latches that are still present (R125): a loop out of NORMAL, a tag that reports an edge's state or is LOST,
the junction temperature. [log 107 DEDUCED, unsafe] -/
def stillPresent (s : State) (mask : Nat) : List Raise :=
  ((List.range 8).filter (fun n => bit mask n && loopOn s n && (getLoop s n).cls != 0)).map (fun n => raiseNow srcLOOP (getLoop s n).cls n 0)
    ++ (if bit mask 8 then (s.wit.tags.filter (fun p => p.2.st == 2)).flatMap (fun p =>
          ((List.range 4).filter (bit p.2.status)).map (fun i => raiseNow srcWITNESS (i + 1) p.1 (p.2.edgeSeq.getD 0))) else [])
    ++ (if bit mask 9 then (s.wit.tags.filter (fun p => p.2.st == 3)).map (fun p => raiseNow srcWITNESS 6 p.1 0) else [])
    ++ (if bit mask 11 && s.hlt.tempTamper then [raiseNow srcDIE 2 0 0] else [])

/-- CLEAR TAMPER: the latches of a mask of TSTAT bits 0 to 13. [log 107 DEDUCED, unsafe] -/
def execClearTamper (l : ConLine) (mask : Nat) (s : State) : Host.Outcome State Fault Refusal :=
  .next (runCmd l (specOn .regulate [1] [.sealed, .live, .quiet, .replay, .hold] false (decide (0 < mask ∧ mask < 2 ^ 14))) (fun cjn s =>
    let gone := s.sec.tstat &&& mask
    let s1 : State := { s with sec.tstat := s.sec.tstat &&& (0x3FFF ^^^ mask) }
    let s2 := tamper s1 (stillPresent s1 gone)
    ok s2 [(cjn : Int), (tstatWord s2 : Int)]) s)

/-- A kind of Table 20.6: DOOR, SEAL or CABLE, and whether the tag relays. -/
def kindOk (k : Nat) : Bool := decide (k < 256 ∧ 1 ≤ k % 128 ∧ k % 128 ≤ 3)

/-- The lowest address without a tag. -/
def freeTag (s : State) : Option Nat := (List.range 128).find? (fun a => (getTag s a).st == 0)

/-- WITNESS PAIR KIND (R512, R580): the envelope's binding is the EUI-64 and four zero bytes, its key TK and 16 zero bytes. -/
def execWitnessPair (l : ConLine) (kind : Nat) (key : Option (BitVec 256)) (s : State) : Host.Outcome State Fault Refusal :=
  .next (runCmd l (spec .engineer [.sealed, .live, .quiet] (kindOk kind)) (fun cjn s =>
    consume1 l (fun b =>
      let e := parseEnvelope b key
      let eui := BitVec.ofNat 64 (field b 6 8)
      if b.length ≠ 354 then err s eARGS []
      else match envelopeFault s e 3 (· == 0x41) with
        | some x => envelopeErr s x
        | none =>
          if e.dsalt ≠ 0 ∨ e.key.toNat % 2 ^ 128 ≠ 0 then err s eENVELOPE []
          else if s.wit.tags.any (fun p => p.2.st != 0 && p.2.eui == eui) then err s ePAIRED []
          else match freeTag s with
            | none => err s eFULL []
            | some a =>
              let t : Tag := { tagEmpty with eui := eui, kind := kind, st := 1, key := BitVec.ofNat 128 (e.key.toNat / 2 ^ 128) }
              ok (eventD { s with wit.tags := ins s.wit.tags a t } 9 0xC 0x0683 [eui.toNat, 1, a] cjn)
                [(cjn : Int), (a : Int), (eui.toNat : Int)]) s) s)

/-- WITNESS UNPAIR a: CMD LEAVE waits for a contention slot, the supervision stops, the address is free (R512). -/
def execWitnessUnpair (l : ConLine) (a : Nat) (s : State) : Host.Outcome State Fault Refusal :=
  .next (runCmd l (spec .engineer [.sealed, .live, .quiet] (decide (a < 128))) (fun cjn s =>
    let t := getTag s a
    if t.st = 0 then err s eSTATE []
    else
      let s1 : State := { s with wit.tags := del s.wit.tags a, wit.txq := if s.wit.run then s.wit.txq ++ [(wfCMD, a)] else s.wit.txq,
                                 wit.ack := s.wit.ack.filter (· ≠ a) }
      ok (eventD s1 9 0xC 0x0683 [t.eui.toNat, 0, a] cjn) [(cjn : Int), (a : Int)]) s)

/-- WITNESS LOOP CAL: the next 100 pulses of the loop (R517). -/
def execWitnessLoopCal (l : ConLine) (n : Nat) (s : State) : Host.Outcome State Fault Refusal :=
  .next (runCmd l (spec .engineer [.sealed, .quiet] (decide (n < 8))) (fun cjn s =>
    ⟨{ s with wit.loops := ins s.wit.loops n { getLoop s n with samples := [] } }, reply 0 [(cjn : Int)] [], .loopcal n⟩) s)

end Sys2Proof.Machine
end

