-- ==== Sys2Proof/Machine/Records.lean ====
section
/-! DEFINITION. COUNTS record items, the course of a replay run from grain to grain, and telemetry (R397, R433, R524, R538 to R544,
R605, R606). -/
namespace Sys2Proof.Machine

open Sys2Proof

/-! ### COUNTS items (R524) -/

/-- Bytes of a COUNTS item of n sessions: item header, record header, body, tag (R521). -/
def countsBytes (n : Nat) : Nat := 8 + 16 + 16 + 44 * n + 16

/-- A COUNTS item finds its place in the stream. [log 49 DEDUCED, unsafe] -/
def putCounts (s : State) (t num : Nat) (es : List (Nat × List Nat)) : State :=
  let st := strm s t
  let p := place s.jrn t st (countsBytes es.length) 0 s.tim.ticks s.now (tenantBit s bJRN 0x10 t)
  let s1 := setStrm { s with jrn.rows := p.rows, jrn.order := p.order } t
    { st with segs := p.segs, rowIdx := p.rowIdx, counts := ⟨num, p.row, es⟩ :: st.counts }
  noteOcc (drainOver (bumpWrap s1 bJRN 0x48 0 32 p.padded))

/-- The parts of a second: 92 sessions each, in ascending order. -/
def putParts : Nat → State → Nat → Nat → Nat → List (Nat × List Nat) → State
  | 0, s, _, _, _, _ => s
  | k + 1, s, t, sec, part, es =>
    if es.isEmpty then s else putParts k (putCounts s t (sec * 65536 + part) (es.take 92)) t sec (part + 1) (es.drop 92)

/-- The sessions of a tenant with a count in a second, and their ten counts. [log 85 DEDUCED, unsafe] -/
def secondCounts (s : State) (t sec : Nat) : List (Nat × List Nat) :=
  let ks := (s.awp.counts.filter (fun p => p.1 / 16 / 2 ^ 32 == sec * 64 + t)).map (fun p => p.1 / 16 % 2 ^ 32)
  ks.eraseDups.map (fun x => (x, (List.range 10).map (fun c => lkD s.awp.counts (((sec * 64 + t) * 2 ^ 32 + x) * 16 + c) 0)))

/-- COUNTS_WRITE: the counts of every TAI second that has ended are written to their tenants' streams. [log 49 DEDUCED, unsafe] -/
def execCountsWrite (s : State) : Host.Outcome State Fault Refusal :=
  let ended := (s.awp.counts.map (fun p => p.1 / 16 / 2 ^ 32)).eraseDups.filter (fun k => decide (k / 64 < nowSec s))
  let s1 := ended.foldl (fun a k =>
    if tenantActive a (k % 64) && !a.jrn.closed && !(a.inMode .replay) then
      let es := secondCounts a (k % 64) (k / 64)
      putParts es.length a (k % 64) (k / 64) 0 es
    else a) s
  .next { s1 with awp.counts := s1.awp.counts.filter (fun p => decide (nowSec s ≤ p.1 / 16 / 2 ^ 32 / 64)) }

/-! ### The run (R538 to R541) -/

/-- A MEAS item at the run's position differs from the device's own measurements. -/
def measDiffers (s : State) (r : Run) : Bool :=
  decide (r.pos > r.from_) && (runSet s r.tenant).meas.any (fun m => m.1 == r.pos && (m.2.1 != s.sec.bm || m.2.2 != tmOf s r.tenant))

/-- The MEAS finding of a run, once (R541): without CROSS the run stops. [log 85 DEDUCED, unsafe] -/
def measCheck (s : State) : State :=
  match s.rpl.run with
  | none => s
  | some r =>
    if measDiffers s r && !r.measFound then
      let s1 := divergence s ⟨6, r.pos, 0xFFFF, 0, none⟩
      { s1 with rpl.run := s1.rpl.run.map (fun x => { x with measFound := true }) }
    else s

/-- The recorded input of a grain as the sequencer holds it: not yet evaluated, with its log and its recorded UNPAIRED flag. -/
def runInput (g : ImpGrain) (i : Input) : Input :=
  { i with seq := g.seq, avoid := [], abandons := 0, pairFaults := 0, rerun := false, reran := false, bound := false, single := false,
           recorded := some (bit g.hdr.flags 1) }

/-- The run takes its next grain. -/
def runGrain (s : State) : State :=
  match s.rpl.run with
  | none => s
  | some r =>
    match recGrain s r.tenant r.pos with
    | none => advanceRun s
    | some g =>
      match g.input with
      | some i =>
        if g.hdr.typ = 1 ∨ g.hdr.typ = 2 then { s with rpl.run := some { r with cur := some (runInput g i) } }
        else writeRecorded (applySales s r.tenant g.hdr g.body)
      | none => writeRecorded (applySales s r.tenant g.hdr g.body)

/-- REPLAY_GRAIN: while the run evaluates no grain, it takes the next. -/
def execReplayGrain (s : State) : Host.Outcome State Fault Refusal :=
  match s.rpl.run with
  | none => .next s
  | some r => .next (if r.cur.isSome || !(s.inMode .replay) then s else runGrain (measCheck s))

/-! ### Telemetry (R433, R605, R606) -/

/-- TELEMETRY_SAMPLE: one sample of channels 0 to 33, in thousandths of each channel's quantum. [log 81 DEDUCED, unsafe] -/
def execTelemetrySample (vals : List Int) (s : State) : Host.Outcome State Fault Refusal :=
  .next (if s.pwr.held then s else { s with hlt.samples := s.hlt.samples ++ [vals] })

/-- A sum of samples over their number in whole quanta, to the nearest, ties away from zero. -/
def roundMean (sum : Int) (n : Nat) : Int :=
  let d := 1000 * n
  let q : Int := ((2 * sum.natAbs + d) / (2 * d) : Nat)
  if sum < 0 then -q else q

/-- The key of a slot of the TM space (R606). -/
def tmKey (tier ch start : Nat) : Nat := (tier * 256 + ch) * 131072 + start / tierPeriod tier % tierSlots tier

/-- The sorted insertion of a number. -/
def insNat (x : Nat) : List Nat → List Nat
  | [] => [x]
  | y :: l => if x ≤ y then x :: y :: l else y :: insNat x l

/-- The p-th percentile of latencies by nearest rank, as its bucket; none of none. [log 81 DEDUCED, unsafe] -/
def percentile (l : List Nat) (p : Nat) : Option Int :=
  let a := l.foldl (fun r x => insNat x r) []
  if a.isEmpty then none else some (Config.log2x16 ((a[(p * a.length + 99) / 100 - 1]?).getD 0) : Int)

/-- The value of a channel for the second that ends; none where it is EMPTY. [log 81 DEDUCED, unsafe] -/
def secondValue (s : State) (ch : Nat) : Option Int :=
  let lat := s.hlt.latencies.map (·.2)
  if ch < 34 then
    let l := s.hlt.samples.filterMap (fun v => v[ch]?)
    if l.isEmpty then none else some (roundMean l.sum l.length)
  else if ch = 34 then some (lat.length : Int)
  else if ch = 35 then percentile lat 50
  else if ch = 36 then percentile lat 99
  else if ch = 37 then percentile lat 100
  else percentile ((s.hlt.latencies.filter (fun p => p.1 == ch - 38)).map (·.2)) 99

/-- A per-second value is kept, and shown in TNOW. -/
def putSecond (s : State) (sec ch : Nat) : State :=
  match secondValue s ch with
  | none => { s with hlt.tiers := ins s.hlt.tiers (tmKey 0 ch sec) ⟨0, 0, 0, 0, sec, true⟩ }
  | some v => rawSet { s with hlt.tiers := ins s.hlt.tiers (tmKey 0 ch sec) ⟨v, v, v, 1, sec, false⟩ } bHLT (0x100 + 4 * ch) (satSigned 32 v)

/-- A slot of a tier has been formed for the period that began at a second. -/
def formed (s : State) (tier start : Nat) : Bool :=
  match lk s.hlt.tiers (tmKey tier 34 start) with | some x => x.start == start | none => false

/-- TELEMETRY_SECOND: the values of the second that has ended, once after S5, and the copy of the health event log (R607). [log 81 DEDUCED, unsafe] -/
def execTelemetrySecond (s : State) : Host.Outcome State Fault Refusal :=
  let sec := nowSec s - 1
  if s.sec.s5done = false ∨ nowSec s = 0 ∨ formed s 0 sec = true then .next s
  else
    let s1 := (List.range 102).foldl (fun a ch => putSecond a sec ch) s
    .next { s1 with hlt.samples := [], hlt.latencies := [], hlt.elogSaved := s1.hlt.elog, hlt.lostSaved := (s1.hlt.lost, s1.hlt.lostSaid) }

/-- The summary of a channel over the slots of the tier below that are not EMPTY. -/
def summary (s : State) (tier ch start : Nat) : TmSlot :=
  let p := tierPeriod (tier - 1)
  let l := (List.range (tierPeriod tier / p)).filterMap (fun i =>
    (lk s.hlt.tiers (tmKey (tier - 1) ch (start + i * p))).filter (fun x => x.start == start + i * p && !x.empty))
  match l with
  | [] => ⟨0, 0, 0, 0, start, true⟩
  | x :: _ => ⟨l.foldl (fun a y => min a y.min) x.min, l.foldl (fun a y => max a y.max) x.max, (l.map (·.sum)).sum, (l.map (·.count)).sum, start, false⟩

/-- The summaries of the period of a tier that has ended, once. -/
def summarize (s : State) (tier : Nat) : State :=
  let p := tierPeriod tier
  let start := (nowSec s / p - 1) * p
  if nowSec s < p || formed s tier start then s
  else (List.range 102).foldl (fun a ch => { a with hlt.tiers := ins a.hlt.tiers (tmKey tier ch start) (summary a tier ch start) }) s

/-- TELEMETRY_SUMMARY: at each minute and hour. -/
def execTelemetrySummary (s : State) : Host.Outcome State Fault Refusal :=
  .next (if s.sec.s5done then summarize (summarize s 1) 2 else s)

end Sys2Proof.Machine
end

