-- ==== Sys2Proof/Machine/Shows.lean ====
section
/-! DEFINITION. The SHOW commands (R590, Table 23.11) and the alarm outputs (R616). A SHOW changes no state but its own
console's: it takes a CJN and a reply, which carries no CJN field (R575). Values stand in the order of the command's row in
Tables 23.7 to 23.11; −1 stands for a field printed as "-". -/
namespace Sys2Proof.Machine

open Sys2Proof

/-- A natural number as a field of a reply, `-` where there is none. -/
def fieldOf (o : Option Nat) : Int := match o with | some n => (n : Int) | none => -1

/-- A register as SHOW prints it. -/
def regField (s : State) (b off : Nat) : Int := (regValue s reqMgmt b off : Int)

/-- A signed 32-bit register as SHOW prints it. -/
def regSigned (s : State) (b off : Nat) : Int := (BitVec.ofNat 32 (regValue s reqMgmt b off)).toInt

/-- A SHOW command: OBSERVE, both consoles, every mode after S5. -/
def runShow (l : ConLine) (argsOk : Bool) (f : State → ActRes) (s : State) : State :=
  runCmd l (spec .observe allModes argsOk) (fun _ s => f s) s

/-- SHOW TIME: quality, SLEW, steering reference, u, Δ, the offset of each reference, PPS_OUT's error (Table 23.7). [log 92 DEDUCED, safe] -/
def execShowTime (l : ConLine) (s : State) : Host.Outcome State Fault Refusal :=
  .next (runShow l true (fun s =>
    let q := regValue s reqMgmt bTIM 0x1C
    let offs := (List.range 4).map (fun r => if ((s.tim.refs[r]?).getD refReset).good then regSigned s bTIM (0x40 + 4 * r) else -1)
    ok s ([(bits q 0 3 : Int), (bits q 4 1 : Int), if bit q 14 then (bits q 12 2 : Int) else -1, regField s bTIM 0x18, regField s bTIM 0x54]
      ++ (List.range 4).map (fun r => (b2n ((s.tim.refs[r]?).getD refReset).good : Int)) ++ offs ++ [regSigned s bTIM 0x50])) s)

/-- SHOW JOURNAL t, t = 64 for D (Table 23.9): commit mode, CWIN, OCC, dictionary, last durable and last sealed number, the segment
in force and its row, Sapwood hours. -/
def execShowJournal (l : ConLine) (t : Nat) (s : State) : Host.Outcome State Fault Refusal :=
  .next (runShow l (decide (t ≤ 64)) (fun s =>
    let x := strm s t
    let sealed := (x.segs.filter (·.sealTai.isSome)).map (·.next - 1)
    let seg := x.segs.getLast?
    ok s [(b2n (decide (t < 64) && tenantBit s bJRN 0x10 t) : Int), regField s bJRN 0x20, regField s bJRN 0x24, fieldOf x.dict,
          (x.dur : Int) - 1, fieldOf sealed.getLast?, fieldOf (seg.map (·.no)), fieldOf (seg.map (fun g => x.rowIdx - g.firstRow)),
          regField s bJRN 0x38]) s)

/-- SHOW TAMPER: TSTAT, ZSTAT, ZCOUNT, the entries of the vault log and TLOGOVF (Table 23.10). -/
def execShowTamper (l : ConLine) (s : State) : Host.Outcome State Fault Refusal :=
  .next (runShow l true (fun s =>
    let v := s.sec.vault
    ok s ([(tstatWord s : Int), (b2n v.zeroized + 2 * b2n v.zpend : Int), (v.zcount : Int), (v.ovf : Int), (v.log.length : Int)]
      ++ v.log.flatMap (fun e => [(e.src : Int), (e.cls : Int), (e.idx : Int), (e.tai : Int), (e.react : Int)]))) s)

/-- SHOW WITNESS [TAG a]: mesh state and counters, or the eight words of a tag-table entry (Table 23.10). -/
def execShowWitness (l : ConLine) (tag : Option Nat) (s : State) : Host.Outcome State Fault Refusal :=
  .next (runShow l (match tag with | some a => decide (a < 128) | none => true) (fun s =>
    match tag with
    | some a => ok s ((List.range 8).map (fun i => (ttWord s (8 * a + i) : Int)))
    | none => ok s ([0x30, 0x34, 0x38, 0x3C, 0x40, 0x44, 0x48, 0x4C, 0x50, 0x54, 0x58].map (regField s bWIT))) s)

/-- SHOW BOOK t b: state, cause mask, P_b, margin, PART and last sequence numbers, inputs, LATE and LATE_UNCERTAIN counts. -/
def execShowBook (l : ConLine) (t b : Nat) (s : State) : Host.Outcome State Fault Refusal :=
  .next (runShow l (decide (t < 64) && decide (b < 4096)) (fun s =>
    let k := getBook s t b
    ok s [(k.sales.code : Int), (k.cause : Int), (k.pb : Int), (k.margin : Int), fieldOf k.partSeq, fieldOf k.lastSeq,
          (k.count : Int), (k.late : Int), (k.lateu : Int)]) s)

/-- SHOW GRAIN t seq [BODY]: header fields and digest prefix of a durable grain (0), PENDING (1), EXPIRED (2); UNREADABLE where
it cannot be read (R603). -/
def execShowGrain (l : ConLine) (t seq : Nat) (body : Bool) (s : State) : Host.Outcome State Fault Refusal :=
  .next (runShow l (decide (t < 64)) (fun s =>
    if seq ≥ (strm s t).dur then ok s [1]
    else match grainAt s t seq with
      | none => ok s [2]
      | some g =>
        if g.unreadable then err s eUNREADABLE []
        else okB s [0] (hdrBytes g.hdr g.seq g.body.length ++ (digBytes g.digest).take 8 ++ (if body then g.body else []))) s)

/-- SHOW SESSION t session: class, terminal, state, window high and bitmap, drops of A4 and A5, pending inputs. [log 92 DEDUCED, safe] -/
def execShowSession (l : ConLine) (t session : Nat) (s : State) : Host.Outcome State Fault Refusal :=
  .next (runShow l (decide (t ≤ 64)) (fun s =>
    match lk s.awp.sessions (skey t session) with
    | none => err s eARGS []
    | some x =>
      let pend := (s.awp.inputs.filter (fun i => i.tenant == t && i.session == session)).length
      ok s [match x.cls with | .terminal => 0 | .mgmt => 1 | .devmgmt => 2, (x.terminal : Int), (b2n x.opened : Int), (x.high : Int),
            (x.bitmap.toNat : Int), (x.a4 : Int), (x.a5 : Int), (pend : Int)]) s)

/-- The areas of a bank's save-area chain, newest first (9.7, R232): word 1 of the bank is the head, word 0 of each area its
predecessor; the chain ends at 0 or at a word that is no SAVELINK. Each area begins on 144 bytes of its own, so a page holds 56. -/
def saveChain (s : State) (pa : Nat) : Nat → TWord → List Nat
  | 0, _ => []
  | n + 1, w =>
    if w.tag ≠ tSAVELINK ∨ w.val = 0 then []
    else
      let a := pa + w.val.toNat % 8192
      a :: saveChain s pa n (mem s a)

/-- Register r as the newest area that stored it holds it. [log 93 DEDUCED, unsafe] -/
def savedReg (s : State) (areas : List Nat) (r : Nat) : Option TWord :=
  (areas.find? (fun a =>
    let w := (mem s (a + 8)).val.toNat
    decide (bits w 8 1 = r / 16) && bit w (r % 16 / 8))).map (fun a => mem s (a + 16 + 8 * (r % 16)))

/-- The state in which core c reads at S in the evaluation space of tenant t (R266). [log 93 DEDUCED, unsafe] -/
def viewAs (s : State) (c t : Nat) : State := updCore s c (fun k => { k with status := setBits (setBits k.status 0 2 1) 24 8 (4 * t) })

/-- The value of a BIGNUM or RATIO of tenant t, numerator and denominator, through the first core whose TLB maps it. [log 93 DEDUCED, unsafe] -/
def valueSeen (s : State) (t : Nat) (w : TWord) : Option (Int × Int) :=
  (s.cpu.cores.map (·.1)).findSome? (fun c => match readNum (viewAs s c t) c w with
    | .ok _ r => some (r.n, (r.d : Int))
    | .trap _ _ => none)

/-- What SHOW CTX prints of a register: tag, value and denominator, −1 where no area holds it. A BIGNUM or RATIO is printed by
value; the specification gives no way to its body where no TLB maps it: free values then. -/
def savedField (s : State) (t : Nat) (areas : List Nat) (r : Nat) : State × List Int :=
  match savedReg s areas r with
  | none => (s, [-1, -1, -1])
  | some w =>
    if w.tag = tINT ∨ w.tag = tMONEY then (s, [(w.tag.toNat : Int), w.val.toInt, 1])
    else if w.tag = tBIGNUM ∨ w.tag = tRATIO then
      match valueSeen s t w with
      | some v => (s, [(w.tag.toNat : Int), v.1, v.2])
      | none =>
        let d := drawFree s
        let e := drawFree d.2
        (e.2, [(w.tag.toNat : Int), d.1.toInt, (e.1.toNat : Int)])
    else (s, [(w.tag.toNat : Int), (w.val.toNat : Int), 1])

/-- SHOW CTX t context REGS …, in AUDIT at REGULATE on CON1, in HOLD at ENGINEER (R590, R264). [log 92 DEDUCED, safe] -/
def execShowCtx (l : ConLine) (t ctx : Nat) (regs : List Nat) (s : State) : Host.Outcome State Fault Refusal :=
  let args := decide (t < 64) && !regs.isEmpty && regs.all (fun r => decide (r < 32))
  let sp : CmdSpec :=
    if s.inMode .hold then spec .engineer [.audit, .hold] args
    else { spec .regulate [.audit, .hold] args with cons := [1] }
  .next (runCmd l sp (fun _ s =>
    match s.cpu.banks.find? (fun b => b.tenant == t && b.ctx == ctx) with
    | none => err s eARGS []
    | some b =>
      let areas := saveChain s b.pa 56 (mem s (b.pa + 8))
      let r := regs.foldl (fun (a : State × List Int) n => let x := savedField a.1 t areas n; (x.1, a.2 ++ x.2)) (s, [])
      ok r.1 r.2) s)

/-- SHOW MEDIA [DIE d] [RELOC LAST k]: flash state and end of life, the indicators of a die, the last k Heartwood index entries. -/
def execShowMedia (l : ConLine) (die reloc : Option Nat) (s : State) : Host.Outcome State Fault Refusal :=
  let dieOk := match die with | some d => decide (d < 256) | none => true
  let relOk := match reloc with | some k => decide (1 ≤ k) && decide (k ≤ 16) | none => true
  .next (runShow l (dieOk && relOk) (fun s =>
    let base := if die.isNone && reloc.isNone then [0x10, 0x14, 0x18, 0x1C].map (regField s bFLC) else []
    let ofDie := match die with
      | some d =>
        let s1 := fset s bFLC 0x100 0 8 d
        ([0x104, 0x108, 0x10C] ++ (List.range 18).map (fun i => 0x110 + 4 * i)).map (fun o => fieldOf (flcView s1 o))
      | none => []
    let ofRel := match reloc with
      | some k => (s.fla.index.take k).flatMap (fun e =>
          [(e.tai : Int), (e.die : Int), (e.src : Int), (e.dst : Int), (e.members : Int), (e.segs : Int), (e.reason : Int)])
      | none => []
    ok s (base ++ ofDie ++ ofRel)) s)

/-- SHOW POWER: calibration, energy figures, CWIN, VBAT. -/
def execShowPower (l : ConLine) (s : State) : Host.Outcome State Fault Refusal :=
  .next (runShow l true (fun s =>
    ok s ([0x10, 0x14, 0x18, 0x1C, 0x20, 0x24, 0x28, 0x2C, 0x30, 0x34, 0x38, 0x3C, 0x40, 0x44].map (regField s bPWR))) s)

/-- What SHOW MIRROR prints of a tenant: TSTATE, lag, its age in µs, the matched number. -/
def mirrorFields (s : State) (t : Nat) : List Int :=
  [(t : Int), ((getMir s t).st : Int), (lagOf s t : Int), (lagAge s t : Int), fieldOf (getMir s t).matched]

/-- SHOW MIRROR [t]: link state and quads, and per tenant TSTATE, lag, age, matched number. -/
def execShowMirror (l : ConLine) (t : Option Nat) (s : State) : Host.Outcome State Fault Refusal :=
  .next (runShow l (match t with | some t => decide (t < 64) | none => true) (fun s =>
    let ts := match t with | some t => [t] | none => (List.range 64).filter (tenantBit s bMIR 0x40)
    ok s (regField s bMIR 0x14 :: ts.flatMap (mirrorFields s))) s)

/-- SHOW REPLAY IMPORT t, or STATUS: the import set of a tenant, or the run state and the first divergence. -/
def execShowReplay (l : ConLine) (import_ : Option Nat) (s : State) : Host.Outcome State Fault Refusal :=
  .next (runShow l (match import_ with | some t => decide (t < 64) | none => true) (fun s =>
    match import_ with
    | some t =>
      let s1 := fset s bRPL 0x10 0 6 t
      ok s (([0x70, 0x74] ++ (List.range 8).map (fun i => 0x80 + 4 * i) ++ [0xA0, 0xA4, 0xA8, 0xAC]).map (regField s1 bRPL)
        ++ [fieldOf ((lk s.rpl.sets t).map (·.epoch))])
    | none =>
      ok s ([0x10, 0x2C, 0x30, 0x34, 0x38, 0x40, 0x44, 0x48, 0x4C, 0x50, 0x54, 0x60].map (regField s bRPL))) s)

/-- The clusters, as a 12-bit mask, in which a tenant's bit of PAIR or STRICT is set. -/
def clusterMask (f : Nat → Bool) : Nat := ((List.range 12).filter f).foldl (fun a c => a + 2 ^ c) 0

/-- SHOW TENANT t: TENEN, KEKVER, TM_t, SESSMAX, INFLIGHT, SQUOTA, ILIMIT, PAIR, STRICT. -/
def execShowTenant (l : ConLine) (t : Nat) (s : State) : Host.Outcome State Fault Refusal :=
  .next (runShow l (decide (t < 64)) (fun s =>
    okB s [(b2n (tenantBit s bSEQ 0x10 t) : Int), regField s bAWP (0x1100 + 4 * t), regField s bAWP (0x1000 + 4 * t),
           regField s bSEQ (0x100 + 4 * t), regField s bSEQ (0x200 + 4 * t), regField s bSEQ (0x300 + 4 * t),
           (clusterMask (fun c => pairSet s c t) : Int), (clusterMask (fun c => strictSet s c t) : Int)] (digBytes (tmOf s t))) s)

/-- SHOW LANE k: link state, resolved type, margin, FROZEN, DEGRADED, FEC counters, BERLOG. -/
def execShowLane (l : ConLine) (k : Nat) (s : State) : Host.Outcome State Fault Refusal :=
  .next (runShow l (decide (k < 48)) (fun s =>
    let p := laneToPort s k
    let r (o : Nat) : Int := regField s (bLQ + k / 4) (laneOff (k % 4) o)
    ok s [r 0x08, ((getPort s p.1 p.2).rtype : Int), r 0x20, r 0x24, r 0x28, r 0x2C, r 0x30, r 0x34, r 0x38]) s)

/-! ### Alarm outputs (R616) -/

/-- ALM0 to ALM3: HOLD or ROM recovery; a tamper latch; a SUSPENDED book; WARN, CRIT, LOW or DEGRADED of FLC.MSTATE. -/
def alarm (s : State) (n : Nat) : Bool :=
  if n = 0 then s.inMode .hold || s.sec.recovery
  else if n = 1 then decide (tstatWord s % 2 ^ 14 ≠ 0)
  else if n = 2 then s.books.any (fun p => p.2.sales == .suspended)
  else if n = 3 then
    let m := regValue s reqMgmt bFLC 0x14
    bit m 8 || bit m 9 || bit m 10 || bit m 4
  else false

end Sys2Proof.Machine
end

