-- ==== Sys2Proof/Machine/Dispatch.lean ====
section
/-! DEFINITION. The effect of one command: one arm per constructor of Instr, each a direct call of its meaning. -/
namespace Sys2Proof.Machine

open Sys2Proof

/-- What a command does to everything but the queue (the queue's rest is passed on as it stands). -/
def exec (i : Instr) (s : State) : Host.Outcome State Fault Refusal :=
  match i with
  | .offer f => Sys2Proof.Machine.execOffer f s
  | .cancel f => Sys2Proof.Machine.execCancel f s
  | .query f reads => Sys2Proof.Machine.execQuery f reads s
  | .heartbeat f => Sys2Proof.Machine.execHeartbeat f s
  | .keyimp f e => Sys2Proof.Machine.execKeyimp f e s
  | .sessload f key => Sys2Proof.Machine.execSessload f key s
  | .sessdrop f tenant session => Sys2Proof.Machine.execSessdrop f tenant session s
  | .expreq f => Sys2Proof.Machine.execExpreq f s
  | .impdata f => Sys2Proof.Machine.execImpdata f s
  | .importVerify set reason seg => Sys2Proof.Machine.execImportVerify set reason seg s
  | .exportIdleTimeout reqid => Sys2Proof.Machine.execExportIdleTimeout reqid s
  | .arpRequest lane target => Sys2Proof.Machine.execArpRequest lane target s
  | .neighbourSolicitation lane target => Sys2Proof.Machine.execNeighbourSolicitation lane target s
  | .echoRequest lane v6 dst src => Sys2Proof.Machine.execEchoRequest lane v6 dst src s
  | .pauseFrame lane => Sys2Proof.Machine.execPauseFrame lane s
  | .sync m => Sys2Proof.Machine.execSync m s
  | .followUp m => Sys2Proof.Machine.execFollowUp m s
  | .delayResp m sent var => Sys2Proof.Machine.execDelayResp m sent var s
  | .pdelayReq m => Sys2Proof.Machine.execPdelayReq m s
  | .announce m ptpScale offset => Sys2Proof.Machine.execAnnounce m ptpScale offset s
  | .ptpSampleTimeout gm => Sys2Proof.Machine.execPtpSampleTimeout gm s
  | .ppsEdge r => Sys2Proof.Machine.execPpsEdge r s
  | .todLine r sec locked crcOk => Sys2Proof.Machine.execTodLine r sec locked crcOk s
  | .ppsMissing r => Sys2Proof.Machine.execPpsMissing r s
  | .uRecompute => Sys2Proof.Machine.execURecompute s
  | .slewEnd => Sys2Proof.Machine.execSlewEnd s
  | .ppsOutEdge => Sys2Proof.Machine.execPpsOutEdge s
  | .acqWaitExpire => Sys2Proof.Machine.execAcqWaitExpire s
  | .refInputLoss inp => Sys2Proof.Machine.execRefInputLoss inp s
  | .refInputReturn inp => Sys2Proof.Machine.execRefInputReturn inp s
  | .clockTamper => Sys2Proof.Machine.execClockTamper s
  | .supplyGlitch => Sys2Proof.Machine.execSupplyGlitch s
  | .thermalSample temps => Sys2Proof.Machine.execThermalSample temps s
  | .thermalHold => Sys2Proof.Machine.execThermalHold s
  | .tmrScrub upsets => Sys2Proof.Machine.execTmrScrub upsets s
  | .powerOnReset rail rising kept lat => Sys2Proof.Machine.execPowerOnReset rail rising kept lat s
  | .externalReset => Sys2Proof.Machine.execExternalReset s
  | .mgmtWatchdogExpire => Sys2Proof.Machine.execMgmtWatchdogExpire s
  | .bootStepTimeout failed => Sys2Proof.Machine.execBootStepTimeout failed s
  | .setModeLive l => Sys2Proof.Machine.execSetModeLive l s
  | .setModeQuiet l => Sys2Proof.Machine.execSetModeQuiet l s
  | .drainComplete => Sys2Proof.Machine.execDrainComplete s
  | .setModeAudit l => Sys2Proof.Machine.execSetModeAudit l s
  | .setModeReplay l => Sys2Proof.Machine.execSetModeReplay l s
  | .setModeHold l => Sys2Proof.Machine.execSetModeHold l s
  | .holdFlushComplete => Sys2Proof.Machine.execHoldFlushComplete s
  | .mgmtLockstepMismatch => Sys2Proof.Machine.execMgmtLockstepMismatch s
  | .partingInstant t b => Sys2Proof.Machine.execPartingInstant t b s
  | .partNumber t b clear => Sys2Proof.Machine.execPartNumber t b clear s
  | .bookClose t b => Sys2Proof.Machine.execBookClose t b s
  | .grainRequestNumber t => Sys2Proof.Machine.execGrainRequestNumber t s
  | .grainDurable t => Sys2Proof.Machine.execGrainDurable t s
  | .replyRelease t session => Sys2Proof.Machine.execReplyRelease t session s
  | .unlock req block val => Sys2Proof.Machine.execUnlock req block val s
  | .keyguardExpire block => Sys2Proof.Machine.execKeyguardExpire block s
  | .update req mask => Sys2Proof.Machine.execUpdate req mask s
  | .snap req => Sys2Proof.Machine.execSnap req s
  | .modeWrite req val => Sys2Proof.Machine.execModeWrite req val s
  | .registerWrite req block off width val => Sys2Proof.Machine.execRegisterWrite req block off width val s
  | .postedWriteTaken block => Sys2Proof.Machine.execPostedWriteTaken block s
  | .postedDomainReset block => Sys2Proof.Machine.execPostedDomainReset block s
  | .indirectAddrWrite req block off val => Sys2Proof.Machine.execIndirectAddrWrite req block off val s
  | .indirectDataWrite req block off val => Sys2Proof.Machine.execIndirectDataWrite req block off val s
  | .indirectDataRead req block off => Sys2Proof.Machine.execIndirectDataRead req block off s
  | .bookcmdOpen req scope tenant book => Sys2Proof.Machine.execBookcmdOpen req scope tenant book s
  | .bookcmdSetcause req scope tenant book => Sys2Proof.Machine.execBookcmdSetcause req scope tenant book s
  | .bookcmdClearcause req scope tenant book => Sys2Proof.Machine.execBookcmdClearcause req scope tenant book s
  | .bookcmdRelease req scope tenant book => Sys2Proof.Machine.execBookcmdRelease req scope tenant book s
  | .bookcmdRestore req scope tenant book => Sys2Proof.Machine.execBookcmdRestore req scope tenant book s
  | .ipisend core rd => Sys2Proof.Machine.execIpisend core rd s
  | .refenWrite req val => Sys2Proof.Machine.execRefenWrite req val s
  | .eclassWrite req val => Sys2Proof.Machine.execEclassWrite req val s
  | .freezeWrite req lane val => Sys2Proof.Machine.execFreezeWrite req lane val s
  | .lmargWrite req lane val => Sys2Proof.Machine.execLmargWrite req lane val s
  | .rplRunWrite req val => Sys2Proof.Machine.execRplRunWrite req val s
  | .setReg l block off val key => Sys2Proof.Machine.execSetReg l block off val key s
  | .showReg l block off => Sys2Proof.Machine.execShowReg l block off s
  | .add core f => Sys2Proof.Machine.execAdd core f s
  | .sub core f => Sys2Proof.Machine.execSub core f s
  | .mul core f => Sys2Proof.Machine.execMul core f s
  | .div core f => Sys2Proof.Machine.execDiv core f s
  | .mdivi core f => Sys2Proof.Machine.execMdivi core f s
  | .cmp core f => Sys2Proof.Machine.execCmp core f s
  | .and core f => Sys2Proof.Machine.execAnd core f s
  | .or core f => Sys2Proof.Machine.execOr core f s
  | .xor core f => Sys2Proof.Machine.execXor core f s
  | .andn core f => Sys2Proof.Machine.execAndn core f s
  | .sll core f => Sys2Proof.Machine.execSll core f s
  | .srl core f => Sys2Proof.Machine.execSrl core f s
  | .sra core f => Sys2Proof.Machine.execSra core f s
  | .mov core f => Sys2Proof.Machine.execMov core f s
  | .tag core f => Sys2Proof.Machine.execTag core f s
  | .nop core f => Sys2Proof.Machine.execNop core f s
  | .addi core f => Sys2Proof.Machine.execAddi core f s
  | .cmpi core f => Sys2Proof.Machine.execCmpi core f s
  | .andi core f => Sys2Proof.Machine.execAndi core f s
  | .ori core f => Sys2Proof.Machine.execOri core f s
  | .shi core f => Sys2Proof.Machine.execShi core f s
  | .li core f => Sys2Proof.Machine.execLi core f s
  | .lix core f => Sys2Proof.Machine.execLix core f s
  | .retag core f => Sys2Proof.Machine.execRetag core f s
  | .typep core f => Sys2Proof.Machine.execTypep core f s
  | .car core f => Sys2Proof.Machine.execCar core f s
  | .cdr core f => Sys2Proof.Machine.execCdr core f s
  | .cons core f => Sys2Proof.Machine.execCons core f s
  | .setcar core f => Sys2Proof.Machine.execSetcar core f s
  | .setcdr core f => Sys2Proof.Machine.execSetcdr core f s
  | .len core f => Sys2Proof.Machine.execLen core f s
  | .idhash core f => Sys2Proof.Machine.execIdhash core f s
  | .vref core f => Sys2Proof.Machine.execVref core f s
  | .vset core f => Sys2Proof.Machine.execVset core f s
  | .sref core f => Sys2Proof.Machine.execSref core f s
  | .sset core f => Sys2Proof.Machine.execSset core f s
  | .makev core f => Sys2Proof.Machine.execMakev core f s
  | .maker core f => Sys2Proof.Machine.execMaker core f s
  | .makes core f => Sys2Proof.Machine.execMakes core f s
  | .ld core f ev => Sys2Proof.Machine.execLd core f ev s
  | .st core f ev => Sys2Proof.Machine.execSt core f ev s
  | .lda core f ev => Sys2Proof.Machine.execLda core f ev s
  | .str core f ev => Sys2Proof.Machine.execStr core f ev s
  | .addp core f => Sys2Proof.Machine.execAddp core f s
  | .ldb core f => Sys2Proof.Machine.execLdb core f s
  | .stb core f => Sys2Proof.Machine.execStb core f s
  | .sm core f stop => Sys2Proof.Machine.execSm core f stop s
  | .lm core f stop => Sys2Proof.Machine.execLm core f stop s
  | .savel core f => Sys2Proof.Machine.execSavel core f s
  | .saveh core f => Sys2Proof.Machine.execSaveh core f s
  | .loadl core f => Sys2Proof.Machine.execLoadl core f s
  | .loadh core f => Sys2Proof.Machine.execLoadh core f s
  | .beq core f => Sys2Proof.Machine.execBeq core f s
  | .bne core f => Sys2Proof.Machine.execBne core f s
  | .blt core f => Sys2Proof.Machine.execBlt core f s
  | .bge core f => Sys2Proof.Machine.execBge core f s
  | .bt core f => Sys2Proof.Machine.execBt core f s
  | .bf core f => Sys2Proof.Machine.execBf core f s
  | .bnil core f => Sys2Proof.Machine.execBnil core f s
  | .bnnil core f => Sys2Proof.Machine.execBnnil core f s
  | .j core off => Sys2Proof.Machine.execJ core off s
  | .call core off => Sys2Proof.Machine.execCall core off s
  | .jr core f => Sys2Proof.Machine.execJr core f s
  | .callr core f => Sys2Proof.Machine.execCallr core f s
  | .ret core f => Sys2Proof.Machine.execRet core f s
  | .fence core f => Sys2Proof.Machine.execFence core f s
  | .fenceI core f => Sys2Proof.Machine.execFenceI core f s
  | .retx core f => Sys2Proof.Machine.execRetx core f s
  | .tlbw core f => Sys2Proof.Machine.execTlbw core f s
  | .tlbiVa core f => Sys2Proof.Machine.execTlbiVa core f s
  | .tlbiAsid core f => Sys2Proof.Machine.execTlbiAsid core f s
  | .tlbiAll core f => Sys2Proof.Machine.execTlbiAll core f s
  | .mfcr core f => Sys2Proof.Machine.execMfcr core f s
  | .mtcr core f => Sys2Proof.Machine.execMtcr core f s
  | .sysc core f bank => Sys2Proof.Machine.execSysc core f bank s
  | .interruptTake core cause => Sys2Proof.Machine.execInterruptTake core cause s
  | .coreWatchdogExpire core => Sys2Proof.Machine.execCoreWatchdogExpire core s
  | .uwaitTimeout core uaddr redir => Sys2Proof.Machine.execUwaitTimeout core uaddr redir s
  | .coreSelftestComplete core pass => Sys2Proof.Machine.execCoreSelftestComplete core pass s
  | .pairTestComplete pair pass => Sys2Proof.Machine.execPairTestComplete pair pass s
  | .sha256 core f e => Sys2Proof.Machine.execSha256 core f e s
  | .sha3 core f e => Sys2Proof.Machine.execSha3 core f e s
  | .hmac core f e => Sys2Proof.Machine.execHmac core f e s
  | .gcmseal core f e => Sys2Proof.Machine.execGcmseal core f e s
  | .gcmopen core f e => Sys2Proof.Machine.execGcmopen core f e s
  | .p256v core f e => Sys2Proof.Machine.execP256v core f e s
  | .p384v core f e => Sys2Proof.Machine.execP384v core f e s
  | .ed25519v core f e => Sys2Proof.Machine.execEd25519v core f e s
  | .draw core f e => Sys2Proof.Machine.execDraw core f e s
  | .drawn core f e => Sys2Proof.Machine.execDrawn core f e s
  | .reseed core f e => Sys2Proof.Machine.execReseed core f e s
  | .tread core f e => Sys2Proof.Machine.execTread core f e s
  | .take core f e bad => Sys2Proof.Machine.execTake core f e bad s
  | .append core f e => Sys2Proof.Machine.execAppend core f e s
  | .ctrinc core f e => Sys2Proof.Machine.execCtrinc core f e s
  | .chained core f e => Sys2Proof.Machine.execChained core f e s
  | .pairWaitTimeout core => Sys2Proof.Machine.execPairWaitTimeout core s
  | .appendWaitTimeout core => Sys2Proof.Machine.execAppendWaitTimeout core s
  | .pairUnavailableTimeout tenant => Sys2Proof.Machine.execPairUnavailableTimeout tenant s
  | .drbgReseedTimer cluster => Sys2Proof.Machine.execDrbgReseedTimer cluster s
  | .entropyTestFail cluster kind busy => Sys2Proof.Machine.execEntropyTestFail cluster kind busy s
  | .entropyRestore cluster => Sys2Proof.Machine.execEntropyRestore cluster s
  | .dramPatrolRead addr uncorrectable corrected => Sys2Proof.Machine.execDramPatrolRead addr uncorrectable corrected s
  | .anComplete q p partner rsFec => Sys2Proof.Machine.execAnComplete q p partner rsFec s
  | .trainingComplete q p rateOk taps => Sys2Proof.Machine.execTrainingComplete q p rateOk taps s
  | .trainingTimeout q p => Sys2Proof.Machine.execTrainingTimeout q p s
  | .pcsLockLoss q p rxCut txCut => Sys2Proof.Machine.execPcsLockLoss q p rxCut txCut s
  | .faultTimeout q p => Sys2Proof.Machine.execFaultTimeout q p s
  | .linkEventWindowEnd q p => Sys2Proof.Machine.execLinkEventWindowEnd q p s
  | .marginMeasure k eyes => Sys2Proof.Machine.execMarginMeasure k eyes s
  | .berEstimate k corr unc sym berlog => Sys2Proof.Machine.execBerEstimate k corr unc sym berlog s
  | .hello role ident sigOk => Sys2Proof.Machine.execHello role ident sigOk s
  | .record lseq tenant tagOk body => Sys2Proof.Machine.execRecord lseq tenant tagOk body s
  | .grain lseq tenant tagOk body => Sys2Proof.Machine.execGrain lseq tenant tagOk body s
  | .anchor lseq tenant k digest tagOk => Sys2Proof.Machine.execAnchor lseq tenant k digest tagOk s
  | .digest lseq tenant first digests tagOk => Sys2Proof.Machine.execDigest lseq tenant first digests tagOk s
  | .ack lseq acked limit tagOk => Sys2Proof.Machine.execAck lseq acked limit tagOk s
  | .nack lseq expected tagOk => Sys2Proof.Machine.execNack lseq expected tagOk s
  | .position lseq pos tagOk => Sys2Proof.Machine.execPosition lseq pos tagOk s
  | .diverge lseq tenant n mine theirs tagOk => Sys2Proof.Machine.execDiverge lseq tenant n mine theirs tagOk s
  | .mirrorRetransmitTimeout => Sys2Proof.Machine.execMirrorRetransmitTimeout s
  | .mirrorAckTimer => Sys2Proof.Machine.execMirrorAckTimer s
  | .digestSendTimer => Sys2Proof.Machine.execDigestSendTimer s
  | .mirrorLossTimeout => Sys2Proof.Machine.execMirrorLossTimeout s
  | .mirrorLagTimeout tenant => Sys2Proof.Machine.execMirrorLagTimeout tenant s
  | .rowHoldTimeout t => Sys2Proof.Machine.execRowHoldTimeout t s
  | .fcdelayTimeout t => Sys2Proof.Machine.execFcdelayTimeout t s
  | .rowProgramComplete t fails again => Sys2Proof.Machine.execRowProgramComplete t fails again s
  | .heartwoodSeal t fails again => Sys2Proof.Machine.execHeartwoodSeal t fails again s
  | .sapwoodFree n bad => Sys2Proof.Machine.execSapwoodFree n bad s
  | .dieTimeout d channel => Sys2Proof.Machine.execDieTimeout d channel s
  | .rebuildComplete d => Sys2Proof.Machine.execRebuildComplete d s
  | .patrolRead k reads => Sys2Proof.Machine.execPatrolRead k reads s
  | .blockEvaluate k => Sys2Proof.Machine.execBlockEvaluate k s
  | .relocation k eraseFail lost => Sys2Proof.Machine.execRelocation k eraseFail lost s
  | .quietWindowBoundary => Sys2Proof.Machine.execQuietWindowBoundary s
  | .wearEvaluate => Sys2Proof.Machine.execWearEvaluate s
  | .mapCheckpoint => Sys2Proof.Machine.execMapCheckpoint s
  | .zqCalibration => Sys2Proof.Machine.execZqCalibration s
  | .pfailLatch kept lat => Sys2Proof.Machine.execPfailLatch kept lat s
  | .pfailRestart => Sys2Proof.Machine.execPfailRestart s
  | .holdupSample mv => Sys2Proof.Machine.execHoldupSample mv s
  | .vbatLow mv => Sys2Proof.Machine.execVbatLow mv s
  | .vaultMonitorSample loops temp mv => Sys2Proof.Machine.execVaultMonitorSample loops temp mv s
  | .loopPulse n r => Sys2Proof.Machine.execLoopPulse n r s
  | .witnessEventInstant => Sys2Proof.Machine.execWitnessEventInstant s
  | .witnessTransmit busy => Sys2Proof.Machine.execWitnessTransmit busy s
  | .report f => Sys2Proof.Machine.execReport f s
  | .alarm f => Sys2Proof.Machine.execAlarm f s
  | .joinreq eui fctr micOk => Sys2Proof.Machine.execJoinreq eui fctr micOk s
  | .supervisionTimeout a => Sys2Proof.Machine.execSupervisionTimeout a s
  | .authfailMinute => Sys2Proof.Machine.execAuthfailMinute s
  | .countsWrite => Sys2Proof.Machine.execCountsWrite s
  | .replayGrain => Sys2Proof.Machine.execReplayGrain s
  | .telemetrySample vals => Sys2Proof.Machine.execTelemetrySample vals s
  | .telemetrySecond => Sys2Proof.Machine.execTelemetrySecond s
  | .telemetrySummary => Sys2Proof.Machine.execTelemetrySummary s
  | .breakLine con => Sys2Proof.Machine.execBreakLine con s
  | .badLine con code => Sys2Proof.Machine.execBadLine con code s
  | .challengeTimeout con => Sys2Proof.Machine.execChallengeTimeout con s
  | .consoleIdleTimeout con => Sys2Proof.Machine.execConsoleIdleTimeout con s
  | .authLockExpire con => Sys2Proof.Machine.execAuthLockExpire con s
  | .commandReplyRelease cjn => Sys2Proof.Machine.execCommandReplyRelease cjn s
  | .authOperate l => Sys2Proof.Machine.execAuthOperate l s
  | .authEngineer l => Sys2Proof.Machine.execAuthEngineer l s
  | .authRegulate l => Sys2Proof.Machine.execAuthRegulate l s
  | .authResponse l sig => Sys2Proof.Machine.execAuthResponse l sig s
  | .authLogout l => Sys2Proof.Machine.execAuthLogout l s
  | .authObserve l => Sys2Proof.Machine.execAuthObserve l s
  | .cjFrom l n => Sys2Proof.Machine.execCjFrom l n s
  | .cjTail l k => Sys2Proof.Machine.execCjTail l k s
  | .state l => Sys2Proof.Machine.execState l s
  | .attest l nonce => Sys2Proof.Machine.execAttest l nonce s
  | .resetDevice l => Sys2Proof.Machine.execResetDevice l s
  | .stageBegin l n => Sys2Proof.Machine.execStageBegin l n s
  | .stageData l off g => Sys2Proof.Machine.execStageData l off g s
  | .stageEnd l d => Sys2Proof.Machine.execStageEnd l d s
  | .stageDrop l => Sys2Proof.Machine.execStageDrop l s
  | .commissionJkeyHash l hash progEn fuseOk => Sys2Proof.Machine.execCommissionJkeyHash l hash progEn fuseOk s
  | .commissionOpkey l fuseOk => Sys2Proof.Machine.execCommissionOpkey l fuseOk s
  | .commissionRole l role fuseOk => Sys2Proof.Machine.execCommissionRole l role fuseOk s
  | .revokeOpkey l slot fuseOk => Sys2Proof.Machine.execRevokeOpkey l slot fuseOk s
  | .setEclass l => Sys2Proof.Machine.execSetEclass l s
  | .importKey l t key => Sys2Proof.Machine.execImportKey l t key s
  | .openMgmt l key => Sys2Proof.Machine.execOpenMgmt l key s
  | .loadImage l slot im => Sys2Proof.Machine.execLoadImage l slot im s
  | .commitImage l fuseOk => Sys2Proof.Machine.execCommitImage l fuseOk s
  | .loadRules l t => Sys2Proof.Machine.execLoadRules l t s
  | .loadDict l t => Sys2Proof.Machine.execLoadDict l t s
  | .loadLeaps l => Sys2Proof.Machine.execLoadLeaps l s
  | .showTime l => Sys2Proof.Machine.execShowTime l s
  | .setTime l at_ u => Sys2Proof.Machine.execSetTime l at_ u s
  | .stepTime l ref off => Sys2Proof.Machine.execStepTime l ref off s
  | .setTimeref l ref on => Sys2Proof.Machine.execSetTimeref l ref on s
  | .setBook l t b at_ margin => Sys2Proof.Machine.execSetBook l t b at_ margin s
  | .openBook l t b => Sys2Proof.Machine.execOpenBook l t b s
  | .suspendBook l t b => Sys2Proof.Machine.execSuspendBook l t b s
  | .suspendTenant l t => Sys2Proof.Machine.execSuspendTenant l t s
  | .resumeBook l t b causes => Sys2Proof.Machine.execResumeBook l t b causes s
  | .resumeTenant l t causes => Sys2Proof.Machine.execResumeTenant l t causes s
  | .resumeDevice l causes => Sys2Proof.Machine.execResumeDevice l causes s
  | .settleBook l t b => Sys2Proof.Machine.execSettleBook l t b s
  | .releaseBook l t b => Sys2Proof.Machine.execReleaseBook l t b s
  | .showJournal l t => Sys2Proof.Machine.execShowJournal l t s
  | .retire l t seq => Sys2Proof.Machine.execRetire l t seq s
  | .mirrorReattach l t => Sys2Proof.Machine.execMirrorReattach l t s
  | .replayStart l t fr th cross => Sys2Proof.Machine.execReplayStart l t fr th cross s
  | .replayClear l t set journal => Sys2Proof.Machine.execReplayClear l t set journal s
  | .showTamper l => Sys2Proof.Machine.execShowTamper l s
  | .clearTamper l mask => Sys2Proof.Machine.execClearTamper l mask s
  | .witnessPair l kind key => Sys2Proof.Machine.execWitnessPair l kind key s
  | .witnessUnpair l a => Sys2Proof.Machine.execWitnessUnpair l a s
  | .witnessLoopCal l n => Sys2Proof.Machine.execWitnessLoopCal l n s
  | .showWitness l tag => Sys2Proof.Machine.execShowWitness l tag s
  | .showBook l t b => Sys2Proof.Machine.execShowBook l t b s
  | .showGrain l t seq body => Sys2Proof.Machine.execShowGrain l t seq body s
  | .showSession l t session => Sys2Proof.Machine.execShowSession l t session s
  | .showCtx l t ctx regs => Sys2Proof.Machine.execShowCtx l t ctx regs s
  | .showMedia l die reloc => Sys2Proof.Machine.execShowMedia l die reloc s
  | .showPower l => Sys2Proof.Machine.execShowPower l s
  | .showMirror l t => Sys2Proof.Machine.execShowMirror l t s
  | .showReplay l import_ => Sys2Proof.Machine.execShowReplay l import_ s
  | .showTenant l t => Sys2Proof.Machine.execShowTenant l t s
  | .showLane l k => Sys2Proof.Machine.execShowLane l k s
  | .sealedStepComplete f => Sys2Proof.Machine.execSealedStepComplete f s
  | .sweepComplete => Sys2Proof.Machine.execSweepComplete s
  | .pfailGlitch => Sys2Proof.Machine.execPfailGlitch s
  | .vbatLost => Sys2Proof.Machine.execVbatLost s
  | .pllLockRegained inp => Sys2Proof.Machine.execPllLockRegained inp s
  | .pdelayResp m sent var => Sys2Proof.Machine.execPdelayResp m sent var s
  | .leapTableInstant => Sys2Proof.Machine.execLeapTableInstant s
  | .domainResetEnd block => Sys2Proof.Machine.execDomainResetEnd block s
  | .flashOperationComplete bad => Sys2Proof.Machine.execFlashOperationComplete bad s
  | .dqTraining d temp => Sys2Proof.Machine.execDqTraining d temp s
  | .rtsAsserted con => Sys2Proof.Machine.execRtsAsserted con s
  | .frameDiscard lane atA2 => Sys2Proof.Machine.execFrameDiscard lane atA2 s

end Sys2Proof.Machine
end

