-- ==== Sys2Proof/Machine/Ops.lean ====
section
/-! DEFINITION. The operations of the queue of waiting commands and of an idle block: one PCLK cycle passes. -/
namespace Sys2Proof.Machine

open Sys2Proof

/-- A command joins the end of the queue. -/
def enqueue (s : State) (c : Instr) : State := { s with pending := s.pending ++ [c] }

/-- A command goes to the front of the queue. -/
def pushFront (s : State) (c : Instr) : State := { s with pending := c :: s.pending }

/-- Nothing waits: one PCLK cycle passes, which is two TCLK ticks (R132, Table 5.1). [log 1 DESIGN CHOICE, unsafe] -/
def idle (s : State) : State :=
  let s1 := advance s 2
  { s1 with sys.cycle := s1.sys.cycle + 1 }

end Sys2Proof.Machine
end

