-- ==== Sys2Proof/Machine/Step.lean ====
section
/-! DEFINITION. One step: the command at the front of the queue runs with the queue's rest; on an empty queue the block idles
for one PCLK cycle. -/
namespace Sys2Proof.Machine

open Sys2Proof

/-- One step of the block. [log 1 DESIGN CHOICE, unsafe; log 2 DESIGN CHOICE, safe; log 3 DESIGN CHOICE, safe] -/
def step (s : State) : Host.Outcome State Fault Refusal :=
  match s.pending with
  | [] => .next (idle s)
  | c :: rest => exec c { s with pending := rest }

/-- The state with the command that a word spells at the front of its queue; unchanged where the word spells none. [log 4 DESIGN CHOICE, safe] -/
def State.withFetchWord (s : State) (nbits w : Nat) : State :=
  match decodeTableWord nbits w with
  | some c => pushFront s c
  | none => s

end Sys2Proof.Machine
end

