-- ==== Sys2Proof/Safety.lean ====
section
/-! DEFINITION. The terms in which statements about the block are made: what a safe step is, what a core is about to do and how
its instruction ends, the memory invariant, and the order of one-time storage. -/
namespace Sys2Proof.Machine

open Sys2Proof

/-- A step from the state ends in a next state, neither in a fault nor in a refusal. -/
def SafeStep (s : State) : Prop := ∃ t, step s = .next t

/-- Core c may execute, and the instruction word w stands at its pc; t is the state after the fetch, which may have set an
accessed bit (R276). -/
def AtInsn (s t : State) (c w : Nat) : Prop := coreAble s c = true ∧ fetch s c = .ok t w

/-- The instruction that core c fetched in t has retired from u, and the pc has gone to the next instruction (R210). -/
def retired (u t : State) (c : Nat) : State := retire u c (lvlOf t c) ((getCore t c).pc + 4)

/-- The instruction that core c fetched in t has retired from u, and the pc has gone to an address (R210). -/
def jumped (u t : State) (c a : Nat) : State := retire u c (lvlOf t c) a

/-- Instruction i, which core c fetched in t, answers the state in which it has retired from u. -/
def Retires (i : Instr) (s t u : State) (c : Nat) : Prop := exec i s = .next (retired u t c)

/-- Instruction i, which core c fetched in t, delivers a word to register d and retires, writing nothing else; where d
is w30 at U and the word no STACKPTR, the delivery is refused and R205 applies. -/
def Delivers (i : Instr) (s t : State) (c d : Nat) (w : TWord) : Prop :=
  destBad t c d w = false → Retires i s t (putReg t c d w) c

/-- Instruction i, which core c fetched in t, takes an exception from u. -/
def Traps (i : Instr) (s u : State) (c : Nat) (x : Trap) : Prop := exec i s = .next (trapCore u c x)

/-- The state inside an access result. -/
def Acs.st {α : Type} : Acs α → State
  | .ok s _ => s
  | .trap s _ => s

/-- The state with which an instruction ends. -/
def IRes.st : IRes → State
  | .done s => s
  | .goto s _ => s
  | .stay s => s
  | .trap s _ => s

/-- The state that an issued operation leaves. -/
def Issued.st : Issued → State
  | .got s _ _ => s
  | .error s => s
  | .halt s => s
  | .held s _ => s

/-- A pure coprocessor operation that has computed a word and, where it has one, an output for an address, from its operands
in s1: it counts as issued, stores the output, counts as completed, delivers the word to rd and retires (R331, R340). -/
def PureEnds (i : Instr) (s t s1 : State) (c : Nat) (f : CF) (unit : Nat) (w : TWord) (out : Option (Nat × List Byte)) : Prop :=
  ∀ s2, destBad (copCount s1 (c / 8) unit 0) c f.rd.toNat w = false →
    (match out with | some o => writeOut (copCount s1 (c / 8) unit 0) c o.1 o.2 = .ok s2 () | none => s2 = copCount s1 (c / 8) unit 0) →
    Retires i s t (putReg (copCount s2 (c / 8) unit 4) c f.rd.toNat w) c

/-- The results of a granted operation in their registers, and the binding that a TAKE gives. -/
def given (s : State) (c : Nat) (f : CF) (g : Grant) : State :=
  (g.res.zipIdx).foldl (fun a p => putReg a c (f.rd.toNat + p.2) p.1)
    (updCore s c (fun k => { k with granted := none, bind := match g.bind with | some b => some b | none => k.bind }))

/-- The core stands no longer at the comparator, and holds a grant. -/
def granting (s : State) (c : Nat) (g : Grant) : State :=
  updCore (updCore s c (fun k => { k with present := none })) c (fun k => { k with granted := some g })

/-- The state in which the action of a console line begins: the line is noted and counted, a challenge void unless the line
answers it, and the next CJN taken (R554, R558, R562). -/
def begun (l : ConLine) (keep : Bool) (s : State) : State :=
  (takeCjn (bumpWrap (updCon s l.con (fun k => { k with lastLine := s.tim.ticks, chal := if keep then k.chal else none })) bCON (0x100 + 0x20 * l.con + 0x08) 0 32 1) l).2

/-- The block reads a line after S5 and nothing before its action refuses it: its tag is new, its arguments match, and its
mode, console and authority are those that its row lists (Table 22.3). -/
def Admits (l : ConLine) (sp : CmdSpec) (s : State) : Prop :=
  readsLine s l.con = true ∧ s.sec.s5done = true ∧ sp.argsOk = true ∧
    (l.tag = [] ∨ (findTag (begun l sp.keepChal s) l = none ∧ tagCount (begun l sp.keepChal s) l.con < 262144)) ∧
    stage7 (begun l sp.keepChal s) l sp = none

/-- A console line leaves a state in which the reply of its CJN is formed: a code, values and bytes (R563, R565). -/
def Answers (i : Instr) (s u : State) (code : Nat) (vals : List Int) (bytes : List Byte) : Prop :=
  exec i s = .next (formReply u s.con.nextCjn (reply code vals bytes))

/-- The staging buffer of a console empty again, as a command that succeeds leaves the buffer it has used (R578). -/
def unstaged (s : State) (c : Nat) : State := updCon s c (fun k => { k with stage := stageEmpty })

/-- The session-table lookup of a frame that has passed A2: counted by where the entry was found, an entry that reads as POISON freed (R602). -/
def looked (s : State) (f : Frame) : State :=
  match f.poison with
  | some pa => poisoned (bumpWrap s bAWP (if f.cached then 0x18 else 0x1C) 0 32 1) f.tenant f.session pa
  | none => bumpWrap s bAWP (if f.cached then 0x18 else 0x1C) 0 32 1

/-- A frame reaches the lookup of A3 (Table 1.1): its lane is UP, the ingress buffer has room, and it passes A1 and A2. -/
def ReachesA3 (s : State) (f : Frame) (mgmt : Bool) : Prop :=
  etherUp s f.lane = true ∧ f.backlog + frameBytes f ≤ 262144 ∧ passA1 s f = true ∧ passA2 s f mgmt = true

/-- A frame passes A1 to A5 (Table 1.1), and its effect begins in u, the window of its session moved. -/
def PassesA5 (s u : State) (f : Frame) (mgmt : Bool) (classes : List SClass) : Prop :=
  ReachesA3 s f mgmt ∧ ∃ x w, passA3 (looked s f) f classes = some x ∧ f.tagOk = true ∧ x.keyHeld = true ∧ window x.high x.bitmap f.counter = some w ∧
    u = updSess (looked s f) (skey f.tenant f.session) (fun x => { x with high := w.1, bitmap := w.2, opened := decide (f.counter ≠ 2 ^ 48 - 1) })

/-- The canonical form of the device's memory. -/
def MemInv (s : State) : Prop := Memory.wf s.cpu.mem = true

/-- One-time storage b keeps what one-time storage a holds (R109, R111, R112): a hash once programmed, a slot once revoked, a role once
written; and its rollback counter is no lower. -/
def OtpLe (a b : OtpSt) : Prop :=
  (∀ h, a.jhash = some h → b.jhash = some h) ∧ (∀ (i : Nat) h, a.ops[i]? = some (some h) → b.ops[i]? = some (some h)) ∧
    (∀ i : Nat, a.revoked[i]? = some true → b.revoked[i]? = some true) ∧ (a.role ≠ .none → b.role = a.role) ∧ a.rollback ≤ b.rollback

end Sys2Proof.Machine
end

