-- ==== Sys2Proof/Certificates/Slice0/Obligations.lean ====
section
/-! DEFINITION. The statements for the provers, by family of commands: the instructions of a core, coprocessors, frames and lanes, the
mirror, flash, power, the witness mesh, the console, parting and time, boot, registers; then the step and what every step keeps. -/

open Sys2Proof Sys2Proof.Machine

/-- ADD, SUB and ADDI complete on every operand form of Table 7.5 (R187): INT with INT in the INT range and outside it; rationals of any
kind, whose result is delivered as `CanonicalResults` says; MONEY with MONEY; TIME with INT; TIME minus TIME. -/
def Obligations.SumsComplete : Prop :=
  ∀ (s t u t1 t2 : State) (c : Nat) (f : RF) (g : IF) (a b : Rn) (x y z : TWord),
    reg t c f.a = x → reg t c f.b = y → reg t c g.ra.toNat = z →
    (AtInsn s t c (encR 0x01 f 0) → f.rd2 = 0 →
      (x.tag = tINT → y.tag = tINT → in64 (sval x + sval y) = true → Delivers (.add c f) s t c f.d (wInt (sval x + sval y))) ∧
      (x.tag = tINT → y.tag = tINT → in64 (sval x + sval y) = false → deliverNum t c f.d (sval x + sval y) 1 24 = .done u →
        Retires (.add c f) s t u c) ∧
      (isRational x = true → isRational y = true → ¬ (x.tag = tINT ∧ y.tag = tINT) → readNum t c x = .ok t1 a → readNum t1 c y = .ok t2 b →
        deliverNum t2 c f.d (a.n * b.d + b.n * a.d) (a.d * b.d) (sumReserve a b) = .done u → Retires (.add c f) s t u c) ∧
      (x.tag = tMONEY → y.tag = tMONEY → in64 (sval x + sval y) = true → Delivers (.add c f) s t c f.d (wMoney (sval x + sval y))) ∧
      (((x.tag = tTIME ∧ y.tag = tINT) ∨ (x.tag = tINT ∧ y.tag = tTIME)) → 0 ≤ sval x + sval y → sval x + sval y < 2 ^ 63 →
        Delivers (.add c f) s t c f.d ⟨tTIME, BitVec.ofInt 64 (sval x + sval y)⟩)) ∧
    (AtInsn s t c (encR 0x01 f 1) → f.rd2 = 0 →
      (x.tag = tINT → y.tag = tINT → in64 (sval x - sval y) = true → Delivers (.sub c f) s t c f.d (wInt (sval x - sval y))) ∧
      (x.tag = tINT → y.tag = tINT → in64 (sval x - sval y) = false → deliverNum t c f.d (sval x - sval y) 1 24 = .done u →
        Retires (.sub c f) s t u c) ∧
      (isRational x = true → isRational y = true → ¬ (x.tag = tINT ∧ y.tag = tINT) → readNum t c x = .ok t1 a → readNum t1 c y = .ok t2 b →
        deliverNum t2 c f.d (a.n * b.d - b.n * a.d) (a.d * b.d) (sumReserve a b) = .done u → Retires (.sub c f) s t u c) ∧
      (x.tag = tMONEY → y.tag = tMONEY → in64 (sval x - sval y) = true → Delivers (.sub c f) s t c f.d (wMoney (sval x - sval y))) ∧
      (x.tag = tTIME → y.tag = tINT → 0 ≤ sval x - sval y → sval x - sval y < 2 ^ 63 →
        Delivers (.sub c f) s t c f.d ⟨tTIME, BitVec.ofInt 64 (sval x - sval y)⟩) ∧
      (x.tag = tTIME → y.tag = tTIME → Delivers (.sub c f) s t c f.d (wInt (sval x - sval y)))) ∧
    (AtInsn s t c (encI 0x02 g) →
      (z.tag = tINT → in64 (sval z + g.imm.toInt) = true → Delivers (.addi c g) s t c g.rd.toNat (wInt (sval z + g.imm.toInt))) ∧
      (z.tag = tINT → in64 (sval z + g.imm.toInt) = false → deliverNum t c g.rd.toNat (sval z + g.imm.toInt) 1 24 = .done u →
        Retires (.addi c g) s t u c) ∧
      (isRational z = true → z.tag ≠ tINT → readNum t c z = .ok t1 a →
        deliverNum t1 c g.rd.toNat (a.n + g.imm.toInt * a.d) a.d (sumReserve a ⟨g.imm.toInt, 1, 1, 1⟩) = .done u →
        Retires (.addi c g) s t u c) ∧
      (z.tag = tTIME → 0 ≤ sval z + g.imm.toInt → sval z + g.imm.toInt < 2 ^ 63 →
        Delivers (.addi c g) s t c g.rd.toNat ⟨tTIME, BitVec.ofInt 64 (sval z + g.imm.toInt)⟩))

/-- MUL, DIV and MDIVI complete on every operand form of Tables 7.6 and 7.7: MUL of INTs in range and outside it, of rationals,
of MONEY by an integer on either side, of MONEY by a RATIO with the quotient to rd and the breakage numerator to
rd2 (R194); DIV of rationals by a number that is not 0; MDIVI of MONEY by INT, MONEY by MONEY and INT by INT, truncating towards 0
with the remainder to rd2. -/
def Obligations.ProductsComplete : Prop :=
  ∀ (s t u t1 t2 : State) (c : Nat) (f : RF) (a b : Rn) (x y : TWord),
    reg t c f.a = x → reg t c f.b = y →
    (AtInsn s t c (encR 0x01 f 2) → f.rd2 ≠ f.rd →
      (x.tag = tINT → y.tag = tINT → in64 (sval x * sval y) = true → Delivers (.mul c f) s t c f.d (wInt (sval x * sval y))) ∧
      (x.tag = tINT → y.tag = tINT → in64 (sval x * sval y) = false → deliverNum t c f.d (sval x * sval y) 1 24 = .done u →
        Retires (.mul c f) s t u c) ∧
      (isRational x = true → isRational y = true → ¬ (x.tag = tINT ∧ y.tag = tINT) → readNum t c x = .ok t1 a → readNum t1 c y = .ok t2 b →
        deliverNum t2 c f.d (a.n * b.n) (a.d * b.d) (mulReserve a b) = .done u → Retires (.mul c f) s t u c) ∧
      (∀ n l, x.tag = tMONEY → isInteger y = true → readInt t c y = .ok t1 (n, l) → in64 (sval x * n) = true →
        destBad t1 c f.d (wMoney (sval x * n)) = false → Retires (.mul c f) s t (putReg t1 c f.d (wMoney (sval x * n))) c) ∧
      (∀ n l, isInteger x = true → y.tag = tMONEY → readInt t c x = .ok t1 (n, l) → in64 (sval y * n) = true →
        destBad t1 c f.d (wMoney (sval y * n)) = false → Retires (.mul c f) s t (putReg t1 c f.d (wMoney (sval y * n))) c) ∧
      (x.tag = tMONEY → y.tag = tRATIO → readNum t c y = .ok t1 b →
        (reg t1 c 31).val.toNat + 8 * (b.ld + 1) ≤ (getCore t1 c).alimit.val.toNat → in64 (Int.tdiv (sval x * b.n) b.d) = true →
        allocDeliver t1 c (8 * (b.ld + 1)) false (intPlan (reg t1 c 31).val.toNat (Int.tmod (sval x * b.n) b.d)).2.1
          [(f.d, wMoney (Int.tdiv (sval x * b.n) b.d)), (f.e, (intPlan (reg t1 c 31).val.toNat (Int.tmod (sval x * b.n) b.d)).1)] = .done u →
        Retires (.mul c f) s t u c) ∧
      (x.tag = tRATIO → y.tag = tMONEY → readNum t c x = .ok t1 b →
        (reg t1 c 31).val.toNat + 8 * (b.ld + 1) ≤ (getCore t1 c).alimit.val.toNat → in64 (Int.tdiv (sval y * b.n) b.d) = true →
        allocDeliver t1 c (8 * (b.ld + 1)) false (intPlan (reg t1 c 31).val.toNat (Int.tmod (sval y * b.n) b.d)).2.1
          [(f.d, wMoney (Int.tdiv (sval y * b.n) b.d)), (f.e, (intPlan (reg t1 c 31).val.toNat (Int.tmod (sval y * b.n) b.d)).1)] = .done u →
        Retires (.mul c f) s t u c)) ∧
    (AtInsn s t c (encR 0x01 f 3) → f.rd2 = 0 →
      isRational x = true → isRational y = true → readNum t c x = .ok t1 a → readNum t1 c y = .ok t2 b → b.n ≠ 0 →
      deliverNum t2 c f.d (a.n * b.d) (a.d * b.n) (divReserve a b) = .done u → Retires (.div c f) s t u c) ∧
    (AtInsn s t c (encR 0x01 f 4) → f.rd2 ≠ f.rd → sval y ≠ 0 →
      (x.tag = tMONEY → y.tag = tINT → in64 (Int.tdiv (sval x) (sval y)) = true →
        destBad t c f.d (wMoney (Int.tdiv (sval x) (sval y))) = false → destBad t c f.e (wMoney (Int.tmod (sval x) (sval y))) = false →
        Retires (.mdivi c f) s t (putReg (putReg t c f.d (wMoney (Int.tdiv (sval x) (sval y)))) c f.e (wMoney (Int.tmod (sval x) (sval y)))) c) ∧
      (x.tag = tMONEY → y.tag = tMONEY →
        allocDeliver t c 24 false (intPlan (reg t c 31).val.toNat (Int.tdiv (sval x) (sval y))).2.1
          [(f.d, (intPlan (reg t c 31).val.toNat (Int.tdiv (sval x) (sval y))).1), (f.e, wMoney (Int.tmod (sval x) (sval y)))] = .done u →
        Retires (.mdivi c f) s t u c) ∧
      (x.tag = tINT → y.tag = tINT →
        allocDeliver t c 24 false (intPlan (reg t c 31).val.toNat (Int.tdiv (sval x) (sval y))).2.1
          [(f.d, (intPlan (reg t c 31).val.toNat (Int.tdiv (sval x) (sval y))).1), (f.e, wInt (Int.tmod (sval x) (sval y)))] = .done u →
        Retires (.mdivi c f) s t u c))

/-- CMP and CMPI complete on every operand form of Table 7.8: rationals by value, MONEY with MONEY and TIME with TIME as signed
payloads, CHAR, BOOL, SYMBOL and NIL with their own tag as unsigned payloads; the result is the INT −1, 0 or +1 (R190). -/
def Obligations.ComparisonsComplete : Prop :=
  ∀ (s t t1 t2 : State) (c : Nat) (f : RF) (g : IF) (a b : Rn) (x y z : TWord),
    reg t c f.a = x → reg t c f.b = y → reg t c g.ra.toNat = z →
    (AtInsn s t c (encR 0x01 f 5) → f.rd2 = 0 →
      (x.tag = tINT → y.tag = tINT →
        Delivers (.cmp c f) s t c f.d (wInt (if sval x < sval y then -1 else if sval x = sval y then 0 else 1))) ∧
      (isRational x = true → isRational y = true → readNum t c x = .ok t1 a → readNum t1 c y = .ok t2 b →
        destBad t2 c f.d wNil = false →
        Retires (.cmp c f) s t (putReg t2 c f.d
          (wInt (if a.n * b.d < b.n * a.d then -1 else if a.n * b.d = b.n * a.d then 0 else 1))) c) ∧
      (x.tag = y.tag → x.tag = tMONEY ∨ x.tag = tTIME →
        Delivers (.cmp c f) s t c f.d (wInt (if sval x < sval y then -1 else if sval x = sval y then 0 else 1))) ∧
      (x.tag = y.tag → x.tag = tCHAR ∨ x.tag = tBOOL ∨ x.tag = tSYMBOL ∨ x.tag = tNIL →
        Delivers (.cmp c f) s t c f.d
          (wInt (if x.val.toNat < y.val.toNat then -1 else if x.val.toNat = y.val.toNat then 0 else 1)))) ∧
    (AtInsn s t c (encI 0x03 g) →
      (z.tag = tINT →
        Delivers (.cmpi c g) s t c g.rd.toNat (wInt (if sval z < g.imm.toInt then -1 else if sval z = g.imm.toInt then 0 else 1))) ∧
      (isRational z = true → readNum t c z = .ok t1 a → destBad t1 c g.rd.toNat wNil = false →
        Retires (.cmpi c g) s t (putReg t1 c g.rd.toNat
          (wInt (if a.n < g.imm.toInt * a.d then -1 else if a.n = g.imm.toInt * a.d then 0 else 1))) c))

/-- The BIT instructions complete on INT with INT and RAW with RAW, the shifts also on RAW with an INT amount, of which the low six
bits count; the result keeps the tag of the first operand (R213). ANDI and ORI zero-extend their immediate (R215); SHI takes its
amount from imm[5:0] and its kind from imm[7:6] (R215). The MISC and immediate instructions complete: MOV carries any word; TAG gives the tag as an INT; NOP changes nothing; LI and LIX
build INTs 16 bits at a time; RETAG changes the tag where Table 7.3 and the payload allow it (R216); TYPEP tests a tag or a class
(R191); ADDP offsets a base (R220). -/
def Obligations.BitOperationsAndMovesComplete : Prop :=
  (∀ (s t : State) (c : Nat) (f : RF) (g : IF) (x y z : TWord),
    reg t c f.a = x → reg t c f.b = y → reg t c g.ra.toNat = z →
    (f.rd2 = 0 → x.tag = tINT ∨ x.tag = tRAW → x.tag = y.tag →
      (AtInsn s t c (encR 0x04 f 0) → Delivers (.and c f) s t c f.d ⟨x.tag, x.val &&& y.val⟩) ∧
      (AtInsn s t c (encR 0x04 f 1) → Delivers (.or c f) s t c f.d ⟨x.tag, x.val ||| y.val⟩) ∧
      (AtInsn s t c (encR 0x04 f 2) → Delivers (.xor c f) s t c f.d ⟨x.tag, x.val ^^^ y.val⟩) ∧
      (AtInsn s t c (encR 0x04 f 3) → Delivers (.andn c f) s t c f.d ⟨x.tag, x.val &&& ~~~y.val⟩)) ∧
    (f.rd2 = 0 → (x.tag = y.tag ∧ (x.tag = tINT ∨ x.tag = tRAW)) ∨ (x.tag = tRAW ∧ y.tag = tINT) →
      (AtInsn s t c (encR 0x04 f 4) → Delivers (.sll c f) s t c f.d ⟨x.tag, x.val <<< (y.val.toNat % 64)⟩) ∧
      (AtInsn s t c (encR 0x04 f 5) → Delivers (.srl c f) s t c f.d ⟨x.tag, x.val >>> (y.val.toNat % 64)⟩) ∧
      (AtInsn s t c (encR 0x04 f 6) → Delivers (.sra c f) s t c f.d ⟨x.tag, x.val.sshiftRight (y.val.toNat % 64)⟩)) ∧
    (z.tag = tINT ∨ z.tag = tRAW →
      (AtInsn s t c (encI 0x05 g) → Delivers (.andi c g) s t c g.rd.toNat ⟨z.tag, z.val &&& BitVec.ofNat 64 g.imm.toNat⟩) ∧
      (AtInsn s t c (encI 0x06 g) → Delivers (.ori c g) s t c g.rd.toNat ⟨z.tag, z.val ||| BitVec.ofNat 64 g.imm.toNat⟩) ∧
      (AtInsn s t c (encI 0x07 g) →
        (g.imm.toNat < 64 → Delivers (.shi c g) s t c g.rd.toNat ⟨z.tag, z.val <<< g.imm.toNat⟩) ∧
        (64 ≤ g.imm.toNat → g.imm.toNat < 128 → Delivers (.shi c g) s t c g.rd.toNat ⟨z.tag, z.val >>> (g.imm.toNat - 64)⟩) ∧
        (128 ≤ g.imm.toNat → g.imm.toNat < 192 → Delivers (.shi c g) s t c g.rd.toNat ⟨z.tag, z.val.sshiftRight (g.imm.toNat - 128)⟩)))) ∧
  (∀ (s t : State) (c : Nat) (f : RF) (g : IF) (x : TWord),
    (AtInsn s t c (encR 0x0E f 0) → f.rb = 0 → f.rd2 = 0 → Delivers (.mov c f) s t c f.d (reg t c f.a)) ∧
    (AtInsn s t c (encR 0x0E f 1) → f.rb = 0 → f.rd2 = 0 → Delivers (.tag c f) s t c f.d (wInt (reg t c f.a).tag.toNat)) ∧
    (AtInsn s t c (encR 0x0E f 2) → f = ⟨0, 0, 0, 0⟩ → Retires (.nop c f) s t t c) ∧
    (AtInsn s t c (encI 0x08 g) → g.ra = 0 → Delivers (.li c g) s t c g.rd.toNat (wInt g.imm.toInt)) ∧
    (AtInsn s t c (encI 0x09 g) → g.ra = 0 → reg t c g.rd.toNat = x → x.tag = tINT →
      Delivers (.lix c g) s t c g.rd.toNat ⟨tINT, (x.val <<< 16) ||| BitVec.ofNat 64 g.imm.toNat⟩) ∧
    (AtInsn s t c (encI 0x0A g) → reg t c g.ra.toNat = x → ∀ w : BitVec 8, g.imm.toNat = w.toNat → w ∈ allTags → payloadOk w x.val = true →
      x.tag ≠ tPOISON → x.tag ≠ tUNBOUND → retagOk (lvlOf t c) w (x.val.toNat / 2 ^ 56 == (getCore t c).asid / 4) = true →
      ¬ (lvlOf t c = 0 ∧ x.tag ∈ sealedTags) → Delivers (.retag c g) s t c g.rd.toNat ⟨w, x.val⟩) ∧
    (AtInsn s t c (encI 0x0B g) → reg t c g.ra.toNat = x →
      (g.imm.toNat = 0xE0 → Delivers (.typep c g) s t c g.rd.toNat (wBool (decide (x.tag = tINT ∨ x.tag = tBIGNUM ∨ x.tag = tRATIO)))) ∧
      (g.imm.toNat = 0xE1 → Delivers (.typep c g) s t c g.rd.toNat (wBool (decide (x.tag = tINT ∨ x.tag = tBIGNUM)))) ∧
      (g.imm.toNat = 0xE2 → Delivers (.typep c g) s t c g.rd.toNat (wBool (decide (x.tag ∈ heapTags)))) ∧
      (g.imm.toNat = 0xE3 → Delivers (.typep c g) s t c g.rd.toNat (wBool (decide (x.tag = tCONS ∨ x.tag = tNIL)))) ∧
      (g.imm.toNat = 0xE4 → Delivers (.typep c g) s t c g.rd.toNat (wBool (decide (x.tag.toNat ≤ 7)))) ∧
      (∀ w ∈ allTags, g.imm.toNat = w.toNat → Delivers (.typep c g) s t c g.rd.toNat (wBool (decide (x.tag = w))))) ∧
    (AtInsn s t c (encI 0x14 g) → reg t c g.ra.toNat = x → g.imm.toNat % 8 = 0 → x.tag ∈ baseTags (lvlOf t c) → x.tag ≠ tPOISON →
      x.tag ≠ tUNBOUND → 0 ≤ x.val.toNat + g.imm.toInt → x.val.toNat + g.imm.toInt < 2 ^ 48 →
      (x.val.toNat + g.imm.toInt).toNat % 8 = 0 →
      Delivers (.addp c g) s t c g.rd.toNat (tw x.tag (x.val.toNat + g.imm.toInt).toNat)))

/-- The LIST instructions complete (R222, R198, R199): CAR and CDR of NIL are NIL, of a CONS the words of the cell under the load
checks of `SlotAccess`; CONS allocates a cell of 16 bytes; SETCAR and SETCDR store any word; LEN counts the cells of a list, or gives
the element count of a VECTOR and the byte length of a STRING; IDHASH gives the identity number of an object's header. -/
def Obligations.ListInstructionsComplete : Prop :=
  ∀ (s t t1 t2 u : State) (c : Nat) (f : RF) (x v w : TWord) (a n l : Nat),
    reg t c f.a = x → reg t c f.b = v →
    (f.rb = 0 → f.rd2 = 0 → x.tag = tNIL →
      (AtInsn s t c (encR 0x0C f 0) → Delivers (.car c f) s t c f.d wNil) ∧
      (AtInsn s t c (encR 0x0C f 1) → Delivers (.cdr c f) s t c f.d wNil) ∧
      (AtInsn s t c (encR 0x0C f 5) → Delivers (.len c f) s t c f.d (wInt 0))) ∧
    (f.rb = 0 → f.rd2 = 0 → x.tag = tCONS → ptrOk x.val = true → destBad t1 c f.d w = false →
      (AtInsn s t c (encR 0x0C f 0) → loadSlot t c f.d x.val.toNat 64 = .ok t1 w →
        Retires (.car c f) s t (putReg t1 c f.d w) c) ∧
      (AtInsn s t c (encR 0x0C f 1) → x.val.toNat + 8 < 2 ^ 48 → loadSlot t c f.d (x.val.toNat + 8) 64 = .ok t1 w →
        Retires (.cdr c f) s t (putReg t1 c f.d w) c)) ∧
    (f.rd2 = 0 → (∀ z ∈ [x, v], z.tag ≠ tPOISON ∧ z.tag ≠ tUNBOUND) → AtInsn s t c (encR 0x0C f 2) →
      allocDeliver t c 16 true [⟨none, [x, v]⟩] [(f.d, ⟨tCONS, (reg t c 31).val⟩)] = .done u → Retires (.cons c f) s t u c) ∧
    (f.rd = 0 → f.rd2 = 0 → x.tag = tCONS → ptrOk x.val = true →
      (AtInsn s t c (encR 0x0C f 3) → stWord t c x.val.toNat v 64 = .ok u () → Retires (.setcar c f) s t u c) ∧
      (AtInsn s t c (encR 0x0C f 4) → x.val.toNat + 8 < 2 ^ 48 → stWord t c (x.val.toNat + 8) v 64 = .ok u () →
        Retires (.setcdr c f) s t u c)) ∧
    (f.rb = 0 → f.rd2 = 0 → AtInsn s t c (encR 0x0C f 5) → destBad t1 c f.d wNil = false →
      (x.tag = tCONS → lenCells 16777216 t c x 0 = .ok t1 n → Retires (.len c f) s t (putReg t1 c f.d (wInt n)) c) ∧
      (x.tag = tVECTOR → objHeader t c x = .ok t1 (a, n) → Retires (.len c f) s t (putReg t1 c f.d (wInt n)) c) ∧
      (x.tag = tSTRING → strLen t c x = .ok t1 (a, n) → Retires (.len c f) s t (putReg t1 c f.d (wInt n)) c)) ∧
    (f.rb = 0 → f.rd2 = 0 → AtInsn s t c (encR 0x0C f 6) → x.tag ∈ [tVECTOR, tSTRING, tBIGNUM, tRECORD, tCLOSURE, tRATIO] →
      objHeader t c x = .ok t1 (a, l) → objWord t1 c a 0 = .ok t2 w → destBad t2 c f.d wNil = false →
      Retires (.idhash c f) s t (putReg t2 c f.d (wInt (hdrIdent w))) c)

/-- The OBJ instructions complete (R223): VREF and VSET read and write a body word of a VECTOR, a RECORD or, above U, a CLOSURE, but
not word 0 of a RECORD by VSET; SREF and SSET a byte of a STRING; MAKEV, MAKER and MAKES allocate an object at ALLOC with its header
and initial body. -/
def Obligations.ObjectInstructionsComplete : Prop :=
  ∀ (s t t1 t2 u : State) (c : Nat) (f : RF) (x i v w : TWord) (a : Nat),
    reg t c f.a = x → reg t c f.b = i → f.rd2 = 0 → i.tag = tINT →
    (x.tag = tVECTOR ∨ x.tag = tRECORD ∨ (x.tag = tCLOSURE ∧ lvlOf t c ≠ 0) → bodyAddr t c x i = .ok t1 a →
      (AtInsn s t c (encR 0x0D f 0) → loadSlot t1 c f.d a 64 = .ok t2 w → destBad t2 c f.d w = false →
        Retires (.vref c f) s t (putReg t2 c f.d w) c) ∧
      (AtInsn s t c (encR 0x0D f 1) → ¬ (x.tag = tRECORD ∧ i.val = 0) → stWord t1 c a (reg t c f.d) 64 = .ok u () →
        Retires (.vset c f) s t u c)) ∧
    (x.tag = tSTRING → strWord t c x i = .ok t1 (a, w) →
      (AtInsn s t c (encR 0x0D f 2) → destBad t1 c f.d wNil = false →
        Retires (.sref c f) s t (putReg t1 c f.d (wInt (getByte w.val (i.val.toNat % 8)))) c) ∧
      (AtInsn s t c (encR 0x0D f 3) → reg t c f.d = v → v.tag = tINT → v.val.toNat ≤ 255 →
        stWord t1 c a ⟨tRAW, setByte w.val (i.val.toNat % 8) v.val.toNat⟩ 64 = .ok u () → Retires (.sset c f) s t u c)) ∧
    (AtInsn s t c (encR 0x0D f 4) → x.tag ≠ tPOISON → x.tag ≠ tUNBOUND → i.val.toNat ≤ 65535 →
      allocDeliver t c (8 * (i.val.toNat + 1)) true [⟨some 0x11, List.replicate i.val.toNat x⟩] [(f.d, ⟨tVECTOR, (reg t c 31).val⟩)] = .done u →
      Retires (.makev c f) s t u c) ∧
    (AtInsn s t c (encR 0x0D f 5) → x.tag = tSYMBOL → i.val.toNat ≤ 65534 →
      allocDeliver t c (8 * (i.val.toNat + 2)) false [⟨some 0x14, x :: List.replicate i.val.toNat wNil⟩] [(f.d, ⟨tRECORD, (reg t c 31).val⟩)] = .done u →
      Retires (.maker c f) s t u c) ∧
    (AtInsn s t c (encR 0x0D f 6) → f.ra = 0 → i.val.toNat ≤ 524272 →
      allocDeliver t c (8 * ((i.val.toNat + 7) / 8 + 2)) false
        [⟨some 0x12, wInt i.val.toNat :: List.replicate ((i.val.toNat + 7) / 8) wZero⟩] [(f.d, ⟨tSTRING, (reg t c 31).val⟩)] = .done u →
      Retires (.makes c f) s t u c)

/-- The MEM instructions complete (R218, R219, R221). The address is the base's payload plus the sign-extended immediate; the base carries a base
tag of its level and, unless RAW, obeys R177. LD and LDA deliver the word of the slot, ST and STR store the register as it stands,
with the memory system's events (`ev`) counted first; LDB and STB, above U only, read and write one byte of a RAW word. What the
slot accesses themselves do is stated in `SlotAccess` and `Translation`. -/
def Obligations.LoadsAndStoresComplete : Prop :=
  ∀ (s t t0 t1 t2 u : State) (c a : Nat) (g : IF) (ev : List MemEv) (x v w : TWord) (y : Xl),
    x.tag ∈ baseTags (lvlOf t0 c) → (x.tag = tRAW ∨ ptrOk x.val = true) → (a : Int) = x.val.toNat + g.imm.toInt → a < 2 ^ 48 →
    (g.imm.toNat % 8 = 0 → memEvents t c ev = (t0, none) → (getCore t0 c).runs = true → MemEv.noResp ∉ ev →
      reg t0 c g.ra.toNat = x →
      (alignChk t0 c a kLOAD = .ok t0 a → loadSlot t0 c g.rd.toNat a 32 = .ok t1 w → destBad t1 c g.rd.toNat w = false →
        (AtInsn s t c (encI 0x10 g) → Retires (.ld c g ev) s t (putReg t1 c g.rd.toNat w) c) ∧
        (AtInsn s t c (encI 0x12 g) → Retires (.lda c g ev) s t (putReg t1 c g.rd.toNat w) c)) ∧
      (alignChk t0 c a kSTORE = .ok t0 a → stWord t0 c a (reg t0 c g.rd.toNat) 32 = .ok u () →
        (AtInsn s t c (encI 0x11 g) → Retires (.st c g ev) s t u c) ∧
        (AtInsn s t c (encI 0x13 g) → Retires (.str c g ev) s t u c))) ∧
    (t0 = t → lvlOf t c ≠ 0 → reg t c g.ra.toNat = x →
      (AtInsn s t c (encI 0x15 g) → ldWord t c (a - a % 8) kLOAD 8 = .ok t1 (y, w) → w.tag = tRAW → destBad t1 c g.rd.toNat wNil = false →
        Retires (.ldb c g) s t (putReg t1 c g.rd.toNat (wInt (getByte w.val (a % 8)))) c) ∧
      (AtInsn s t c (encI 0x16 g) → reg t c g.rd.toNat = v → v.tag = tINT → v.val.toNat ≤ 255 →
        xlate t c (a - a % 8) kSTORE = .ok t1 y → rdAt t1 c y 8 = .ok t2 w → w.tag = tRAW →
        wrAt t2 c y ⟨tRAW, setByte w.val (a % 8) v.val.toNat⟩ 8 = .ok u () → Retires (.stb c g) s t u c))

/-- SM and LM complete (R229 to R231). The base's address and the mask's registers in ascending order give the slots; STATUS.LMPROG of them are
already done. All remaining slots are probed before any is moved. Uninterrupted, all are moved, LMPROG returns to 0 and the instruction retires;
with an interrupt after n slots, n are moved, LMPROG advances by n and the pc stays. -/
def Obligations.MultipleRegistersComplete : Prop :=
  ∀ (s t t1 u : State) (c a : Nat) (f : RF) (b m : TWord) (ps : List (Nat × Xl × TWord)) (n : Nat),
    reg t c f.a = b → reg t c f.b = m → f.rd = 0 → f.rd2 = 0 → m.tag = tINT → m.val.toNat < 2 ^ 32 → b.tag ≠ tPOISON → b.tag ≠ tUNBOUND →
    (AtInsn s t c (encR 0x17 f 0) → wordAddr t c b 0 kSTORE = .ok t a →
      Acs.each (fun s p => probe s c false p) (slotList m.val.toNat a (getCore t c).lmprog) t = .ok t1 ps →
      (wrAll t1 c (ps.map (fun p => (p.2.1, p.2.2))) = .ok u () → Retires (.sm c f none) s t (setProg u c 0) c) ∧
      (0 < n → n < ps.length → wrAll t1 c ((ps.take n).map (fun p => (p.2.1, p.2.2))) = .ok u () →
        exec (.sm c f (some n)) s = .next (setProg u c ((getCore u c).lmprog + n)))) ∧
    (AtInsn s t c (encR 0x17 f 1) → bit m.val.toNat f.a = false → bit m.val.toNat f.b = false → ¬ (lvlOf t c = 0 ∧ bit m.val.toNat 30 = true) →
      wordAddr t c b 0 kLOAD = .ok t a →
      Acs.each (fun s p => probe s c true p) (slotList m.val.toNat a (getCore t c).lmprog) t = .ok t1 ps →
      Retires (.lm c f none) s t (setProg (putRegs t1 c (ps.map (fun p => (p.1, p.2.2)))) c 0) c ∧
      (0 < n → n < ps.length → ∀ v, v = putRegs t1 c ((ps.take n).map (fun p => (p.1, p.2.2))) →
        exec (.lm c f (some n)) s = .next (setProg v c ((getCore v c).lmprog + n))))

/-- The context instructions complete above U (R232 to R235). SAVEL and SAVEH write word 0 (a SAVELINK of CTXHEAD), word 1 (the
dirty groups and the half) and the dirty groups of the half into the save area that ra names, and CTXHEAD then holds that area. LOADL and LOADH load from the area of
CTXHEAD the groups that its word 1 records, clear both DIRTY bits of the half, and follow the link. -/
def Obligations.SaveAreasComplete : Prop :=
  ∀ (s t t1 t2 : State) (c half : Nat) (f : RF) (w w0 w1 : TWord) (xs : List Xl) (ws : List TWord) (i j : Instr),
    half < 2 → lvlOf t c ≠ 0 → f.rd = 0 → f.rb = 0 → f.rd2 = 0 → i = (if half = 0 then .savel c f else .saveh c f) →
    j = (if half = 0 then .loadl c f else .loadh c f) →
    (AtInsn s t c (encR 0x18 f half) → reg t c f.a = w → w.tag = tRAW ∨ w.tag = tSTACKPTR → areaXl t c w.val kSTORE = .ok t1 xs →
      wrAll t1 c ((xs.zipIdx).filterMap (fun p =>
        (if p.2 = 0 then some ⟨tSAVELINK, (getCore t1 c).ctxhead.val⟩
         else if p.2 = 1 then some (tw tRAW (bits (getCore t1 c).status (8 + 2 * half) 2 + 256 * half))
         else if bit (bits (getCore t1 c).status (8 + 2 * half) 2) ((p.2 - 2) / 8) then (getCore t1 c).regs[half * 16 + p.2 - 2]?
         else none).map (fun v => (p.1, v)))) = .ok t2 () →
      Retires i s t (updCore t2 c (fun k => { k with ctxhead := ⟨tRAW, w.val⟩ })) c) ∧
    (AtInsn s t c (encR 0x18 f (2 + half)) → f.ra = 0 → areaXl t c (getCore t c).ctxhead.val kLOAD = .ok t1 xs →
      Acs.each (fun s x => rdAt s c x 64) xs t1 = .ok t2 ws → ws[0]? = some w0 → ws[1]? = some w1 → w0.tag = tSAVELINK → w1.tag = tRAW →
      bits w1.val.toNat 8 1 = half →
      Retires j s t (updCore t2 c (fun k =>
        { k with regs := k.regs.mapIdx (fun n r => if n / 16 = half ∧ bit (bits w1.val.toNat 0 2) (n % 16 / 8) = true then (ws[2 + n % 16]?).getD r else r)
                 status := setBits k.status (8 + 2 * half) 2 0, ctxhead := ⟨tRAW, w0.val⟩ })) c)

/-- R225: each conditional branch consumes its operands, goes to pc + 4 × offset modulo 2^48 where its condition of Table 8.7 holds and
to the next instruction where it does not, and writes nothing else; an operand tag that the table refuses is a tag trap TYPE. -/
def Obligations.BranchesComplete : Prop :=
  ∀ (s t : State) (c : Nat) (f : BF) (x y : TWord) (a : Nat),
    reg t c f.ra.toNat = x → reg t c f.rb.toNat = y → a = (((getCore t c).pc + 4 * f.off.toInt) % 2 ^ 48).toNat →
    x.tag ≠ tPOISON → x.tag ≠ tUNBOUND →
    (y.tag ≠ tPOISON → y.tag ≠ tUNBOUND →
      (AtInsn s t c (encB 0x20 f) → exec (.beq c f) s = .next (if x = y then jumped t t c a else retired t t c)) ∧
      (AtInsn s t c (encB 0x21 f) → exec (.bne c f) s = .next (if x ≠ y then jumped t t c a else retired t t c)) ∧
      (AtInsn s t c (encB 0x22 f) → x.tag = tINT → y.tag = tINT →
        exec (.blt c f) s = .next (if x.val.toInt < y.val.toInt then jumped t t c a else retired t t c)) ∧
      (AtInsn s t c (encB 0x23 f) → x.tag = tINT → y.tag = tINT →
        exec (.bge c f) s = .next (if x.val.toInt ≥ y.val.toInt then jumped t t c a else retired t t c)) ∧
      (AtInsn s t c (encB 0x22 f) → ¬ (x.tag = tINT ∧ y.tag = tINT) → Traps (.blt c f) s t c (tagTrap rTYPE)) ∧
      (AtInsn s t c (encB 0x23 f) → ¬ (x.tag = tINT ∧ y.tag = tINT) → Traps (.bge c f) s t c (tagTrap rTYPE))) ∧
    (f.rb = 0 →
      (AtInsn s t c (encB 0x24 f) → x.tag = tBOOL → exec (.bt c f) s = .next (if x.val = 1 then jumped t t c a else retired t t c)) ∧
      (AtInsn s t c (encB 0x25 f) → x.tag = tBOOL → exec (.bf c f) s = .next (if x.val ≠ 1 then jumped t t c a else retired t t c)) ∧
      (AtInsn s t c (encB 0x26 f) → exec (.bnil c f) s = .next (if x.tag = tNIL then jumped t t c a else retired t t c)) ∧
      (AtInsn s t c (encB 0x27 f) → exec (.bnnil c f) s = .next (if x.tag ≠ tNIL then jumped t t c a else retired t t c)) ∧
      (AtInsn s t c (encB 0x24 f) → x.tag ≠ tBOOL → Traps (.bt c f) s t c (tagTrap rTYPE)) ∧
      (AtInsn s t c (encB 0x25 f) → x.tag ≠ tBOOL → Traps (.bf c f) s t c (tagTrap rTYPE)))

/-- R226 to R228: J and JR continue at their target and write nothing; CALL and CALLR write RETADDR(pc + 4) to LINK (w28), push it on the shadow stack at SSP − 8, set SSP and
continue at the target; RET compares LINK with the word at SSP in all 72 bits, pops and continues at LINK's payload where they are identical, and raises a
shadow-stack mismatch and pops nothing where they differ or LINK is no RETADDR. A jump register without tag RETADDR is a tag trap TYPE. -/
def Obligations.JumpsComplete : Prop :=
  ∀ (s t t1 t2 t3 : State) (c a : Nat) (f : RF) (off : BitVec 26) (x w link top : TWord) (p : Nat) (y : Xl) (ssp : TWord),
    a = (((getCore t c).pc + 4 * off.toInt) % 2 ^ 48).toNat → (getCore t c).ssp = ssp → w = tw tRETADDR ((getCore t c).pc + 4) →
    (AtInsn s t c (encJ 0x28 off) → exec (.j c off) s = .next (jumped t t c a)) ∧
    (f.rd = 0 → f.rb = 0 → f.rd2 = 0 → reg t c f.a = x → x.tag = tRETADDR → retOk x.val = true →
      AtInsn s t c (encR 0x2A f 0) → exec (.jr c f) s = .next (jumped t t c x.val.toNat)) ∧
    (f.rd = 0 → f.rb = 0 → f.rd2 = 0 → reg t c f.a = x → x.tag ≠ tRETADDR → x.tag ≠ tPOISON → x.tag ≠ tUNBOUND →
      (AtInsn s t c (encR 0x2A f 0) → Traps (.jr c f) s t c (tagTrap rTYPE)) ∧
      (AtInsn s t c (encR 0x2A f 1) → Traps (.callr c f) s t c (tagTrap rTYPE))) ∧
    (ptrOk ssp.val = true → ssp.val.toNat = p + 8 → xlate t c p kPUSH = .ok t1 y → wrAt t1 c y w 64 = .ok t2 () →
      t3 = putReg (updCore t2 c (fun k => { k with ssp := ⟨ssp.tag, BitVec.ofNat 64 p⟩ })) c 28 w →
      (AtInsn s t c (encJ 0x29 off) → exec (.call c off) s = .next (jumped t3 t c a)) ∧
      (f.rd = 0 → f.rb = 0 → f.rd2 = 0 → reg t c f.a = x → x.tag = tRETADDR → retOk x.val = true →
        AtInsn s t c (encR 0x2A f 1) → exec (.callr c f) s = .next (jumped t3 t c x.val.toNat))) ∧
    (f = ⟨0, 0, 0, 0⟩ → AtInsn s t c (encR 0x2A f 2) → reg t c 28 = link → link.tag ≠ tPOISON → link.tag ≠ tUNBOUND →
      (link.tag = tRETADDR → retOk link.val = true) → ptrOk ssp.val = true → ldWord t c ssp.val.toNat kPOP 64 = .ok t1 (y, top) →
      (link.tag = tRETADDR → link = top →
        exec (.ret c f) s = .next (jumped (updCore t1 c (fun k => { k with ssp := ⟨ssp.tag, ssp.val + 8⟩ })) t c link.val.toNat)) ∧
      (link.tag = tRETADDR → link ≠ top → Traps (.ret c f) s t1 c ⟨cSSMISMATCH, 1, ssp.val.toNat, kPOP, false⟩) ∧
      (link.tag ≠ tRETADDR → Traps (.ret c f) s t1 c ⟨cSSMISMATCH, 2, ssp.val.toNat, kPOP, false⟩))

/-- The SYS instructions (R237, R238, R256, R271 to R273). FENCE and FENCE.I retire above U. RETX restores STATUS with EG, ESI and SR read 0 and MASK 0 on entering U, and continues at the
saved address, from ESTATUS and EPC at S and from MESTATUS and MEPC at M. TLBW replaces what overlaps in its ASID and writes the indexed entry, or with index −1 the entry of the replacement pointer;
TLBI.VA, TLBI.ASID and TLBI.ALL remove the entries they name. At U each raises PRIV_INSN; TLBI.ALL does so at S too. -/
def Obligations.SystemInstructionsComplete : Prop :=
  ∀ (s t : State) (c : Nat) (f : RF) (k : Core) (ret st w idx tg da pt : TWord),
    getCore t c = k →
    (f = ⟨0, 0, 0, 0⟩ → k.level ≠ 0 →
      (AtInsn s t c (encR 0x30 f 0) → Retires (.fence c f) s t t c) ∧
      (AtInsn s t c (encR 0x30 f 1) → Retires (.fenceI c f) s t t c) ∧
      (AtInsn s t c (encR 0x30 f 2) → ret = (if k.level = 2 then k.mepc else k.epc) → st = (if k.level = 2 then k.mestatus else k.estatus) →
        ret.tag = tRETADDR → retOk ret.val = true →
        exec (.retx c f) s = .next (jumped (updCore t c (fun k =>
          { k with status := restored st.val.toNat, restart := if k.level = 1 then false else k.restart })) t c ret.val.toNat))) ∧
    (AtInsn s t c (encR 0x30 f 3) → k.level ≠ 0 → reg t c f.d = idx → reg t c f.a = tg → reg t c f.b = da → reg t c f.e = pt →
      idx.tag = tINT → tg.tag = tRAW → da.tag = tRAW → pt.tag = tRAW → tlbwTrap t c idx tg da pt = none →
      Retires (.tlbw c f) s t (updCore t c (fun k => tlbWrite k (sval idx) (entryOf tg.val da.val pt.val.toNat))) c) ∧
    (f.rd = 0 → f.rb = 0 → f.rd2 = 0 → reg t c f.a = w → rawOrInt w = true → k.level ≠ 0 → (k.level = 1 → bits w.val.toNat 0 8 = k.asid) →
      (AtInsn s t c (encR 0x30 f 4) → Retires (.tlbiVa c f) s t (updCore t c (fun k => { k with tlb := k.tlb.filter (fun p =>
        !(p.2.asid == bits w.val.toNat 0 8 && decide (p.2.va ≤ bits w.val.toNat 13 35 * 0x2000 ∧ bits w.val.toNat 13 35 * 0x2000 < p.2.va + pageBytes p.2.size))) })) c) ∧
      (AtInsn s t c (encR 0x30 f 5) → Retires (.tlbiAsid c f) s t (updCore t c (fun k => { k with tlb := k.tlb.filter (fun p => p.2.asid != bits w.val.toNat 0 8) })) c)) ∧
    (f = ⟨0, 0, 0, 0⟩ → AtInsn s t c (encR 0x30 f 6) → k.level = 2 → Retires (.tlbiAll c f) s t (updCore t c (fun k => { k with tlb := [] })) c) ∧
    (f = ⟨0, 0, 0, 0⟩ → k.level = 0 →
      (AtInsn s t c (encR 0x30 f 0) → Traps (.fence c f) s t c (accFault aPRIV_INSN)) ∧
      (AtInsn s t c (encR 0x30 f 1) → Traps (.fenceI c f) s t c (accFault aPRIV_INSN)) ∧
      (AtInsn s t c (encR 0x30 f 2) → Traps (.retx c f) s t c (accFault aPRIV_INSN)) ∧
      (AtInsn s t c (encR 0x30 f 3) → Traps (.tlbw c f) s t c (accFault aPRIV_INSN)) ∧
      (AtInsn s t c (encR 0x30 f 4) → Traps (.tlbiVa c f) s t c (accFault aPRIV_INSN)) ∧
      (AtInsn s t c (encR 0x30 f 5) → Traps (.tlbiAsid c f) s t c (accFault aPRIV_INSN)) ∧
      (AtInsn s t c (encR 0x30 f 6) → Traps (.tlbiAll c f) s t c (accFault aPRIV_INSN)))

/-- MFCR (R236): at S every register below 0x100 and at M every register of Table 8.11 is delivered; at U, and at S above 0xFF, the
instruction raises PRIV_INSN; an unassigned number is ILLEGAL. -/
def Obligations.ControlRegisterReads : Prop :=
  ∀ (s t : State) (c n : Nat) (g : IF) (k : Core), AtInsn s t c (encI 0x31 g) → g.ra = 0 → g.imm.toNat = n → getCore t c = k →
    (1 ≤ k.level → (k.level = 1 → n < 0x100) → ∀ w : TWord,
      ((n = 0x000 ∧ w = tw tRAW k.status) ∨ (n = 0x001 ∧ w = k.epc) ∨ (n = 0x002 ∧ w = k.estatus) ∨ (n = 0x003 ∧ w = k.tinfo) ∨ (n = 0x004 ∧ w = k.sstack) ∨
       (n = 0x008 ∧ w = k.alimit) ∨ (n = 0x009 ∧ w = k.idctr) ∨ (n = 0x00A ∧ w = k.ctxhead) ∨ (n = 0x00B ∧ w = k.cardbase) ∨
       (∃ i, i < 8 ∧ n = 0x00C + i ∧ w = (k.condemn[i]?).getD wZero) ∨ (n = 0x014 ∧ w = k.ssp) ∨ (n = 0x015 ∧ w = k.uicnt) ∨
       (n = 0x016 ∧ w = wInt (k.outstanding % 256 + (if k.dropped then 256 else 0))) ∨ (n = 0x017 ∧ w = wInt c) ∨
       (n = 0x100 ∧ w = k.mepc) ∨ (n = 0x101 ∧ w = k.mestatus) ∨ (n = 0x102 ∧ w = k.mtinfo) ∨ (n = 0x103 ∧ w = k.mstack) ∨ (n = 0x104 ∧ w = k.ctxwin)) →
      Delivers (.mfcr c g) s t c g.rd.toNat w) ∧
    (n ≤ 4 ∨ (8 ≤ n ∧ n ≤ 0x17) ∨ (0x100 ≤ n ∧ n ≤ 0x104) → k.level = 0 ∨ (k.level = 1 ∧ 0x100 ≤ n) → Traps (.mfcr c g) s t c (accFault aPRIV_INSN)) ∧
    (¬ (n ≤ 4 ∨ (8 ≤ n ∧ n ≤ 0x17) ∨ (0x100 ≤ n ∧ n ≤ 0x104)) → Traps (.mfcr c g) s t c (accFault aILLEGAL))

/-- MTCR (R236, R242, R244, R255): a whole word goes to EPC, ALIMIT, IDCTR, CTXHEAD, CARDBASE, the condemned ranges, SSP, UICNT and MEPC; SSTACK and
MSTACK also end the entry guard of their level; STATUS, ESTATUS and MESTATUS take only the fields of Table 9.3, from a RAW or INT word; CTXWIN takes NIL or a CTXREF that the window may show; IPISEND
sends (R279). At U, at S above 0xFF, and for TINFO, COREID and MTINFO the instruction raises PRIV_INSN. -/
def Obligations.ControlRegisterWrites : Prop :=
  ∀ (s t : State) (c n : Nat) (g : IF) (k : Core) (w : TWord), AtInsn s t c (encI 0x32 g) → g.ra = 0 → g.imm.toNat = n → getCore t c = k →
    reg t c g.rd.toNat = w →
    (1 ≤ k.level → (k.level = 1 → n < 0x100) → w.tag ≠ tPOISON → w.tag ≠ tUNBOUND →
      (∀ k2 : Core,
        ((n = 0x001 ∧ k2 = { k with epc := w }) ∨ (n = 0x008 ∧ k2 = { k with alimit := w }) ∨ (n = 0x009 ∧ k2 = { k with idctr := w }) ∨
         (n = 0x00A ∧ k2 = { k with ctxhead := w }) ∨ (n = 0x00B ∧ k2 = { k with cardbase := w }) ∨
         (∃ i, i < 8 ∧ n = 0x00C + i ∧ k2 = { k with condemn := upd k.condemn i (fun _ => w) }) ∨ (n = 0x014 ∧ k2 = { k with ssp := w }) ∨
         (n = 0x015 ∧ k2 = { k with uicnt := w }) ∨ (n = 0x100 ∧ k2 = { k with mepc := w }) ∨
         (n = 0x004 ∧ k2 = (if k.level = 1 then { k with sstack := w, status := setBits k.status 7 1 0, egCount := 0 } else { k with sstack := w })) ∨
         (n = 0x103 ∧ k.level = 2 ∧ k2 = { k with mstack := w, status := setBits k.status 7 1 0, egCount := 0 }) ∨
         (n = 0x104 ∧ (w.tag = tNIL ∨ (w.tag = tCTXREF ∧ windowOk t c w = true)) ∧ k2 = { k with ctxwin := w })) →
        Retires (.mtcr c g) s t (setCore t c k2) c) ∧
      (w.tag = tRAW ∨ w.tag = tINT →
        (n = 0x000 → Retires (.mtcr c g) s t (setCore t c { k with
          status := statusWrite k w.val.toNat
          tenant := if k.level = 2 then (if bits w.val.toNat 24 2 < 2 then some (bits w.val.toNat 26 6) else none) else k.tenant }) c) ∧
        (n = 0x002 → Retires (.mtcr c g) s t (setCore t c { k with estatus := tw tRAW (savedWrite k k.estatus.val.toNat w.val.toNat false) }) c) ∧
        (n = 0x101 → Retires (.mtcr c g) s t (setCore t c { k with mestatus := tw tRAW (savedWrite k k.mestatus.val.toNat w.val.toNat true) }) c) ∧
        (n = 0x016 → ¬ (bit w.val.toNat 8 = true ∧ bit w.val.toNat 9 = false ∧ k.level ≠ 2) → Retires (.mtcr c g) s t (ipiWrite t c w.val.toNat) c))) ∧
    (n ≤ 4 ∨ (8 ≤ n ∧ n ≤ 0x17) ∨ (0x100 ≤ n ∧ n ≤ 0x104) → k.level = 0 ∨ (k.level = 1 ∧ 0x100 ≤ n) ∨ n = 0x003 ∨ n = 0x017 ∨ n = 0x102 →
      Traps (.mtcr c g) s t c (accFault aPRIV_INSN))

/-- R253: a synchronous cause on a core that is outside steady rest and the entry guard, whose level lies above MASK where it has one, and whose target's stack register
passes the check of R254, enters the target level T: EPC, ESTATUS and TINFO at S, or MEPC, MESTATUS and MTINFO at M, hold the return address, the STATUS before entry and the trap
information; LEVEL = T, EG = 1, LMPROG = 0, MASK the level of the cause (unchanged for SYSCALL); w30 and T's stack register are exchanged; the pc is the vector of the cause. Every other field
of the core, and all of memory, is as before (the cause is one that is no core fault and no shadow-stack mismatch, which are counted besides). -/
def Obligations.ExceptionEntry : Prop :=
  ∀ (s : State) (c : Nat) (x : Trap) (k : Core) (T lvl : Nat) (stk : TWord),
    getCore s c = k → x.cause ∈ [cTAGTRAP, cTLBMISS, cACCESS, cBUSERR, cSYSCALL] → isCoreFault x = false → k.sr = false → k.eg = false →
    (∀ l, causeLevel x.cause = some l → k.mask < l) → T = syncTarget k x.cause → (T = 1 ∨ T = 2) → stackOk k T = true →
    lvl = (match causeLevel x.cause with | some l => l | none => k.mask) → k.regs.length = 32 → stk = (if T = 2 then k.mstack else k.sstack) →
    ∃ k2 : Core, trapCore s c x = setCore s c k2 ∧
      k2.level = T ∧ k2.eg = true ∧ k2.lmprog = 0 ∧ k2.mask = lvl ∧ k2.asid = k.asid ∧ bits k2.status 8 4 = bits k.status 8 4 ∧ k2.sr = false ∧
      k2.pc = (if T = 2 then 0x3E0000010000 else 0x1000) + 64 * x.cause ∧
      (T = 1 → k2.epc = tw tRETADDR (if x.next then k.pc + 4 else k.pc) ∧ k2.estatus = tw tRAW k.status ∧ k2.tinfo = tw tRAW (tinfoOf x) ∧
        k2.mepc = k.mepc ∧ k2.mestatus = k.mestatus ∧ k2.mtinfo = k.mtinfo ∧ k2.mstack = k.mstack ∧ k2.sstack = (k.regs[30]?).getD wZero) ∧
      (T = 2 → k2.mepc = tw tRETADDR (if x.next then k.pc + 4 else k.pc) ∧ k2.mestatus = tw tRAW k.status ∧ k2.mtinfo = tw tRAW (tinfoOf x) ∧
        k2.epc = k.epc ∧ k2.estatus = k.estatus ∧ k2.tinfo = k.tinfo ∧ k2.sstack = k.sstack ∧ k2.mstack = (k.regs[30]?).getD wZero) ∧
      k2.regs[30]? = some stk ∧ (∀ r, r ≠ 30 → k2.regs[r]? = k.regs[r]?) ∧
      k2.alimit = k.alimit ∧ k2.idctr = k.idctr ∧ k2.ctxhead = k.ctxhead ∧ k2.cardbase = k.cardbase ∧ k2.condemn = k.condemn ∧ k2.ssp = k.ssp ∧
      k2.uicnt = k.uicnt ∧ k2.ctxwin = k.ctxwin ∧ k2.outstanding = k.outstanding ∧ k2.dropped = k.dropped ∧ k2.tlb = k.tlb ∧ k2.repl = k.repl ∧
      k2.pend = k.pend ∧ k2.runs = k.runs ∧ k2.srArea = k.srArea ∧ k2.srCount = k.srCount ∧ k2.tenant = k.tenant ∧ k2.bind = k.bind

/-- SYSC (R239) takes the system call of the next level with imm16 in the trap information, its instruction counted at U (R210), a context bank of the tenant
registered where the tenant runtime's call registers one (9.7); at M it is ILLEGAL. A fetch that meets a condition raises it (R250); an encoding that Tables 8.4 to 8.12 do not
define is ILLEGAL (R208). A row of the instruction set whose word the pc does not hold, or on a core that cannot execute, changes nothing. -/
def Obligations.SyscallAndFetchFaults : Prop :=
  ∀ (s t : State) (c : Nat) (f : RF) (g : IF) (bank : Option (Nat × Nat)) (k : Core) (x : Trap) (w : Nat), getCore t c = k →
    (AtInsn s t c (encI 0x33 g) → g.rd = 0 → g.ra = 0 →
      (k.level = 0 → Traps (.sysc c g bank) s (updCore t c countU) c ⟨cSYSCALL, g.imm.toNat, 0, 0, true⟩) ∧
      (k.level = 1 → Traps (.sysc c g none) s t c ⟨cSYSCALL, g.imm.toNat, 0, 0, true⟩ ∧
        ∀ n a, Traps (.sysc c g (some (n, a))) s (registerBank t ⟨k.asid / 4, n, a⟩) c ⟨cSYSCALL, g.imm.toNat, 0, 0, true⟩) ∧
      (k.level = 2 → exec (.sysc c g none) s = .next (trapCore t c (accFault aILLEGAL)))) ∧
    (coreAble s c = true → fetch s c = .trap t x → exec (.add c f) s = .next (trapCore t c x)) ∧
    (coreAble s c = true → fetch s c = .ok t w → definedOp w = false → exec (.add c f) s = .next (trapCore t c (accFault aILLEGAL))) ∧
    (AtInsn s t c (encR 0x01 f 0) → f.rd2 ≠ 0 → Traps (.add c f) s t c (accFault aILLEGAL)) ∧
    (coreAble s c = true → fetch s c = .ok t w → definedOp w = true → w ≠ encR 0x01 f 0 → exec (.add c f) s = .next s) ∧
    (coreAble s c = false → exec (.add c f) s = .next s)

/-- R252, R260, R261: a synchronous cause that escalates writes the record of Table 9.6 into the core's own area, MEPC, MESTATUS (with ESI where the stack check failed), ESTATUS where the target
was S, and MTINFO; STATUS becomes M with MASK 7, SR 1, EG 0, LMPROG 0; MSTACK and w30 are exchanged about the fixed steady-rest stack; the pc is the steady-rest vector. A cause with SR = 1 stops the core, as does
a second escalation before the tenant runtime has left RESTART (R262). The steady-rest counter, the EVENT grain and the core fault accompany the entry (R258, R262). -/
def Obligations.SteadyRestEntry : Prop :=
  ∀ (s : State) (c : Nat) (x : Trap) (k : Core) (T esc ret info : Nat),
    getCore s c = k → x.cause ≠ cSSMISMATCH → T = syncTarget k x.cause → ret = (if x.next then k.pc + 4 else k.pc) → info = tinfoOf x →
    (k.sr = true → raiseTrap s c x = stopCore s c x.cause x.reason) ∧
    (k.sr = false → ((∃ l, causeLevel x.cause = some l ∧ l ≤ k.mask ∧ esc = 1) ∨
        ((∀ l, causeLevel x.cause = some l → k.mask < l) ∧ k.eg = true ∧ esc = 3) ∨
        ((∀ l, causeLevel x.cause = some l → k.mask < l) ∧ k.eg = false ∧ stackOk k T = false ∧ esc = 2)) →
      raiseTrap s c x = escalate s c x.cause x.reason T esc ret info ∧
      ∃ k2 : Core, k2 = srEnter k x.cause T esc ret info s.tim.ticks ∧
        k2.level = 2 ∧ k2.mask = 7 ∧ k2.sr = true ∧ k2.eg = false ∧ k2.lmprog = 0 ∧ k2.pc = 0x3E0000011000 ∧ k2.mepc = tw tRETADDR ret ∧
        k2.mtinfo = tw tRAW info ∧ k2.mestatus = tw tRAW (if esc = 2 then setBits k.status 21 1 1 else k.status) ∧
        k2.estatus = (if T = 1 then k2.mestatus else k.estatus) ∧ k2.mstack = (k.regs[30]?).getD wZero ∧
        (k.regs.length = 32 → k2.regs[30]? = some (tw tSTACKPTR 0x3E0000021000)) ∧
        lk k2.srArea 0 = some k.mstack ∧ lk k2.srArea 1 = some k.epc ∧ lk k2.srArea 2 = some k.estatus ∧ lk k2.srArea 3 = some k.tinfo ∧
        lk k2.srArea 4 = some k.mepc ∧ lk k2.srArea 5 = some k.mestatus ∧ lk k2.srArea 6 = some k.mtinfo ∧
        lk k2.srArea 7 = some (tw tRAW (x.cause + T * 2 ^ 6 + esc * 2 ^ 8 + ((causeLevel x.cause).getD 0) * 2 ^ 16 + sat 32 k.srCount * 2 ^ 32)))

/-- R251, R253: on a core that may execute, a pending cause whose level is above MASK, with EG clear, no issued effectful operation to complete, its target not below the level of the
core, and no better cause to take first, is taken: it is no longer pending; with a good stack register the core enters the target with the pc as the resume point and trap
information 0; with a bad one it enters steady rest. A cause that is not pending, or whose level is not above MASK, or that meets EG set, leaves the state as it is. -/
def Obligations.InterruptTaken : Prop :=
  ∀ (s : State) (c cause T : Nat) (k : Core),
    getCore s c = k → coreAble s c = true → T = causeTarget cause k.level →
    (pending s c cause = true → takeable k cause = true →
      (∀ x ∈ [cDISPATCH, cIPI_S, cIPI_M], pending s c x = true → takeable k x = true → before x cause = false) →
      (stackOk k T = true →
        exec (.interruptTake c cause) s =
          .next (setCore s c (enterCore { k with pend := k.pend.filter (· ≠ cause) } T cause k.pc 0))) ∧
      (stackOk k T = false →
        exec (.interruptTake c cause) s =
          .next (restartPartner s (escalate (setCore s c { k with pend := k.pend.filter (· ≠ cause) }) c cause 0 T 2 k.pc 0) c))) ∧
    (pending s c cause = false ∨ k.eg = true ∨ (∃ l, causeLevel cause = some l ∧ l ≤ k.mask) → exec (.interruptTake c cause) s = .next s)

/-- The events of cores and pairs (R259, R320, R336, R348, R350, R598, R600) when their conditions hold: the watchdog stops the core; a microcode wait counts, is captured first, and raises MCHECK UWAIT; a
partner that has not presented within PAIRWAIT is a pair fault of kind TIMEOUT; an APPEND held for APPWAIT raises MCHECK COPERR; a paired tenant whose oldest input has waited 1 ms without an in-service pair has cause PAIR set and its waiting inputs run on single
cores; a core that passes its self-test for the first or second time in 24 h returns reset and in service, and one that fails or is stopped the third time stays out; likewise a pair. -/
def Obligations.CoreEventsComplete : Prop :=
  ∀ (s : State) (c uaddr t p : Nat) (redir pass : Bool) (k : Core) (pr : Present) (i : PairInfo),
    getCore s c = k →
    (coreAble s c = true → s.tim.ticks - k.lastRet ≥ 131072 * s.tim.cclkEff →
      exec (.coreWatchdogExpire c) s = .next (restartPartner s (stopCore s c 0 0) c)) ∧
    (coreAble s c = true → fget (bumpSat s bUCD 0x40 0 32 1) bUCD 0x48 24 1 = 0 →
      exec (.uwaitTimeout c uaddr redir) s = .next (trapCore (rawSet (bumpSat s bUCD 0x40 0 32 1) bUCD 0x48
        (uaddr % 2 ^ 15 + 2 ^ 15 * b2n redir + 2 ^ 16 * c + 2 ^ 24)) c (mCheck 1))) ∧
    (coreAble s c = true → fget (bumpSat s bUCD 0x40 0 32 1) bUCD 0x48 24 1 = 1 →
      exec (.uwaitTimeout c uaddr redir) s = .next (trapCore (bumpSat s bUCD 0x40 0 32 1) c (mCheck 1))) ∧
    (coreAble s c = true → k.present = some pr → (∀ b, k.bind = some b → b.paired = true) → (getCore s (partner c)).present = none →
      s.tim.ticks - pr.since ≥ ticksOfUs (fget s (bCLU + c / 8) 0x110 0 8) →
      exec (.pairWaitTimeout c) s = .next (pairFault s c 2 (match k.bind with | some b => b.pos | none => 0) pr.unit pr.op)) ∧
    (coreAble s c = true → k.present = some pr → pr.unit = 3 → pr.op = 2 → s.tim.ticks - pr.since ≥ ticksOfUs (fget s (bCLU + c / 8) 0x110 16 8) →
      exec (.appendWaitTimeout c) s = .next (trapCore s c (mCheck 6))) ∧
    (∀ w : List Input, w = s.awp.inputs.filter (fun x => x.tenant == t && (x.rerun || (lkD s.awp.runq t []).contains x.seq)) →
      (∃ cl, cl < 12 ∧ pairSet s cl t = true) → (∃ x ∈ w, x.tai + 1000000 ≤ s.now) → (∀ q ∈ tenantPairs s t, pairUsable s q = false) →
      (∀ q ∈ tenantPairs s t, (getPairInfo s q).removals.head?.getD 0 + ticksOfMs 1 ≤ s.tim.ticks) → ticksOfMs 1 ≤ s.tim.ticks → s.inMode .hold = false →
      exec (.pairUnavailableTimeout t) s = .next { setCauseTenant s t cPAIR s.now 0 with
        awp.inputs := (setCauseTenant s t cPAIR s.now 0).awp.inputs.map (fun x => if x ∈ w then { x with single := true } else x) }) ∧
    (c < 0x60 → k.runs = false → k.tested = false → (∃ x ∈ k.stops, s.tim.ticks - x ≥ ticksOfUs 64) →
      (pass = true → (k.stops.filter (fun x => decide (s.tim.ticks - x ≤ ticksOfS 86400))).length < 3 →
        exec (.coreSelftestComplete c pass) s = .next (eventD (setService (setCore s c
          { coreReset with stops := k.stops, srCount := k.srCount, lastRet := s.tim.ticks }) c true) 9 kOTHER 0x0C82 [c, 1] 0)) ∧
      (pass = false ∨ 3 ≤ (k.stops.filter (fun x => decide (s.tim.ticks - x ≤ ticksOfS 86400))).length →
        exec (.coreSelftestComplete c pass) s = .next (eventD (setCore s c { k with tested := true }) 9 kOTHER 0x0C82 [c, 0] 0))) ∧
    (p < 48 → pairInService s p = false → getPairInfo s p = i → i.failed = false →
      (pass = true → (i.removals.filter (fun x => decide (s.tim.ticks - x ≤ ticksOfS 86400))).length < 3 →
        exec (.pairTestComplete p pass) s = .next (eventD { setPairService s p true with cpu.pairs := ins s.cpu.pairs p { i with window := [] } } 9 kOTHER 0x0C85 [p, 3] 0)) ∧
      (pass = false ∨ 3 ≤ (i.removals.filter (fun x => decide (s.tim.ticks - x ≤ ticksOfS 86400))).length →
        exec (.pairTestComplete p pass) s = .next { s with cpu.pairs := ins s.cpu.pairs p { i with failed := true } }))

/-- Table 13.1 (R331, R332, R337, R338, R340): where the operands of a pure operation can be read and its output written, it delivers its result word, stores its output, and raises ISSUED and COMPLETED
of its unit by one; a hash delivers 32 and the digest, GCMSEAL the sealed length, GCMOPEN whether the tag verifies, a signature check its truth, and CHAINED at S the number of the last
chained grain of the tenant, −1 where there is none. Cancelled on a speculative path it raises ISSUED and CANCELLED and changes nothing else. -/
def Obligations.CryptoComplete : Prop :=
  ∀ (s t s1 s2 s3 s4 : State) (c a n : Nat) (f : CF) (m key msg sig : List Byte) (v : List TWord) (k : BitVec 256) (g : BitVec 256 × List Byte × List Byte × List Byte),
    (strBytes t c (reg t c f.ra.toNat) = .ok s1 m → outStr s1 c (reg s1 c f.rb.toNat) 32 = .ok s2 (a, n) →
      (AtInsn s t c (encC f 0 1) → PureEnds (.sha256 c f .completes) s t s2 c f 0 (wInt 32) (some (a, digBytes (Config.sha256 m)))) ∧
      (AtInsn s t c (encC f 0 2) → PureEnds (.sha3 c f .completes) s t s2 c f 0 (wInt 32) (some (a, digBytes (Config.sha3 m))))) ∧
    (AtInsn s t c (encC f 0 3) → vecElems t c (reg t c f.ra.toNat) 2 = .ok s1 v → keyOf s1 c (elemAt v 0) = .ok s2 k → strBytes s2 c (elemAt v 1) = .ok s3 m →
      outStr s3 c (reg s3 c f.rb.toNat) 32 = .ok s4 (a, n) →
      PureEnds (.hmac c f .completes) s t s4 c f 0 (wInt 32) (some (a, digBytes (Config.hmac k m)))) ∧
    (AtInsn s t c (encC f 0 4) → gcmArgs t c (reg t c f.ra.toNat) = .ok s1 g → outStr s1 c (reg s1 c f.rb.toNat) (g.2.2.2.length + 16) = .ok s2 (a, n) →
      PureEnds (.gcmseal c f .completes) s t s2 c f 0 (wInt (g.2.2.2.length + 16))
        (some (a, fit (g.2.2.2.length + 16) (Config.gcmSeal g.1 g.2.1 g.2.2.1 g.2.2.2)))) ∧
    (AtInsn s t c (encC f 0 5) → gcmArgs t c (reg t c f.ra.toNat) = .ok s1 g → 16 ≤ g.2.2.2.length →
      outStr s1 c (reg s1 c f.rb.toNat) (g.2.2.2.length - 16) = .ok s2 (a, n) →
      (∀ p, Config.gcmOpen g.1 g.2.1 g.2.2.1 g.2.2.2 = some p →
        PureEnds (.gcmopen c f .completes) s t s2 c f 0 (wBool true) (some (a, fit (g.2.2.2.length - 16) p))) ∧
      (Config.gcmOpen g.1 g.2.1 g.2.2.1 g.2.2.2 = none → PureEnds (.gcmopen c f .completes) s t s2 c f 0 (wBool false) none)) ∧
    (f.rb = 0 → vecElems t c (reg t c f.ra.toNat) 3 = .ok s1 v →
      (AtInsn s t c (encC f 0 6) → strOf s1 c (elemAt v 0) 64 = .ok s2 key → strOf s2 c (elemAt v 1) 32 = .ok s3 msg → strOf s3 c (elemAt v 2) 64 = .ok s4 sig →
        PureEnds (.p256v c f .completes) s t s4 c f 0 (wBool (Config.sigVerify 0 key msg sig)) none) ∧
      (AtInsn s t c (encC f 0 7) → strOf s1 c (elemAt v 0) 96 = .ok s2 key → strOf s2 c (elemAt v 1) 48 = .ok s3 msg → strOf s3 c (elemAt v 2) 96 = .ok s4 sig →
        PureEnds (.p384v c f .completes) s t s4 c f 0 (wBool (Config.sigVerify 1 key msg sig)) none) ∧
      (AtInsn s t c (encC f 0 8) → strOf s1 c (elemAt v 0) 32 = .ok s2 key → strBytes s2 c (elemAt v 1) = .ok s3 msg → strOf s3 c (elemAt v 2) 64 = .ok s4 sig →
        PureEnds (.ed25519v c f .completes) s t s4 c f 0 (wBool (Config.sigVerify 2 key msg sig)) none)) ∧
    (f.ra = 0 → f.rb = 0 → lvlOf t c = 1 → AtInsn s t c (encC f 3 4) →
      PureEnds (.chained c f .completes) s t t c f 3 (wInt (((strm t (coreTenant (getCore t c))).chained : Int) - 1)) none) ∧
    (AtInsn s t c (encC f 0 1) → strBytes t c (reg t c f.ra.toNat) = .ok s1 m → outStr s1 c (reg s1 c f.rb.toNat) 32 = .ok s2 (a, n) →
      Traps (.sha256 c f .unitError) s (copCount (copCount s2 (c / 8) 0 0) (c / 8) 0 12) c (mCheck 6)) ∧
    (coreAble s c = true → ∀ i, i ∈ [Instr.sha256 c f .cancelled, .sha3 c f .cancelled, .hmac c f .cancelled, .gcmseal c f .cancelled, .gcmopen c f .cancelled,
        .p256v c f .cancelled, .p384v c f .cancelled, .ed25519v c f .cancelled] →
      exec i s = .next (copCount (copCount s (c / 8) 0 0) (c / 8) 0 8))

/-- R331, R334, R339, R341 to R344, R427: where an effectful operation may run and its unit completes it, it raises ISSUED and COMPLETED and gives its words: DRAW 64 bits of the DRBG, DRAWN a draw
reduced modulo n, RESEED the reseed count, TREAD the time and u, CTRINC the tenant's counter raised by one. With good destinations and no grant waiting, at M the words go to rd onward and
nothing is logged; on an unpaired bound core with a position left they are logged at that position, which rises; a re-run whose log agrees delivers the logged words and issues nothing; one
whose log disagrees is a pair fault or, in a replay run, a divergence; an unbound core below M traps PRIV_INSN; a unit error is MCHECK COPERR and logs nothing. A paired core waits for its partner. -/
def Obligations.EffectfulComplete : Prop :=
  ∀ (s t s1 : State) (c cl n key : Nat) (f : CF) (w : TWord) (i : Instr) (o : EffOp) (res : List TWord) (x : BitVec 64 × State) (counted : Nat → State) (k : Core),
    cl = c / 8 → getCore t c = k → reg t c f.ra.toNat = w → counted = (fun u => copCount (copCount t cl u 0) cl u 4) → x = drawOf (counted 1) cl → key = coreTenant k * 16 + w.val.toNat →
    ((i = .draw c f .completes ∧ AtInsn s t c (encC f 1 1) ∧ f.ra = 0 ∧ f.rb = 0 ∧ lvlOf t c ≠ 2 ∧ fget t bHLT 0x2C cl 1 ≠ 1 ∧
        n = 1 ∧ o = ⟨1, 1, wZero, wZero, [], none, 0⟩ ∧ s1 = x.2 ∧ res = [⟨tINT, x.1⟩]) ∨
     (i = .drawn c f .completes ∧ AtInsn s t c (encC f 1 2) ∧ f.rb = 0 ∧ lvlOf t c ≠ 2 ∧ fget t bHLT 0x2C cl 1 ≠ 1 ∧ w.tag = tINT ∧ 1 ≤ w.val.toInt ∧
        n = 1 ∧ o = ⟨1, 2, w, wZero, twBytes w, none, 0⟩ ∧ s1 = x.2 ∧ res = [wInt (x.1.toNat % w.val.toNat)]) ∨
     (i = .reseed c f .completes ∧ AtInsn s t c (encC f 1 0x10) ∧ f.ra = 0 ∧ f.rb = 0 ∧ lvlOf t c = 2 ∧
        n = 1 ∧ o = ⟨1, 0x10, wZero, wZero, [], none, 0⟩ ∧ s1 = reseed (counted 1) cl ∧ res = [wInt (rawGet s1 (bCLU + cl) 0x204)]) ∨
     (i = .tread c f .completes ∧ AtInsn s t c (encC f 2 1) ∧ f.ra = 0 ∧ f.rb = 0 ∧ f.rd.toNat ≠ 31 ∧
        n = 2 ∧ o = ⟨2, 1, wZero, wZero, [], none, 0⟩ ∧ s1 = counted 2 ∧ res = [tw tTIME s1.now, wInt s1.tim.u]) ∨
     (i = .ctrinc c f .completes ∧ AtInsn s t c (encC f 3 3) ∧ f.rb = 0 ∧ lvlOf t c = 1 ∧ w.tag = tINT ∧ w.val.toNat ≤ 15 ∧ lkD t.jrn.counters key 0 + 1 < 2 ^ 63 ∧
        n = 1 ∧ o = ⟨3, 3, w, wZero, twBytes w, none, 0⟩ ∧ s1 = { counted 3 with jrn.counters := ins (counted 3).jrn.counters key (lkD t.jrn.counters key 0 + 1) } ∧
        res = [wInt (lkD t.jrn.counters key 0 + 1 : Nat)])) →
    destsOk t c f n = true → k.granted = none →
    (k.level = 2 → Retires i s t (given (updCore s1 c (fun k => { k with granted := some ⟨o.unit, o.op, res, [], none⟩ })) c f ⟨o.unit, o.op, res, [], none⟩) c) ∧
    (k.level ≠ 2 → k.bind = none → Traps i s t c (accFault aPRIV_INSN)) ∧
    (∀ (b : Bind) (inp : Input), k.level ≠ 2 → k.bind = some b → b.pos < 1023 → b.paired = false → boundInput t b = some inp →
      (inp.log[b.pos]? = none → b.replay = false → inp.recorded = none →
        Retires i s t (given (granting (nextPos (updBound s1 b (fun j => { j with log := j.log ++ [⟨o.unit, o.op, opDigest o.data, res⟩] })) c) c ⟨o.unit, o.op, res, [], none⟩) c f
          ⟨o.unit, o.op, res, [], none⟩) c) ∧
      (∀ e, inp.log[b.pos]? = some e →
        (e.unit = o.unit ∧ e.op = o.op ∧ e.dig = opDigest o.data → b.replay = false →
          Retires i s t (given (granting (nextPos t c) c ⟨o.unit, o.op, e.res, [], none⟩) c f ⟨o.unit, o.op, e.res, [], none⟩) c) ∧
        (e.unit = o.unit ∧ e.op = o.op ∧ e.dig = opDigest o.data → b.replay = true →
          Retires i s t (given (granting (nextPos (bumpWrap t bRPL 0x68 0 32 1) c) c ⟨o.unit, o.op, e.res, [], none⟩) c f ⟨o.unit, o.op, e.res, [], none⟩) c) ∧
        (¬ (e.unit = o.unit ∧ e.op = o.op ∧ e.dig = opDigest o.data) →
          exec i s = .next (if b.replay then divergeAt t c 2 b.pos none else pairFault t c 3 b.pos o.unit o.op)))) ∧
    (∀ b : Bind, k.level ≠ 2 → k.bind = some b → b.pos < 1023 → b.paired = true → k.present = none → (getCore t (partner c)).present = none → partner c ≠ c →
      exec i s = .next (updCore t c (fun k => { k with present := some ⟨o.unit, o.op, o.ra, o.rb, opDigest o.data, strictDigest (getCore t c), t.tim.ticks, false⟩ })))

/-- R335, R336, R339, R341, R342, R345, R424, R445, R539 for an evaluation on one core at S. TAKE on an unbound core voids uncorrectable inputs at the head, counts, and delivers NIL where no input may be taken, else the
number of the first one with its bytes in the output STRING and the core bound to it; a paired tenant's delivered result completes the partner's TAKE. APPEND on a bound core is held where the grain before its number is
not yet chained, or where the power-fail buffer has no room; else the grain is chained (or compared, in a replay run), the number and the grain digest are delivered and the binding ends; a unit error after issue enters HOLD. -/
def Obligations.TakeAndAppendComplete : Prop :=
  ∀ (s t s0 s1 s2 s3 s4 u : State) (c a n tn : Nat) (f : CF) (bad : List Nat) (k : Core) (g : Grant) (pick : Option Input) (i inp : Input) (r : State × Bind) (ra : State × Digest) (ws : List (Nat × TWord))
      (b : Bind) (d : Descr) (o : EffOp) (logged : Input),
    getCore t c = k → k.level = 1 → tn = coreTenant k →
    (AtInsn s t c (encC f 3 1) → f.ra = 0 → outStr t c (reg t c f.rb.toNat) 1480 = .ok s0 (a, n) →
      (k.granted = none → k.bind = none → s1 = voidBad s0 bad (takeList s0 c tn) → pick = (takeList s1 c tn).head? → destsOk s1 c f 1 = true →
        (takePaired s1 c tn pick = false → (pick = none ∨ takeOpen s1 c tn pick = false) → g = ⟨3, 1, [wNil], [], none⟩ →
          Retires (.take c f .completes bad) s t (given (granting (copCount (copCount s1 (c / 8) 3 0) (c / 8) 3 4) c g) c f g) c) ∧
        (pick = some i → takeOpen s1 c tn pick = true → outWords s1 c a (80 + i.payload.length) = .ok s2 ws → takePaired s2 c tn pick = false →
          r = bindTake (copCount (copCount s2 (c / 8) 3 0) (c / 8) 3 4) tn false i → g = ⟨3, 1, [wInt i.seq], inputBytes i, some r.2⟩ →
          writeOut (granting r.1 c g) c a g.out = .ok s4 () → Retires (.take c f .completes bad) s t (given s4 c f g) c)) ∧
      (k.granted = some g → g.unit = 3 → g.op = 1 → destsOk s0 c f 1 = true → writeOut (updCore s0 c (fun k => { k with granted := some g })) c a g.out = .ok s4 () →
        Retires (.take c f .completes bad) s t (given s4 c f g) c)) ∧
    (AtInsn s t c (encC f 3 2) → k.granted = none → k.bind = some b → b.paired = false → descrOf t c (reg t c f.ra.toNat) = .ok s0 d → outStr s0 c (reg s0 c f.rb.toNat) 32 = .ok s1 (a, n) →
      destsOk s1 c f 1 = true → outWords s1 c a 32 = .ok s2 ws → boundInput s2 b = some inp →
      o = ⟨3, 2, reg s1 c f.ra.toNat, reg s1 c f.rb.toNat, descrData d n, some a, 32⟩ →
      ((inp.log[b.pos]? = none ∧ b.replay = false ∧ inp.recorded = none) ∨ (∃ x, inp.log[b.pos]? = some x ∧ x.unit = 3 ∧ x.op = 2 ∧ x.dig = opDigest o.data)) →
      logged = { inp with log := inp.log.take b.pos ++ [⟨3, 2, opDigest o.data, [wInt b.seq]⟩] } →
      (b.replay = false → (strm s2 b.tenant).chained ≠ b.seq → exec (.append c f .completes) s = .next (holdAppend s2 c b o false)) ∧
      (b.replay = false → (strm s2 b.tenant).chained = b.seq → pfbRoom s2 (grainOf inp d) logged = false → exec (.append c f .completes) s = .next (holdAppend s2 c b o true)) ∧
      (b.replay = true ∨ ((strm s2 b.tenant).chained = b.seq ∧ pfbRoom s2 (grainOf inp d) logged = true) →
        (s3 = copCount (updBound (copCount s2 (c / 8) 3 0) b (fun _ => { logged with bound := true })) (c / 8) 3 4 →
          ra = (if b.replay then appendReplay s3 b (grainOf inp d) else appendStream s3 b logged (grainOf inp d)) → g = ⟨3, 2, [wInt b.seq], digBytes ra.2, none⟩ →
          u = granting (endBinding ra.1 (evalCores s2 c)) c g → writeOut u c a g.out = .ok s4 () → Retires (.append c f .completes) s t (given s4 c f g) c) ∧
        exec (.append c f .unitError) s = .next (enterHold (copCount (copCount s2 (c / 8) 3 0) (c / 8) 3 12) hAPPEND_UNIT 0 0)))

/-- R307, R308, R341, R601: a cluster's DRBG reseeds CLU.RESEED seconds after its last reseed; a failed entropy test sets its kind and clears the health bit, withholds the cluster, is journaled, and ends the entropy
operation in progress with MCHECK COPERR; passed start-up tests return a cluster whose health bit is clear; a patrol read handles an uncorrectable line, or counts a corrected one against its channel and device. -/
def Obligations.ClusterEventsComplete : Prop :=
  ∀ (s s3 : State) (cl kind c a dev : Nat) (busy corr : Option Nat),
    (cl < 12 → s.tim.ticks - lkD s.cpu.reseedAt cl 0 ≥ ticksOfS (fget s (bCLU + cl) 0x114 0 6) →
      exec (.drbgReseedTimer cl) s = .next (bumpSat { s with cpu.draws := ins s.cpu.draws cl 0, cpu.reseedAt := ins s.cpu.reseedAt cl s.tim.ticks } (bCLU + cl) 0x204 0 32 1)) ∧
    (cl ≥ 12 ∨ s.tim.ticks - lkD s.cpu.reseedAt cl 0 < ticksOfS (fget s (bCLU + cl) 0x114 0 6) → exec (.drbgReseedTimer cl) s = .next s) ∧
    (cl < 12 → kind = 1 ∨ kind = 2 →
      s3 = eventD (fset (fset (fset s (bCLU + cl) 0x200 0 1 0) (bCLU + cl) 0x200 kind 1 1) bHLT 0x2C cl 1 1) 9 kFAULT 0x0C86 [cl, kind] 0 →
      (busy = none → exec (.entropyTestFail cl kind busy) s = .next s3) ∧
      (busy = some c → c / 8 = cl → coreAble s3 c = true →
        exec (.entropyTestFail cl kind busy) s = .next (trapCore (copCount (copCount s3 cl 1 0) cl 1 12) c (mCheck 6)))) ∧
    (cl < 12 → fget s (bCLU + cl) 0x200 0 1 = 0 → s3 = fset s (bCLU + cl) 0x200 0 1 1 →
      (fget s3 bHLT 0x2C cl 1 = 1 → exec (.entropyRestore cl) s = .next (eventD (fset s3 bHLT 0x2C cl 1 0) 9 kFAULT 0x0C86 [cl, 3] 0)) ∧
      (fget s3 bHLT 0x2C cl 1 ≠ 1 → exec (.entropyRestore cl) s = .next s3)) ∧
    (fget s (bCLU + cl) 0x200 0 1 ≠ 0 → exec (.entropyRestore cl) s = .next s) ∧
    exec (.dramPatrolRead a true corr) s = .next (dramUe s a 1) ∧
    exec (.dramPatrolRead a false (some dev)) s = .next (dramCe s (channelOf s (a / 64 * 64)) dev) ∧
    exec (.dramPatrolRead a false none) s = .next s

/-- R360, R362 to R368, R406, 14.6: the fastest type that both sides advertise resolves and the port trains, or the attempt counts in ANFAIL; a port in TRAIN goes UP with its taps set (a mirror quad only at a common
rate), or to FAULT when training runs out; a port that is UP counts cut frames and goes to FAULT when lock is lost; FAULT lasts 10 ms; a 1 s event window ends with one grain for the further changes; the
smallest eye is the margin, and a third one in a row below FLOOR on a frozen lane ends the freeze under ADAPT_GUARD and degrades the lane without it; the second's FEC counts and BERLOG are noted. -/
def Obligations.LaneEventsComplete : Prop :=
  ∀ (s s1 s2 : State) (q p t rx tx k corr unc sym log i m fl b : Nat) (pt : List Nat) (rs : Bool) (taps : List (List Nat)) (x : PortSt) (eyes lows : List Nat) (l : LaneInfo),
    getPort s q p = x →
    (x.state = 1 →
      ((advertised s q p).find? (fun t => pt.contains t && (rs || !(t == 9 || t == 10))) = some t →
        exec (.anComplete q p pt rs) s = .next (changePort (fset (putPort s q p { x with rtype := t }) (bLQ + q) (0x30 + 4 * p) 0 4 t) q p 2)) ∧
      ((advertised s q p).find? (fun t => pt.contains t && (rs || !(t == 9 || t == 10))) = none →
        exec (.anComplete q p pt rs) s = .next (bumpSat s (bLQ + q) (0x30 + 4 * p) 16 16 1))) ∧
    (x.state ≠ 1 → exec (.anComplete q p pt rs) s = .next s) ∧
    (x.state = 2 → exec (.trainingTimeout q p) s = .next (changePort s q p 4)) ∧
    (x.state ≠ 2 → exec (.trainingTimeout q p) s = .next s ∧ exec (.trainingComplete q p rs taps) s = .next s) ∧
    (x.state = 2 → quadMirror s q = true → exec (.trainingComplete q p false taps) s = .next (fset s (bLQ + q) 0x14 2 1 1)) ∧
    (x.state = 2 → (quadMirror s q = false ∨ rs = true) → t = (if x.rtype ≠ 0 then x.rtype else portType s q p) → taps = [] →
      exec (.trainingComplete q p rs taps) s =
        .next (changePort (fset (fset (putPort s q p { x with rtype := t }) (bLQ + q) (0x30 + 4 * p) 0 4 t) (bLQ + q) 0x14 2 1 0) q p 3)) ∧
    (x.state = 3 → k = (portLanes s q p).headD p →
      exec (.pcsLockLoss q p rx tx) s = .next (changePort (bumpWrap (bumpSat s (bLQ + q) (laneOff k 0x38) 16 16 tx) bAWP (0x400 + 0x10 * (q * 4 + k)) 0 32 rx) q p 4)) ∧
    (x.state ≠ 3 → exec (.pcsLockLoss q p rx tx) s = .next s) ∧
    (x.state = 4 → s.tim.ticks - x.faultAt ≥ 8000000 → exec (.faultTimeout q p) s = .next (changePort (putPort s q p { x with rtype := 0 }) q p (portStart s q p))) ∧
    (x.state ≠ 4 ∨ s.tim.ticks - x.faultAt < 8000000 → exec (.faultTimeout q p) s = .next s) ∧
    (q ≠ 12 → x.winStart = some t → s.tim.ticks - t ≥ 800000000 → s1 = putPort s q p { x with winStart := none, further := 0 } →
      exec (.linkEventWindowEnd q p) s = .next (if x.further > 0 then laneStateEvent s1 q p x.lastOld x.state x.further else s1)) ∧
    (q ≠ 12 → x.winStart = none ∨ (∃ t, x.winStart = some t ∧ s.tim.ticks - t < 800000000) → exec (.linkEventWindowEnd q p) s = .next s) ∧
    exec (.linkEventWindowEnd 12 p) s = .next (mirrorWindowEnd s) ∧
    (laneUp s k = false ∨ eyes = [] → exec (.marginMeasure k eyes) s = .next s) ∧
    (laneUp s k = true → eyes ≠ [] → i = k % 4 → b = bLQ + k / 4 → m = sat 8 (eyes.foldl min (eyes.headD 0)) → fl = fget s b (laneOff i 4) 0 8 → getLane s k = l →
      s1 = { s with lane.phy := ins s.lane.phy (k / 4 * 1024 + i * 256 + 0x30) (BitVec.ofNat 32 (sat 8 ((eyes[0]?).getD 0) + sat 8 ((eyes[1]?).getD 0) * 256 + sat 8 ((eyes[2]?).getD 0) * 65536)) } →
      (l.frozen = false → l.degraded = false → ∃ g, exec (.marginMeasure k eyes) s = .next (putLane s1 k { l with margin := m, goods := g, lows := [] })) ∧
      (l.frozen = true → m < fl → l.lows.length = 2 → lows = l.lows ++ [m] →
        (fget s b (laneOff i 4) 8 1 = 1 →
          s2 = fset (fset (putLane s1 k { l with margin := m, goods := 0, lows := [], degraded := l.degraded, frozen := false }) b (laneOff i 0) 0 1 0) b (laneOff i 8) 6 1 1 →
          exec (.marginMeasure k eyes) s = .next (eventD (bumpSat s2 b (laneOff i 0x30) 0 16 1) 9 5 0x0E81 ([k] ++ lows ++ [fl]) 0)) ∧
        (fget s b (laneOff i 4) 8 1 ≠ 1 → l.degraded = false →
          s2 = putLane s1 k { l with margin := m, goods := 0, lows := lows, degraded := true } →
          exec (.marginMeasure k eyes) s = .next (eventD (bumpSat s2 b (laneOff i 0x30) 16 16 1) 9 0x0C 0x0E82 [k, m, fl] 0)))) ∧
    (s1 = bumpWrap (bumpWrap (bumpWrap s (bLQ + k / 4) (laneOff (k % 4) 0x20) 0 32 corr) (bLQ + k / 4) (laneOff (k % 4) 0x24) 0 32 unc) (bLQ + k / 4) (laneOff (k % 4) 0x28) 0 32 sym →
      (quadMirror s (k / 4) = false → exec (.berEstimate k corr unc sym log) s = .next (fset s1 (bLQ + k / 4) (laneOff (k % 4) 0x34) 0 16 (if sym = 0 then 0xFFFF else sat 16 log))) ∧
      (quadMirror s (k / 4) = true → bit (rawGet s bMIR 0x10) (k / 4) = true →
        exec (.berEstimate k corr unc sym log) s = .next (fset (bumpWrap s1 bMIR 0x84 0 32 unc) (bLQ + k / 4) (laneOff (k % 4) 0x34) 0 16 (if sym = 0 then 0xFFFF else sat 16 log))))

/-- R403 to R413: a HELLO meets a link that is ready; it is refused with its reason or brings the link UP, and a SHADOW answers with its positions. On a running link a frame whose tag fails is counted and answered
with NACK, one beyond the next LSEQ is answered with NACK, one received before is discarded, and the next one is taken: RECORD and GRAIN enter the shadow's stream under their number, ANCHOR sets the digest it
chains onto, DIGEST is compared, ACK frees the buffer and sets the credit limit, NACK resends, POSITION resumes the tenants, DIVERGE marks one. The sixteenth frame since the last ACK is acknowledged at once. -/
def Obligations.MirrorFramesComplete : Prop :=
  ∀ (s s0 s1 s2 : State) (q t n k a lim role : Nat) (ok : Bool) (body : List Byte) (dg mine theirs : Digest) (ds : List Digest) (pos : List Nat) (st : Stream) (done : State → State) (i : Instr) (inp : Input) (h : Hdr),
    (linkReady s = true → linkAllowed s = true → s.mir.link ≠ 2 → s1 = linkFollow s → s2 = linkTo (linkClear s1) 2 →
      (helloReason s1 role dg ok ≠ 0 → exec (.hello role dg ok) s = .next (eventD (bumpSat s1 bMIR 0x90 16 16 1) 9 9 0x0B82 [helloReason s1 role dg ok] 0)) ∧
      (helloReason s1 role dg ok = 0 → exec (.hello role dg ok) s = .next (if s.role = .shadow then mirSend s2 mPOSITION 0 (positionBody s2) else s2))) ∧
    (linkReady s = false ∨ linkAllowed s = false ∨ s.mir.link = 2 → exec (.hello role dg ok) s = .next s) ∧
    (i ∈ [.record q t ok body, .grain q t ok body, .anchor q t k dg ok, .digest q t n ds ok, .ack q a lim ok, .nack q n ok, .position q pos ok, .diverge q t n mine theirs ok] →
      (s.mir.link ≠ 2 ∨ linkAllowed s = false → exec i s = .next s) ∧
      (s.mir.link = 2 → linkAllowed s = true →
        (ok = false → exec i s = .next (sendNack (bumpWrap s bMIR 0x88 0 32 1))) ∧
        (ok = true → q > s.mir.rxNext → exec i s = .next (sendNack s)) ∧
        (ok = true → q < s.mir.rxNext → exec i s = .next s))) ∧
    (s.mir.link = 2 → linkAllowed s = true → ok = true → q = s.mir.rxNext → s0 = { s with mir.rxNext := s.mir.rxNext + 1, mir.rxSince := s.mir.rxSince + 1 } → strm s0 t = st →
      done = (fun x => if x.mir.rxSince ≥ 16 then sendAck x else x) → inp = readInput body → h = readHdr body →
      (shadowTakes s0 t = true → (getMir s0 t).st = 2 → inp.seq = st.next → inp.tenant = t → s1 = setStrm s0 t { st with next := st.next + 1 } →
        exec (.record q t ok body) s = .next (done (bumpWrap { s1 with awp.inputs := s1.awp.inputs ++ [inp], awp.runq := ins s1.awp.runq t (lkD s1.awp.runq t [] ++ [inp.seq]) } bSEQ (0x800 + 0x10 * t) 0 32 1))) ∧
      (shadowTakes s0 t = true → (getMir s0 t).st = 2 → bodyNum body 8 8 = st.next → h.stream = t →
        exec (.grain q t ok body) s = .next (done (applyChained (cascade (st.numbered.length + 1)
          (setStrm s0 t { st with next := st.next + 1, numbered := ins st.numbered st.next ⟨h, body.drop 64⟩ }) t) t st.chained))) ∧
      (shadowTakes s0 t = true → k = st.chained → exec (.anchor q t k dg ok) s =
        .next (done (setStrm (updMir s0 t (fun x => { x with st := 2 })) t { st with lastDig := dg, genesis := if k = 0 then dg else st.genesis }))) ∧
      (shadowTakes s0 t = true → k < st.chained → exec (.anchor q t k dg ok) s = .next (done (updMir s0 t (fun x => { x with st := 2 })))) ∧
      (s0.role = .primary → t < 64 → tenantBit s0 bMIR 0x40 t = true → ds.length ≤ 64 →
        exec (.digest q t n ds ok) s = .next (done (lagTest (releaseInputs (matchDigests t s0 n ds) t) t))) ∧
      (a > s0.mir.txAcked → a < s0.mir.txNext → exec (.ack q a lim ok) s =
        .next (done (mirrorPumpAll { s0 with mir.limit := lim, mir.txAcked := a, mir.buf := s0.mir.buf.filter (fun f => decide (f.lseq > a)), mir.ackTick := s0.tim.ticks }))) ∧
      (¬ (a > s0.mir.txAcked ∧ a < s0.mir.txNext) → exec (.ack q a lim ok) s = .next (done (mirrorPumpAll { s0 with mir.limit := lim }))) ∧
      exec (.nack q n ok) s = .next (done (resendFrom s0 n)) ∧
      (s0.role = .primary → exec (.position q pos ok) s = .next (done (mirrorPumpAll ((List.range 64).foldl (fun a t => resumeAt a t ((pos[t]?).getD (2 ^ 64 - 1))) s0)))) ∧
      (s0.role = .shadow → t < 64 → tenantBit s0 bMIR 0x40 t = true → exec (.diverge q t n mine theirs ok) s =
        .next (done (updMir (eventD s0 9 9 0x0B81 ([n] ++ digPar mine ++ digPar theirs) 0) t (fun x => { x with st := 3 })))))

/-- R404 to R406, R409, R411, R414, R417: on a running link with unacknowledged frames, 100 µs without progress and since the last resend resend every frame of the buffer, and LOSSMS without progress brings the link DOWN; an ACK goes out
every 10 µs; a SHADOW in LIVE sends at least every 20 µs, of each tenant in sequence, at most 64 of its waiting digests in one frame; the lag test sets cause MIRROR once when a tenant's lag passes its limits. -/
def Obligations.MirrorTimersComplete : Prop :=
  ∀ (s : State) (t n : Nat) (ds : List Digest),
    (s.mir.link = 2 → s.mir.buf ≠ [] →
      (s.tim.ticks - s.mir.ackTick ≥ 80000 → s.tim.ticks - s.mir.retxTick ≥ 80000 →
        exec .mirrorRetransmitTimeout s = .next (bumpWrap { s.mir.buf.foldl (fun a f => emitOut a (.mirror f.lseq f.kind f.tenant f.body)) s with mir.retxTick := s.tim.ticks } bMIR 0x80 0 32 s.mir.buf.length)) ∧
      (s.tim.ticks - s.mir.ackTick ≥ 800000 * fget s bMIR 0x54 0 7 → exec .mirrorLossTimeout s = .next (linkTo s 0))) ∧
    (s.mir.link ≠ 2 ∨ s.mir.buf = [] → exec .mirrorRetransmitTimeout s = .next s ∧ exec .mirrorLossTimeout s = .next s) ∧
    (s.tim.ticks - s.mir.ackTick < 80000 ∨ s.tim.ticks - s.mir.retxTick < 80000 → exec .mirrorRetransmitTimeout s = .next s) ∧
    (s.tim.ticks - s.mir.ackTick < 800000 * fget s bMIR 0x54 0 7 → exec .mirrorLossTimeout s = .next s) ∧
    (s.mir.link = 2 → s.tim.ticks - s.mir.ackSent ≥ 8000 → exec .mirrorAckTimer s = .next (sendAck s)) ∧
    (s.mir.link ≠ 2 ∨ s.tim.ticks - s.mir.ackSent < 8000 → exec .mirrorAckTimer s = .next s) ∧
    (s.role = .shadow → s.inMode .live = true → s.tim.ticks - s.mir.digSent ≥ 16000 →
      exec .digestSendTimer s = .next ((s.mir.tens.map (·.1)).foldl sendDigests { s with mir.digSent := s.tim.ticks })) ∧
    (s.role ≠ .shadow ∨ s.inMode .live = false ∨ s.tim.ticks - s.mir.digSent < 16000 → exec .digestSendTimer s = .next s) ∧
    (n = min 64 ((strm s t).dur - (getMir s t).digNext) →
      (n ≠ 0 → (getMir s t).st = 2 → mirMay s mDIGEST (16 + 32 * n) = true →
        ds = (List.range n).map (fun i => match grainAt s t ((getMir s t).digNext + i) with | some g => g.digest | none => 0) →
        sendDigests s t = mirSend (updMir s t (fun x => { x with digNext := (getMir s t).digNext + n })) mDIGEST t (be 8 (getMir s t).digNext ++ be 2 n ++ be 6 0 ++ (ds.map digBytes).flatten)) ∧
      (n = 0 ∨ (getMir s t).st ≠ 2 ∨ mirMay s mDIGEST (16 + 32 * n) = false → sendDigests s t = s)) ∧
    (s.role = .primary → tenantBit s bMIR 0x40 t = true → (getMir s t).st ≠ 3 → lagBeyond s t = true → (getMir s t).lagged = false →
      exec (.mirrorLagTimeout t) s = .next (mirrorCause (updMir s t (fun x => { x with lagged := true })) t)) ∧
    (s.role ≠ .primary ∨ tenantBit s bMIR 0x40 t = false ∨ (getMir s t).st = 3 ∨ lagBeyond s t = (getMir s t).lagged → exec (.mirrorLagTimeout t) s = .next s)

/-- R434, R436, R437, R440, R443, R444, R454, R458, R634: the open row of a stream is padded when its hold time, or the commit delay of its first waiting item, has passed; the oldest row, once closed and programmed, leaves the
buffer and makes its grains durable; the oldest unsealed closed segment whose rows are all programmed is copied to Heartwood and sealed; a closed Sapwood superblock is erased when each of its segments is sealed and past
its retention, or retired; the erases of a RETIRE and the programs of a LOAD IMAGE form their reply when they are complete. -/
def Obligations.RowsAndSealsComplete : Prop :=
  ∀ (s s1 s2 : State) (t n i w sn : Nat) (fails again bad left : List Nat) (r : Row) (g : Segment) (x : Super) (dig : BitVec 384) (c : Cmd) (im : Image) (pw pw2 : Option Nat),
    (openRow s.jrn.rows t = some r →
      (s.tim.ticks - r.opened ≥ ticksOfUs (fget s bJRN 0x30 0 16) → exec (.rowHoldTimeout t) s = .next (bumpWrap { s with jrn.rows := closeRow s.jrn.rows t } bJRN 0x48 0 32 1)) ∧
      (s.tim.ticks - r.opened < ticksOfUs (fget s bJRN 0x30 0 16) → exec (.rowHoldTimeout t) s = .next s) ∧
      (r.waitSince = some w → s.tim.ticks - w ≥ ticksOfUs (fget s bJRN 0x30 16 16) → exec (.fcdelayTimeout t) s = .next (bumpWrap { s with jrn.rows := closeRow s.jrn.rows t } bJRN 0x48 0 32 1)) ∧
      (r.waitSince = none → exec (.fcdelayTimeout t) s = .next s)) ∧
    (openRow s.jrn.rows t = none → exec (.rowHoldTimeout t) s = .next s ∧ exec (.fcdelayTimeout t) s = .next s) ∧
    (oldestRow s t = some r → r.closed = true → programRow s t false r.seg fails again = some s1 → s2 = setStrm s1 t { strm s1 t with progRow := r.idx + 1 } →
      exec (.rowProgramComplete t fails again) s = .next (nowDurable (bumpWrap { s2 with
        jrn.rows := s2.jrn.rows.filter (fun x => !(x.stream == t && x.idx == r.idx)),
        fla.written := (ins s2.fla.written (nowHour s2) (lkD s2.fla.written (nowHour s2) 0 + 1)).filter (fun p => decide (nowHour s2 < p.1 + 25)) } bJRN 0x44 0 32 1) t
        (((strm s1 t).grains.filter (fun g => decide (g.row ≤ r.idx))).foldl (fun a g => max a (g.seq + 1)) 0))) ∧
    (oldestRow s t = some r → r.closed = false → exec (.rowProgramComplete t fails again) s = .next s) ∧
    (oldestRow s t = none → exec (.rowProgramComplete t fails again) s = .next s) ∧
    (nextSeal s t = some g → inQuiet s = false → s.inMode .hold = false → s.inMode .sealed = false → heartRoom s t = true → copyRows 4 s t g.no fails again = some s1 → dig = Config.sha384 (sealRecord s1 t g) →
      s2 = setStrm s1 t { strm s1 t with segs := (strm s1 t).segs.map (fun x => if x.no = g.no then { x with sealTai := some s1.now, sealDig := dig } else x) } →
      exec (.heartwoodSeal t fails again) s = .next (bumpWrap { s2 with jrn.lastSeal := ins s2.jrn.lastSeal t dig } bJRN 0x54 0 32 1)) ∧
    (nextSeal s t = none ∨ inQuiet s = true ∨ s.inMode .hold = true ∨ heartRoom s t = false → exec (.heartwoodSeal t fails again) s = .next s) ∧
    (s.fla.supers[n]? = some x → x.tlc = false → x.isOpen = false → s.inMode .hold = false → (∀ no ∈ x.segs, ∀ g ∈ (strm s x.stream).segs, g.no = no → sapDone s g = true ∨ g.retired = true) →
      s1 = eraseSuper s x bad → left = (s1.fla.supers.filter (fun y => y.stream == x.stream && !y.tlc)).flatMap (·.segs) →
      exec (.sapwoodFree n bad) s =
        .next (setStrm s1 x.stream { strm s1 x.stream with segs := (strm s1 x.stream).segs.map (fun g => if x.segs.contains g.no && !(left.contains g.no) then { g with freed := true } else g) })) ∧
    (s.fla.supers[n]? = none ∨ (∃ y, s.fla.supers[n]? = some y ∧ (y.tlc = true ∨ y.isOpen = true)) → exec (.sapwoodFree n bad) s = .next s) ∧
    (s.con.cmds.find? (flashReady s) = some c →
      (c.phase = .erase t n pw pw2 sn → s1 = (eraseRetired (dropRetired s t n) t bad).1 →
        exec (.flashOperationComplete bad) s = .next (finishCmd s1 c { c.reply with vals := c.reply.vals ++ [((eraseRetired (dropRetired s t n) t bad).2 : Int), (((s.tim.ticks - sn) / 800000 : Nat) : Int)] })) ∧
      (c.phase = .image i im → exec (.flashOperationComplete bad) s = .next (finishCmd { s with sec.slots := upd s.sec.slots i (fun _ => some im) } c c.reply))) ∧
    (s.con.cmds.find? (flashReady s) = none → exec (.flashOperationComplete bad) s = .next s)

/-- R453, R455, R460 to R474: a die that gives no ready status is FAILED, or each die of its channel; a FAILED die is rebuilt onto FREE blocks of its channel or stays stuck; a patrol reads a block of a good die outside quiet windows and HOLD;
a block whose prediction passes the floor, whose reads reach the limit, or that passes a policy level is queued for that reason in that order; a queued block that may move is copied, erased or retired; MSTATE.QUIET shows
the window; wear is evaluated at most hourly, the map is checkpointed every 600 s, dies are calibrated every 100 ms and trained again after a change of 20 °C. -/
def Obligations.FlashCareComplete : Prop :=
  ∀ (s s1 s2 s3 s4 s5 s6 : State) (d k n p lim reason since eol free : Nat) (temp : Int) (fail : Bool) (lost : List (Nat × Nat)) (reads : List FlashRead) (b : Blk) (w c : State × Nat),
    exec (.dieTimeout d false) s = .next (dieFail s d 1) ∧
    exec (.dieTimeout d true) s = .next ((channelDies s (d / 16)).foldl (fun a k => dieFail a k 1) s) ∧
    ((getDie s d).st = 1 → s.inMode .hold = false →
      (rebuildBlks (((listed s d).filter (fun p => p.2.st == 1 || p.2.st == 2 || p.2.st == 3)).map (·.1)) s = some s1 → s2 = putFailcnt (updDie s1 d (fun x => { x with st := 2 })) →
        exec (.rebuildComplete d) s = .next (eventD (fset s2 bFLC 0x14 16 7 100) 9 12 0x0A82
          [d, (((listed s d).filter (fun p => p.2.st == 1 || p.2.st == 2 || p.2.st == 3)).map (fun p => p.2.members)).sum] 0)) ∧
      (rebuildBlks (((listed s d).filter (fun p => p.2.st == 1 || p.2.st == 2 || p.2.st == 3)).map (·.1)) s = none → d ∉ s.fla.stuck →
        exec (.rebuildComplete d) s = .next (putFailcnt { s with fla.stuck := s.fla.stuck ++ [d] }))) ∧
    ((getDie s d).st ≠ 1 ∨ s.inMode .hold = true → exec (.rebuildComplete d) s = .next s) ∧
    (getBlk s k = b → inQuiet s = false → s.inMode .hold = false → (getDie s (k / 8192)).st = 0 → b.good = true → b.st ≠ 0 →
      exec (.patrolRead k reads) s = .next (bumpWrap (updBlk (flashReads s (reads.filter (fun r => r.blk == k))) k (fun b => { b with patrol := nowSec s })) bFLC 0x80 0 32 1)) ∧
    (getBlk s k = b → inQuiet s = true ∨ s.inMode .hold = true ∨ (getDie s (k / 8192)).st ≠ 0 ∨ b.good = false ∨ b.st = 0 → exec (.patrolRead k reads) s = .next s) ∧
    (getBlk s k = b → p = predicted s k → lim = rdLimit b.tlc →
      (b.st ∈ [1, 2, 3] → (getDie s (k / 8192)).st = 0 →
        (p > 5500000000 ∨ b.level = 17 → exec (.blockEvaluate k) s = .next (queueBlk s k reFLOOR (p / 1000000) 5500)) ∧
        (p ≤ 5500000000 → b.level ≠ 17 → b.reads ≥ lim → exec (.blockEvaluate k) s = .next (queueBlk s k reDISTURB b.reads lim)) ∧
        (p ≤ 5500000000 → b.level ≠ 17 → b.reads < lim → p > fget s bFLC 0x30 0 6 * 110000000 ∨ b.reads * 100 ≥ fget s bFLC 0x30 8 7 * lim ∨ b.level = 16 →
          exec (.blockEvaluate k) s = .next (queueBlk s k rePOLICY 0 0)) ∧
        (p ≤ 5500000000 → b.reads < lim → b.level ≠ 17 → b.level ≠ 16 → p ≤ fget s bFLC 0x30 0 6 * 110000000 → b.reads * 100 < fget s bFLC 0x30 8 7 * lim →
          exec (.blockEvaluate k) s = .next s)) ∧
      (b.st ∉ [1, 2, 3] ∨ (getDie s (k / 8192)).st ≠ 0 → exec (.blockEvaluate k) s = .next s)) ∧
    ((getBlk s k).queued = some (reason, since) → mayMove s k reason since = true → pickOn s (k / 8192) = some n →
      s1 = lost.foldl (fun a p => mediaError a p.1 p.2 (k / 8192) (k % 8192)) (moveBlk s k n reason) →
      exec (.relocation k fail lost) s = .next (
        if reason = rePROGFAIL then growBad s1 k else if reason = rePOLICY then eraseBlk (bumpWrap s1 bFLC 0x84 0 32 1) k fail else eraseBlk (bumpWrap s1 bFLC 0x88 0 32 1) k fail)) ∧
    ((getBlk s k).queued = none ∨ (∃ r t, (getBlk s k).queued = some (r, t) ∧ (mayMove s k r t = false ∨ pickOn s (k / 8192) = none)) → exec (.relocation k fail lost) s = .next s) ∧
    exec .quietWindowBoundary s = .next (fset s bFLC 0x14 6 1 (b2n (inQuiet s))) ∧
    (s.tim.ticks - s.fla.evalTick ≥ 2880000000000 → s1 = wearBlocks { s with fla.evalTick := s.tim.ticks } → eol = deviceEol s1 (·.1) →
      s2 = rawSet s1 bFLC 0x18 (eol + 65536 * deviceEol s1 (·.2.1)) → free = hoursOf s2 (freeSupers s2) →
      s3 = rawSet (rawSet s2 bFLC 0x1C (deviceEol s2 (·.2.2) + 65536 * free)) bFLC 0x20 (rows24 s2 / 128) →
      s4 = fset s3 bJRN 0x38 0 16 (hoursOf s3 (freeSupers s3 + (s3.fla.supers.filter (fun x => !x.tlc)).length)) →
      s5 = (if free < 24 ∧ fget s4 bFLC 0x14 10 1 = 0 then eventD s4 9 12 0x0A83 [free] 0 else s4) → s6 = fset s5 bFLC 0x14 10 1 (if free < 24 then 1 else 0) →
      w = wearLevel s6 8 1 180 200 eol s6.fla.warnHours → c = wearLevel w.1 9 2 30 40 eol s6.fla.critHours →
      exec .wearEvaluate s = .next { c.1 with fla.warnHours := w.2, fla.critHours := c.2 }) ∧
    (s.tim.ticks - s.fla.evalTick < 2880000000000 → exec .wearEvaluate s = .next s) ∧
    (s.tim.ticks - s.fla.ckptTick ≥ 480000000000 → exec .mapCheckpoint s = .next { s with fla.ckpt := s.fla.blocks, fla.ckptTick := s.tim.ticks }) ∧
    (s.tim.ticks - s.fla.ckptTick < 480000000000 → exec .mapCheckpoint s = .next s) ∧
    (s.tim.ticks - s.fla.zqTick ≥ 80000000 → exec .zqCalibration s = .next { s with fla.zqTick := s.tim.ticks }) ∧
    (s.tim.ticks - s.fla.zqTick < 80000000 → exec .zqCalibration s = .next s) ∧
    (temp - (getDie s d).trainTemp ≥ 20 ∨ (getDie s d).trainTemp - temp ≥ 20 → exec (.dqTraining d temp) s = .next (updDie s d (fun x => { x with trainTemp := temp }))) ∧
    (temp - (getDie s d).trainTemp < 20 → (getDie s d).trainTemp - temp < 20 → exec (.dqTraining d temp) s = .next s)

/-- R64, R103, R104, R446, R479, R490 to R493, R581, R612: on a device that is not held in reset, an external or watchdog reset flushes the journal with POWERFAIL cause 2 and resets; the power-fail latch flushes with cause 1 and what the
buffer could program, counts, and holds the device in reset until 100 ms after the sequence; a falling island rail loses the buffer; a rising rail releases; a glitch is counted; VBAT lost while held zeroizes the vault;
a lockstep mismatch enters HOLD; the end of a HOLD flush lets an asked reset follow. A reset leaves the mode SEALED and every register, core, book and counter as at power-on but keeps one-time storage, slots, the key store, flash and the journal. -/
def Obligations.ResetsComplete : Prop :=
  ∀ (s u : State) (rail kept lat c : Nat),
    (s.pwr.held = false →
      exec .externalReset s = .next (resetTo (powerFlush s 2 s.jrn.rows.length) 2) ∧
      exec .mgmtWatchdogExpire s = .next (resetTo (powerFlush s 2 s.jrn.rows.length) 4) ∧
      exec .mgmtLockstepMismatch s = .next (enterHold s hMGMT_LOCKSTEP 0 0) ∧
      exec (.pfailLatch kept lat) s = .next (pfSequence s kept lat) ∧
      exec .pfailGlitch s = .next (bumpSat s bPWR 0x88 16 16 1) ∧
      exec .pfailRestart s = .next s ∧ exec .vbatLost s = .next s ∧
      (rail = 2 ∨ rail = 3 → exec (.powerOnReset rail false kept lat) s = .next (heldReset (bufferLost s) false)) ∧
      (rail = 0 ∨ rail = 1 ∨ rail = 4 → exec (.powerOnReset rail false kept lat) s = .next (pfSequence s kept lat)) ∧
      exec (.powerOnReset rail true kept lat) s = .next s) ∧
    (s.pwr.held = true →
      exec .externalReset s = .next s ∧ exec .mgmtWatchdogExpire s = .next s ∧ exec .mgmtLockstepMismatch s = .next s ∧ exec (.pfailLatch kept lat) s = .next s ∧ exec .pfailGlitch s = .next s ∧
      (s.pwr.huDone = true → exec .pfailRestart s = .next (release s)) ∧ (s.pwr.huDone = false → exec .pfailRestart s = .next s) ∧
      (rail ≤ 4 → exec (.powerOnReset rail true kept lat) s = .next (release s)) ∧ exec (.powerOnReset rail false kept lat) s = .next s ∧
      (∃ t, exec .vbatLost s = .next t ∧ t.sec.vault.zeroized = true ∧ t.sec.vault.zcount = 1 ∧ t.sec.vault.swk = false ∧ t.sec.vault.vbatLost = true ∧ t.cpu.keys = [] ∧ t.awp.kek = [] ∧
        t.sec.otp = s.sec.otp ∧ t.jrn = s.jrn ∧ t.fla = s.fla ∧ t.pwr = s.pwr)) ∧
    exec .holdFlushComplete s = .next (resetIfAsked (holdFlushDone s)) ∧
    (u = resetTo s c →
      u.sys.mode = State.reset.sys.mode ∧ u.books = [] ∧ u.cpu = State.reset.cpu ∧ u.awp.sessions = [] ∧ u.awp.inputs = [] ∧ u.jrn.rows = [] ∧ u.lane = State.reset.lane ∧ u.mir = State.reset.mir ∧
      u.sec.rstCause = c ∧ u.sec.otp = s.sec.otp ∧ u.sec.slots = s.sec.slots ∧ u.awp.kek = s.awp.kek ∧ u.fla = s.fla ∧ u.rpl.sets = s.rpl.sets ∧ u.wit.tags = s.wit.tags ∧ u.tim.ticks = s.tim.ticks ∧
      u.pending = s.pending ∧ (∀ t, (strm u t).grains = (strm s t).grains ∧ (strm u t).dur = (strm s t).dur ∧ (strm u t).reqs = if lk s.jrn.streams t = none then emptyStream.reqs else []))

/-- R104, R126, R130, R487, R489, R496, R518, R622: a hold-up sample shows the store voltage; below 98 % of the calibrated one the commit window is formed again and taken where it is smaller, counted and journaled, with HOLD below 1,024 KiB; a cell
voltage that falls below 2.70 V is journaled once; off power each sample counts a second; below 2.3 V one entry records the stop and nothing is sensed from then on; a loop's second sample in a row of one class and the first sample with the junction out of its limits are logged, and a ZEROIZE reaction erases the vault at once. A device held in reset takes no hold-up or cell sample; one that is not takes no vault sample. -/
def Obligations.PowerSamplesComplete : Prop :=
  ∀ (s s1 s2 : State) (mv w : Nat) (temp : Int) (v v1 : VaultSt) (loops : List Nat) (a : VaultSt × List Raise) (raised : List Raise),
    (s.pwr.held = false → s1 = fset s bPWR 0x24 16 16 (sat 16 mv) →
      (fget s bPWR 0x14 0 1 = 0 ∨ 100 * mv ≥ 98 * s.pwr.calV0 → exec (.holdupSample mv) s = .next s1) ∧
      (fget s bPWR 0x14 0 1 ≠ 0 → 100 * mv < 98 * s.pwr.calV0 → w = windowOf (energyAt s1 mv) (rawGet s1 bPWR 0x34) (rawGet s1 bPWR 0x38) →
        (w ≥ rawGet s1 bJRN 0x20 → exec (.holdupSample mv) s = .next s1) ∧
        (w < rawGet s1 bJRN 0x20 → s2 = drainOver (eventD (bumpSat (fset (putCwin s1 w) bPWR 0x24 0 16 (sat 16 mv)) bPWR 0x88 0 16 1) 9 0xC 0x0D81 [mv, w] 0) →
          exec (.holdupSample mv) s = .next (if w < 1024 then enterHold s2 hHOLDUP_LOST 0 0 else s2))) ∧
      (mv < 2700 → s.pwr.vbatLow = false → exec (.vbatLow mv) s = .next (eventD { s with sec.vault.vbatMv := sat 16 mv, pwr.vbatLow := true } 9 0xC 0x0D82 [mv] 0)) ∧
      (mv < 2700 → s.pwr.vbatLow = true → exec (.vbatLow mv) s = .next { s with sec.vault.vbatMv := sat 16 mv, pwr.vbatLow := true }) ∧
      (mv ≥ 2700 → exec (.vbatLow mv) s = .next { s with sec.vault.vbatMv := sat 16 mv, pwr.vbatLow := false }) ∧
      exec (.vaultMonitorSample loops temp mv) s = .next s) ∧
    (s.pwr.held = true → v = { s.sec.vault with offSecs := s.sec.vault.offSecs + 1, vbatMv := sat 16 mv } →
      exec (.holdupSample mv) s = .next s ∧ exec (.vbatLow mv) s = .next s ∧
      (lkD v.offState 9 0 = 1 → exec (.vaultMonitorSample loops temp mv) s = .next { s with sec.vault := v }) ∧
      (lkD v.offState 9 0 ≠ 1 → mv < 2300 → exec (.vaultMonitorSample loops temp mv) s =
        .next { s with sec.vault := vaultLog { v with offState := ins v.offState 9 1 } (raiseNow srcVBAT 0 0 0) }) ∧
      (lkD v.offState 9 0 ≠ 1 → mv ≥ 2300 →
        a = (loops.zipIdx.filter (fun p => decide (p.2 < 8) && bit (lkD v.react p.2 0) 8)).foldl (fun a p => ((vaultLoop a.1 p.2 p.1).1, a.2 ++ (vaultLoop a.1 p.2 p.1).2)) (v, []) →
        raised = (if (temp < -40 ∨ 500 < temp) ∧ lkD a.1.offState 8 0 = 0 then a.2 ++ [raiseNow srcDIE 2 0 0] else a.2) →
        v1 = raised.foldl vaultLog { a.1 with offState := ins a.1.offState 8 (if temp < -40 ∨ 500 < temp then 1 else 0) } →
        ((∃ r ∈ raised, vaultReaction v1 r = 3) → exec (.vaultMonitorSample loops temp mv) s = .next { zeroize { s with sec.vault := v1 } with sec.eraseTick := none }) ∧
        ((∀ r ∈ raised, vaultReaction v1 r ≠ 3) → exec (.vaultMonitorSample loops temp mv) s = .next { s with sec.vault := v1 })))

/-- R96 to R98, R121 to R124, R127, R135, R604, R614: a die class that is raised latches its bit of TSTAT with an EVENT grain and carries out its reaction: none, SUSPEND, HOLD with it, or ZEROIZE with both, which leaves no tenant key, session key or key slot; a
temperature sample sets the throttle by its hottest sensor, raises TEMP once when the junction leaves its limits and ends a wait for 0 °C; 1 ms at TJ_HOLD enters HOLD; the scrubber compares every voted field, repairs what it can, and enters HOLD where no two copies agree. -/
def Obligations.TamperAndThermalComplete : Prop :=
  ∀ (s s1 s2 s3 : State) (x : Raise) (i : Instr) (temps : List Int) (us : List Upset) (m r : State × Bool) (t0 : Nat),
    ((i = .clockTamper ∧ x = raiseNow srcDIE 3 0 0) ∨ (i = .supplyGlitch ∧ x = raiseNow srcDIE 1 0 0) →
      (s.pwr.held = true → exec i s = .next s) ∧
      (s.pwr.held = false → s1 = latch s x →
        (reaction s x = 0 → exec i s = .next s1) ∧
        (reaction s x = 1 → exec i s = .next (reactSuspend s1)) ∧
        (reaction s x = 2 → exec i s = .next (enterHold (reactSuspend s1) hTAMPER 0 0)) ∧
        (reaction s x = 3 → exec i s = .next (enterHold (zeroize (reactSuspend s1)) hZEROIZE 0 0)))) ∧
    ((zeroize s).awp.kek = [] ∧ (zeroize s).cpu.keys = [] ∧ (zeroize s).cpu.draws = [] ∧ (zeroize s).sec.vault.swk = false ∧ (zeroize s).sec.vault.zeroized = true ∧
      (zeroize s).sec.vault.zcount = min (s.sec.vault.zcount + 1) 255 ∧ (∀ p ∈ (zeroize s).awp.sessions, p.2.key = 0 ∧ p.2.keyHeld = false) ∧ (zeroize s).jrn = s.jrn ∧ (zeroize s).books = s.books) ∧
    (temps ≠ [] → s.pwr.held = false → s1 = throttle { s with hlt.temps := temps } (hottest temps 0).1 (hottest temps 0).2 → s2 = { s1 with hlt.tempTamper := tempOut temps } →
      s3 = (if s2.sec.coldWait = true ∧ (hottest temps 0).1 ≥ 0 then { s2 with sec.coldWait := false, sec.stepSince := s.tim.ticks } else s2) →
      (tempOut temps = true → s.hlt.tempTamper = false → exec (.thermalSample temps) s = .next (tamper s3 [raiseNow srcDIE 2 0 0])) ∧
      (tempOut temps = false ∨ s.hlt.tempTamper = true → exec (.thermalSample temps) s = .next s3)) ∧
    (temps = [] ∨ s.pwr.held = true → exec (.thermalSample temps) s = .next s) ∧
    (s.hlt.holdHot = some t0 → t0 + 800000 ≤ s.tim.ticks → exec .thermalHold s = .next (enterHold s hTHERMAL 0 0)) ∧
    (s.hlt.holdHot = none ∨ (s.hlt.holdHot = some t0 ∧ s.tim.ticks < t0 + 800000) → exec .thermalHold s = .next s) ∧
    (m = scrubField s bSYS 0x20 0 0 3 us → r = scrubAll m.1 us →
      (m.2 = true ∨ DMode.ofCode (r.1.sys.mode.maj % 8) = none → exec (.tmrScrub us) s = .next (enterHold r.1 hMODE_VOTE 0 0)) ∧
      (m.2 = false → DMode.ofCode (r.1.sys.mode.maj % 8) ≠ none → r.2 = true → exec (.tmrScrub us) s = .next (enterHold r.1 hTMR_NOVOTE 0 0)) ∧
      (m.2 = false → DMode.ofCode (r.1.sys.mode.maj % 8) ≠ none → r.2 = false → exec (.tmrScrub us) s = .next r.1))

/-- R499, R500, R504, R508, R509, R511, R513 to R515 while the mesh runs: an event EVINT after the last raises EVC, takes a switch that is due and queues a beacon every eighth event; the first waiting frame is sent, or dropped by the duty ceiling, or because it cannot end in its slots; a
frame of a tag whose MIC fails or that is not joined is counted; a higher counter is accepted and reported, a flooding copy is counted, any other repetition is a REPLAY; a paired tag joins; a tag silent to its due time is LOST; 16 or more failures in a minute are journaled. -/
def Obligations.WitnessComplete : Prop :=
  ∀ (s s1 s2 : State) (e a air n st : Nat) (busy : Bool) (f : WitFrame) (i : Instr) (q : Nat × Nat) (rest : List (Nat × Nat)) (eui : BitVec 64) (fctr : Nat) (p : Nat × Tag) (tag : Tag),
    (s.wit.run = true →
      (s.tim.ticks ≥ s.wit.evTick + evTicks s.wit.air → e = (s.wit.evc + 1) % 2 ^ 32 → s1 = witApply { s with wit.evc := e, wit.evTick := s.wit.evTick + evTicks s.wit.air } →
        s2 = (if s1.wit.switch = some e then { s1 with wit.air := airRegs s1, wit.switch := none } else s1) →
        (e % 8 = 0 → (∀ p ∈ s2.wit.txq, p.1 ≠ wfBEACON) → exec .witnessEventInstant s = .next { s2 with wit.txq := (wfBEACON, 0xFF) :: s2.wit.txq }) ∧
        (e % 8 ≠ 0 → exec .witnessEventInstant s = .next s2)) ∧
      (s.wit.txq = q :: rest → fget s bWIT 0x10 0 8 ≠ 0 → air = (12 + psdu s q.1) * 16 → s1 = { s with wit.txq := rest } →
        (airUsed s + air > 360000 * fget s bWIT 0x14 24 8 → exec (.witnessTransmit busy) s = .next (bumpSat s1 bWIT 0x54 16 16 1)) ∧
        (airUsed s + air ≤ 360000 * fget s bWIT 0x14 24 8 → exec (.witnessTransmit true) s = .next (bumpSat s1 bWIT 0x54 0 16 1)) ∧
        (airUsed s + air ≤ 360000 * fget s bWIT 0x14 24 8 → s2 = { s1 with wit.devCtr := (s.wit.devCtr + 1) % 2 ^ 32, wit.tx := (s.tim.ticks, air) :: s.wit.tx.filter (fun p => decide (s.tim.ticks - p.1 < ticksOfS 3600)), wit.ack := if q.1 = wfBEACON then [] else s.wit.ack } →
          exec (.witnessTransmit false) s = .next (bumpWrap (emitOut s2 (.witness q.1 q.2)) bWIT 0x50 0 32 1))) ∧
      (i = .report f ∨ i = .alarm f → f.slot < 16 → s.tim.ticks ≥ s.wit.evTick + f.slot * 12500000 → st = (getTag s f.src).st →
        (f.micOk = false ∨ (st ≠ 2 ∧ st ≠ 3) → exec i s = .next (bumpWrap s bWIT 0x44 0 32 1)) ∧
        (f.micOk = true → st = 2 ∨ st = 3 →
          (f.fctr > (getTag s f.src).last → exec i s = .next (tagReport (acceptFrame s f.src f.fctr) f)) ∧
          (f.fctr ≤ (getTag s f.src).last → floodCopy s f.src f.fctr = true → exec i s = .next (bumpWrap s bWIT 0x48 0 32 1)) ∧
          (f.fctr ≤ (getTag s f.src).last → floodCopy s f.src f.fctr = false → exec i s = .next (replayFrame s f.src)))) ∧
      (fget s bWIT 0x10 0 8 ≠ 0 → s.wit.tags.find? (fun p => p.2.st != 0 && p.2.eui == eui) = some p →
        (fctr > (getTag s p.1).last → s1 = acceptFrame s p.1 fctr → exec (.joinreq eui fctr true) s = .next { s1 with wit.txq := s1.wit.txq ++ [(wfJOINRSP, p.1)] }) ∧
        exec (.joinreq eui fctr false) s = .next (bumpWrap s bWIT 0x44 0 32 1)) ∧
      (getTag s a = tag → tag.st = 2 → tag.due = some n → s.tim.ticks ≥ n → s1 = updTag s a (fun t => { t with st := 3, due := none, losses := sat 32 (t.losses + 1) }) →
        exec (.supervisionTimeout a) s = .next (tamper (bumpSat s1 bWIT 0x58 0 32 1) [raiseNow srcWITNESS 6 a 0])) ∧
      (s.tim.ticks ≥ s.wit.authTick + 48000000000 → n = (rawGet s bWIT 0x44 + 2 ^ 32 - s.wit.authAt) % 2 ^ 32 → s1 = { s with wit.authTick := s.wit.authTick + 48000000000, wit.authAt := rawGet s bWIT 0x44 } →
        exec .authfailMinute s = .next (if n ≥ 16 then eventD s1 9 0xC 0x0680 [(s.tim.tai - (s.tim.ticks - s.wit.authTick) * 100000) / 80000, n] 0 else s1))) ∧
    (s.wit.run = false → exec .witnessEventInstant s = .next s ∧ exec (.witnessTransmit busy) s = .next s ∧ exec (.report f) s = .next s ∧ exec (.alarm f) s = .next s ∧ exec (.joinreq eui fctr busy) s = .next s ∧
      exec (.supervisionTimeout a) s = .next s ∧ exec .authfailMinute s = .next s)

/-- R516, R517, R519, 20.6: a driven loop shows the measured resistance; on an enabled loop a pulse of the present class changes nothing but the run, the third pulse in a row of another fault class raises it and the tenth normal one ends the fault with an event; a pulse is OPEN, SHORT, DRIFT or NORMAL
by the nominal value and band; under calibration each reading is kept and the hundredth completes it. A loop that is neither enabled nor under calibration is not driven. -/
def Obligations.LoopsComplete : Prop :=
  ∀ (s s1 s2 s3 : State) (n x nom band c run : Nat) (r : Option Nat) (m : Nat × State) (l : List Nat),
    (n ≥ 8 ∨ s.pwr.held = true ∨ (loopOn s n = false ∧ calWaits s n = false) → exec (.loopPulse n r) s = .next s) ∧
    (n < 8 → s.pwr.held = false → m = loopMeas s r → s1 = fset m.2 bWIT (0x104 + 16 * n) 0 16 m.1 →
      (loopOn s n = true → loopOn s1 n = true → c = loopClass (10 * fget s1 bWIT (0x100 + 16 * n) 0 16) (fget s1 bWIT (0x100 + 16 * n) 16 8) r → run = (if (getLoop s1 n).cand = c then (getLoop s1 n).run + 1 else 1) →
        s2 = { s1 with wit.loops := ins s1.wit.loops n { getLoop s1 n with cand := c, run := run } } →
        (c = (getLoop s1 n).cls ∨ (c = 0 ∧ run < 10) ∨ (c ≠ 0 ∧ run < 3) → calWaits s2 n = false → exec (.loopPulse n r) s = .next s2) ∧
        (c ≠ (getLoop s1 n).cls → c ≠ 0 → run ≥ 3 → loopPulse s1 n c m.1 =
          tamper (bumpSat { s2 with wit.loops := ins s2.wit.loops n { getLoop s2 n with cls := c } } bWIT (0x108 + 16 * n) 0 32 1) [raiseNow srcLOOP c n 0]) ∧
        (c ≠ (getLoop s1 n).cls → c = 0 → run ≥ 10 → loopPulse s1 n c m.1 = eventD { s2 with wit.loops := ins s2.wit.loops n { getLoop s2 n with cls := c } } 9 0xC 0x0684 [n, m.1] 0) ∧
        (calWaits (loopPulse s1 n c m.1) n = false → exec (.loopPulse n r) s = .next (loopPulse s1 n c m.1))) ∧
      (calWaits s n = true → s3 = (if loopOn s1 n = true then loopPulse s1 n (loopClass (10 * fget s1 bWIT (0x100 + 16 * n) 0 16) (fget s1 bWIT (0x100 + 16 * n) 16 8) r) m.1 else s1) → calWaits s3 n = true →
        l = (match r with | some x => if 100 ≤ x ∧ x ≤ 100000 then x else 0 | none => 0) :: (getLoop s3 n).samples → s2 = { s3 with wit.loops := ins s3.wit.loops n { getLoop s3 n with samples := l } } →
        exec (.loopPulse n r) s = .next (if l.length ≥ 100 then loopCal s2 n (l.take 100) else s2))) ∧
    loopClass 0 band r = 1 ∧ (nom ≠ 0 → loopClass nom band none = 1 ∧
      (x < 100 ∨ 8 * x < nom → loopClass nom band (some x) = 2) ∧
      (100 ≤ x → nom ≤ 8 * x → x > 100000 ∨ x > 8 * nom → loopClass nom band (some x) = 1) ∧
      (100 ≤ x → nom ≤ 8 * x → x ≤ 100000 → x ≤ 8 * nom → 100 * x < nom * (100 - band) ∨ nom * (100 + band) < 100 * x → loopClass nom band (some x) = 3) ∧
      (100 ≤ x → nom ≤ 8 * x → x ≤ 100000 → x ≤ 8 * nom → nom * (100 - band) ≤ 100 * x → 100 * x ≤ nom * (100 + band) → loopClass nom band (some x) = 0)) ∧
    loopMeas s none = ((drawFree s).1.toNat % 2 ^ 16, (drawFree s).2) ∧ (100 ≤ x → x ≤ 100000 → loopMeas s (some x) = (x / 10, s))

/-- R397, R433, R524, R538 to R541, R605 to R607: the counts of every second that has ended go to the streams of their active tenants, in parts of 92 sessions, and leave; a run in REPLAY that evaluates nothing takes its next recorded grain, as an input to evaluate, as a record to write, or
ends; a sample is kept until the second ends, when each channel's mean, count or percentile goes to its slot and the samples and latencies leave; a minute or hour is summarized once. -/
def Obligations.RecordsComplete : Prop :=
  ∀ (s s1 : State) (vals : List Int) (ended : List Nat) (r : Run) (g : ImpGrain) (i : Input),
    (ended = (s.awp.counts.map (fun p => p.1 / 16 / 2 ^ 32)).eraseDups.filter (fun k => decide (k / 64 < nowSec s)) →
      s1 = ended.foldl (fun a k => if tenantActive a (k % 64) = true ∧ a.jrn.closed = false ∧ a.inMode .replay = false then
        putParts (secondCounts a (k % 64) (k / 64)).length a (k % 64) (k / 64) 0 (secondCounts a (k % 64) (k / 64)) else a) s →
      exec .countsWrite s = .next { s1 with awp.counts := s1.awp.counts.filter (fun p => decide (nowSec s ≤ p.1 / 16 / 2 ^ 32 / 64)) }) ∧
    (s.rpl.run = none → exec .replayGrain s = .next s) ∧
    (s.rpl.run = some r →
      (r.cur.isSome = true ∨ s.inMode .replay = false → exec .replayGrain s = .next s) ∧
      (r.cur = none → s.inMode .replay = true → measDiffers s r = false →
        (recGrain s r.tenant r.pos = none → exec .replayGrain s = .next (advanceRun s)) ∧
        (recGrain s r.tenant r.pos = some g →
          (g.input = some i → g.hdr.typ = 1 ∨ g.hdr.typ = 2 → exec .replayGrain s = .next { s with rpl.run := some { r with cur := some (runInput g i) } }) ∧
          (g.input = none ∨ (g.hdr.typ ≠ 1 ∧ g.hdr.typ ≠ 2) → exec .replayGrain s = .next (writeRecorded (applySales s r.tenant g.hdr g.body)))))) ∧
    (s.pwr.held = false → exec (.telemetrySample vals) s = .next { s with hlt.samples := s.hlt.samples ++ [vals] }) ∧
    (s.pwr.held = true → exec (.telemetrySample vals) s = .next s) ∧
    (s.sec.s5done = true → nowSec s ≠ 0 → formed s 0 (nowSec s - 1) = false → s1 = (List.range 102).foldl (fun a ch => putSecond a (nowSec s - 1) ch) s →
      exec .telemetrySecond s = .next { s1 with hlt.samples := [], hlt.latencies := [], hlt.elogSaved := s1.hlt.elog, hlt.lostSaved := (s1.hlt.lost, s1.hlt.lostSaid) }) ∧
    (s.sec.s5done = false ∨ nowSec s = 0 ∨ formed s 0 (nowSec s - 1) = true → exec .telemetrySecond s = .next s) ∧
    (s.sec.s5done = true → nowSec s ≥ 3600 → formed s 1 ((nowSec s / tierPeriod 1 - 1) * tierPeriod 1) = true → formed s 2 ((nowSec s / tierPeriod 2 - 1) * tierPeriod 2) = false →
      exec .telemetrySummary s = .next ((List.range 102).foldl (fun a ch => { a with hlt.tiers := ins a.hlt.tiers (tmKey 2 ch ((nowSec s / tierPeriod 2 - 1) * tierPeriod 2)) (summary a 2 ch ((nowSec s / tierPeriod 2 - 1) * tierPeriod 2)) }) s)) ∧
    (s.sec.s5done = true → nowSec s ≥ 60 → formed s 1 ((nowSec s / tierPeriod 1 - 1) * tierPeriod 1) = false →
      s1 = (List.range 102).foldl (fun a ch => { a with hlt.tiers := ins a.hlt.tiers (tmKey 1 ch ((nowSec s / tierPeriod 1 - 1) * tierPeriod 1)) (summary a 1 ch ((nowSec s / tierPeriod 1 - 1) * tierPeriod 1)) }) s →
      exec .telemetrySummary s = .next (summarize s1 2)) ∧
    (s.sec.s5done = false → exec .telemetrySummary s = .next s)

/-- R49, R549, R550, R554, R556, R558 to R560, R565: BREAK counts, voids the challenge and drops the authority to OBSERVE; a line that fails before stage 5 is counted and answered with its code and no CJN, where the console reads; a challenge is void after 60 s; 15 minutes without a line
drop the authority, and CON1 then ends an AUDIT that it holds; a lock ends at its instant; a reply leaves once its COMMAND grain is durable, with the CJ replies that waited for it and an asked reset after it; RTS lets the waiting replies and event lines leave. -/
def Obligations.ConsoleEventsComplete : Prop :=
  ∀ (s s1 : State) (c code cjn t : Nat) (h : Chal) (k : Cmd),
    (c < 2 → s.pwr.held = false → s1 = bumpSat (updCon s c (fun k => { k with chal := none })) bCON (0x100 + 0x20 * c + 0x18) 16 16 1 → exec (.breakLine c) s = .next (dropAuth s1 c mcBreak)) ∧
    (c ≥ 2 ∨ s.pwr.held = true → exec (.breakLine c) s = .next s ∧ exec (.rtsAsserted c) s = .next s) ∧
    (code ∈ [0x0101, 0x0103, 0x0104, 0x0105] → readsLine s c = true → exec (.badLine c code) s = .next (sendReply
      (bumpWrap (updCon s c (fun k => { k with lastLine := s.tim.ticks, chal := none })) bCON (0x100 + 0x20 * c + 0x0C) 0 32 1) c 0 (reply code [] []))) ∧
    (readsLine s c = false → exec (.badLine c code) s = .next s) ∧
    ((getCon s c).chal = some h → s.tim.ticks - h.since ≥ 48000000000 → exec (.challengeTimeout c) s = .next (updCon s c (fun k => { k with chal := none }))) ∧
    ((getCon s c).chal = none ∨ ((getCon s c).chal = some h ∧ s.tim.ticks - h.since < 48000000000) → exec (.challengeTimeout c) s = .next s) ∧
    (c < 2 → s.tim.ticks - (getCon s c).lastLine ≥ 720000000000 → exec (.consoleIdleTimeout c) s = .next (dropAuth s c mcIdle)) ∧
    (c ≥ 2 ∨ s.tim.ticks - (getCon s c).lastLine < 720000000000 → exec (.consoleIdleTimeout c) s = .next s) ∧
    (c ≠ 1 → dropAuth s c code = updCon s c (fun k => { k with auth := .observe, authSlot := none })) ∧
    (s1 = updCon s 1 (fun k => { k with auth := .observe, authSlot := none }) →
      (s1.inMode .audit = true → s1.con.auditHolder = true → dropAuth s 1 code = transit { s1 with con.auditHolder := false } .quiet code 0) ∧
      (s1.inMode .audit = false ∨ s1.con.auditHolder = false → dropAuth s 1 code = s1)) ∧
    ((getCon s c).lockUntil = some t → t ≤ s.tim.ticks → exec (.authLockExpire c) s = .next (updCon s c (fun k => { k with lockUntil := none }))) ∧
    ((getCon s c).lockUntil = none ∨ ((getCon s c).lockUntil = some t ∧ s.tim.ticks < t) → exec (.authLockExpire c) s = .next s) ∧
    (s.con.cmds.find? (fun c => c.cjn == cjn && c.grained) = some k →
      (cmdDurable s cjn = true → s1 = { s with con.cmds := s.con.cmds.filter (fun k => k.cjn ≠ cjn) } →
        exec (.commandReplyRelease cjn) s = .next (resetIfAsked (tryCj (sendReply (keepRecord s1 k) k.con cjn k.reply)))) ∧
      (cmdDurable s cjn = false → exec (.commandReplyRelease cjn) s = .next s)) ∧
    (s.con.cmds.find? (fun c => c.cjn == cjn && c.grained) = none → exec (.commandReplyRelease cjn) s = .next s) ∧
    (c < 2 → s.pwr.held = false → s1 = updCon s c (fun x => { x with rts := true, txq := [] }) →
      exec (.rtsAsserted c) s = .next (resetIfAsked (flushEvt ((getCon s c).txq.foldl (fun a r => sendReply a c r.1 r.2) s1) c)))

/-- R47 to R52, R535, R564, R581, R582 for a line that nothing refuses before its action: SET MODE LIVE (OPERATE, from SEALED after S9 or QUIET) supersedes a waiting drain and answers at once; QUIET answers at once, or, from LIVE with inputs not durable, when the drain ends, with the inputs
drained and the time; AUDIT is REGULATE on CON1, REPLAY is ENGINEER and waits for no import; HOLD answers when its flush ends; a transition that Table 2.2 does not allow is refused with the mode held; the reset of RESET DEVICE follows its reply. -/
def Obligations.ModeCommandsComplete : Prop :=
  ∀ (s u s1 : State) (l : ConLine) (n t k : Nat) (c : Cmd),
    n = s.con.nextCjn → u = begun l false s →
    (Admits l (specOn .operate [0, 1] [.sealed, .quiet] true true) s →
      (transitOk u .live true = true → Answers (.setModeLive l) s (transit (supersede u n) .live mcCommand n) 0 [(n : Int), 2, (u.now : Int)] []) ∧
      (transitOk u .live true = false → Answers (.setModeLive l) s u eMODE [(modeCode u : Int)] [])) ∧
    (Admits l (quietSpec s) s →
      (transitOk u .quiet true = true → s1 = transit { (if u.inMode .replay then stopRun u else u) with con.auditHolder := false } .quiet mcCommand n →
        (s1.sys.drain = false → Answers (.setModeQuiet l) s s1 0 [(n : Int), 3, (u.now : Int)] []) ∧
        (s1.sys.drain = true → k = (s1.awp.inputs.filter (fun i => !(isDurable s1 i.tenant i.seq))).length →
          exec (.setModeQuiet l) s = .next { s1 with con.cmds := s1.con.cmds.map (fun x => if x.cjn = n then { x with phase := .drain u.tim.ticks k, reply := reply 0 [(n : Int), 3, (u.now : Int)] [] } else x) })) ∧
      (transitOk u .quiet true = false → Answers (.setModeQuiet l) s u eMODE [(modeCode u : Int)] [])) ∧
    (s.sys.drain = true → anyInFlight s = false → s1 = { s with sys.drain := false } →
      (s.con.cmds.find? (fun c => match c.phase with | .drain _ _ => true | _ => false) = some c → c.phase = .drain t k →
        exec .drainComplete s = .next (formReply s1 c.cjn { c.reply with vals := c.reply.vals ++ [(k : Int), (((s.tim.ticks - t) / 800 : Nat) : Int)] })) ∧
      (s.con.cmds.find? (fun c => match c.phase with | .drain _ _ => true | _ => false) = none → exec .drainComplete s = .next s1)) ∧
    (s.sys.drain = false ∨ anyInFlight s = true → exec .drainComplete s = .next s) ∧
    (Admits l (specOn .regulate [1] [.quiet] false true) s →
      (transitOk u .audit true = true → Answers (.setModeAudit l) s { transit u .audit mcCommand n with con.auditHolder := true } 0 [(n : Int), 4, (u.now : Int)] []) ∧
      (transitOk u .audit true = false → Answers (.setModeAudit l) s u eMODE [(modeCode u : Int)] [])) ∧
    (Admits l (specOn .engineer [0, 1] [.quiet] false true) s →
      (transitOk u .replay true = true → importVerifying u = false → Answers (.setModeReplay l) s (transit u .replay mcCommand n) 0 [(n : Int), 5, (u.now : Int)] []) ∧
      (transitOk u .replay true = true → importVerifying u = true → Answers (.setModeReplay l) s u 0x0B01 [] []) ∧
      (transitOk u .replay true = false → Answers (.setModeReplay l) s u eMODE [(modeCode u : Int)] [])) ∧
    (Admits l (specOn .engineer [0, 1] [.sealed, .live, .quiet, .audit, .replay] false true) s → s1 = transit u .hold mcCommand n →
      (s1.jrn.holdFlush = none → Answers (.setModeHold l) s s1 0 [(n : Int), 6, (u.now : Int)] []) ∧
      (s1.jrn.holdFlush.isSome = true →
        exec (.setModeHold l) s = .next { s1 with con.cmds := s1.con.cmds.map (fun x => if x.cjn = n then { x with phase := .hold, reply := reply 0 [(n : Int), 6, (u.now : Int)] [] } else x) })) ∧
    (Admits l (specOn .engineer [0, 1] allModes false true) s →
      exec (.resetDevice l) s = .next (resetIfAsked (formReply { u with con.cmds := u.con.cmds.map (fun k => if k.cjn = n then { k with resets := true } else k) } n (reply 0 [(n : Int)] []))))

/-- R557 to R561 for an untagged AUTH line that nothing refuses before its action: OPERATE and ENGINEER on both consoles and REGULATE on CON1 draw 32 random bytes and set the challenge, or are AUTH_LOCKED; a response of 96 bytes that verifies under the level's key before 60 s sets the authority and voids the challenge; one that does
not counts, voids it, and locks the console for 10 minutes at the third failure within 10 minutes; LOGOUT and OBSERVE drop the authority. An AUTH line with a tag is refused with FORM where the console reads. -/
def Obligations.AuthorityCommandsComplete : Prop :=
  ∀ (s u u1 u2 u3 u4 : State) (l : ConLine) (n : Nat) (i : Instr) (level : Auth) (cons : List Nat) (b1 b2 b3 b4 : BitVec 64) (sig : List Byte) (h : Chal) (slot : Option Nat) (fails : List Nat),
    n = s.con.nextCjn →
    ((i = .authOperate l ∧ level = .operate ∧ cons = [0, 1]) ∨ (i = .authEngineer l ∧ level = .engineer ∧ cons = [0, 1]) ∨ (i = .authRegulate l ∧ level = .regulate ∧ cons = [1]) →
      (l.tag = [] → Admits l (authSpec cons false) s → u = begun l false s →
        (authLocked u l.con = true → Answers i s u eAUTH_LOCKED [] []) ∧
        (authLocked u l.con = false → (b1, u1) = drawFree u → (b2, u2) = drawFree u1 → (b3, u3) = drawFree u2 → (b4, u4) = drawFree u3 →
          Answers i s (updCon u4 l.con (fun k => { k with chal := some ⟨level, n, [b1, b2, b3, b4], u.tim.ticks⟩ })) 0 [] (be 8 b1.toNat ++ be 8 b2.toNat ++ be 8 b3.toNat ++ be 8 b4.toNat))) ∧
      (l.tag ≠ [] → exec i s = .next (badLine s l.con 0x0103))) ∧
    (l.tag = [] → sig.length = 96 → Admits l (authSpec [0, 1] true) s → u = begun l true s →
      (responseKey u l.con sig = some (h, slot) →
        Answers (.authResponse l sig) s (updCon u l.con (fun k => { k with auth := h.level, authSlot := slot, chal := none })) 0 [(h.level.code : Int)] []) ∧
      (responseKey u l.con sig = none → Answers (.authResponse l sig) s (authFailed u l.con) eAUTH_FAIL [] [])) ∧
    (l.tag = [] → Admits l (authSpec [0, 1] false) s → u = begun l false s →
      Answers (.authLogout l) s (dropAuth u l.con mcLogout) 0 [0] [] ∧ Answers (.authObserve l) s (dropAuth u l.con mcLogout) 0 [0] []) ∧
    (l.con < 2 → s.con.cons.length = 2 → fails = s.tim.ticks :: (getCon s l.con).fails.filter (fun t => decide (s.tim.ticks - t < 480000000000)) →
      (getCon (authFailed s l.con) l.con).chal = none ∧ (getCon (authFailed s l.con) l.con).fails = fails.take 3 ∧
      (fails.length ≥ 3 → (getCon (authFailed s l.con) l.con).lockUntil = some (s.tim.ticks + 480000000000)) ∧
      (fails.length < 3 → (getCon (authFailed s l.con) l.con).lockUntil = (getCon s l.con).lockUntil) ∧ (getCon (authFailed s l.con) l.con).auth = (getCon s l.con).auth) ∧
    (∀ c, (getCon s c).chal = none → responseKey s c sig = none) ∧
    (∀ c, (getCon s c).chal = some h → s.tim.ticks - h.since ≥ 48000000000 → responseKey s c sig = none) ∧
    (∀ c key, (getCon s c).chal = some h → s.tim.ticks - h.since < 48000000000 → levelKey s h.level = some (key, slot) →
      responseKey s c sig = if Config.keyVerify key (authMessage c h) sig then some (h, slot) else none)

/-- R566 to R568, R578, R579, R583, R119 for a line that nothing refuses before its action: CJ replies its records once every lower COMMAND grain is durable and waits until then; STATE replies its values and ATTEST a quote under its nonce, also before S5; STAGE BEGIN opens the buffer of its console, DATA writes whole groups
within it, END closes it where it is complete and its digest is the given one, DROP empties it; each is refused with its code elsewhere. -/
def Obligations.InspectionAndStagingComplete : Prop :=
  ∀ (s u : State) (l : ConLine) (n m off : Nat) (nonce : Option Digest) (g : List Word32) (d : Digest) (b b2 : Stage),
    n = s.con.nextCjn → u = begun l false s → b = stageOf u l.con →
    (Admits l (spec .observe allModes true) s →
      (m < 2 ^ 64 → lowerDurable u n = true → exec (.cjFrom l m) s = .next (formReply u n (cjReply u m n))) ∧
      (m < 2 ^ 64 → lowerDurable u n = false → exec (.cjFrom l m) s = .next { u with con.cmds := u.con.cmds.map (fun k => if k.cjn = n then { k with phase := .cj m, reply := reply 0 [] [] } else k) }) ∧
      (1 ≤ m → m ≤ 64 → lowerDurable u n = true → exec (.cjTail l m) s = .next (formReply u n (cjReply u (n - m) n))) ∧
      (1 ≤ m → m ≤ 64 → lowerDurable u n = false → exec (.cjTail l m) s = .next { u with con.cmds := u.con.cmds.map (fun k => if k.cjn = n then { k with phase := .cj (n - m), reply := reply 0 [] [] } else k) })) ∧
    (Admits l (earlySpec true) s → Answers (.state l) s u 0 (stateVals u) [] ∧ Answers (.attest l nonce) s u 0 [] (quote u n (nonce.getD 0))) ∧
    (Admits l (stageSpec true) s →
      (1 ≤ m → m ≤ 25165824 → Answers (.stageBegin l m) s (updCon u l.con (fun k => { k with stage := ⟨.opened, m, []⟩ })) 0 [(n : Int), 1, (m : Int)] []) ∧
      (off % 4 = 0 → 1 ≤ g.length → g.length ≤ 24 →
        (b.st ≠ .opened → Answers (.stageData l off g) s u eSTATE [] []) ∧
        (b.st = .opened → g.zipIdx.any (fun p => groupBad b.size (off + 4 * p.2) p.1) = true → Answers (.stageData l off g) s u eARGS [] []) ∧
        (b.st = .opened → g.zipIdx.any (fun p => groupBad b.size (off + 4 * p.2) p.1) = false →
          b2 = { b with groups := g.zipIdx.foldl (fun a p => ins a (off / 4 + p.2) p.1) b.groups } →
          Answers (.stageData l off g) s (updCon u l.con (fun k => { k with stage := b2 })) 0 [(n : Int), (stagedCount b2 : Int), (b.size : Int)] [])) ∧
      (b.st ≠ .opened → Answers (.stageEnd l d) s u eSTATE [] []) ∧
      (b.st = .opened → stagedCount b ≠ b.size → Answers (.stageEnd l d) s u eINCOMPLETE [] []) ∧
      (b.st = .opened → stagedCount b = b.size → Config.sha256 (stagedBytes b) ≠ d → Answers (.stageEnd l d) s u eDIGEST [] []) ∧
      (b.st = .opened → stagedCount b = b.size → Config.sha256 (stagedBytes b) = d →
        Answers (.stageEnd l d) s (updCon u l.con (fun k => { k with stage := { b with st := .closed } })) 0 [(n : Int), 2] (digBytes d)) ∧
      Answers (.stageDrop l) s (updCon u l.con (fun k => { k with stage := stageEmpty })) 0 [(n : Int), 0] [])

/-- R110 to R112, R115, R483, R560, R584 for a line that nothing refuses before its action, u the state in which it begins and b the bytes of a closed staging buffer: each one-time value is written where it is not set, its order holds and the fuse reads back; a second write is refused with ONCE and one out of order with ORDER; a
fuse that never reads back enters HOLD with cause OTP_FAIL and answers MODE (log 95 DEDUCED); a command that uses the buffer refuses without one with NOSTAGE, and empties it where it succeeds. -/
def Obligations.CommissioningComplete : Prop :=
  ∀ (s u hold u1 : State) (l : ConLine) (n role slot i r : Nat) (hash : Digest) (b : List Byte) (x : Role) (d : Decl) (fuseOk : Bool),
    n = s.con.nextCjn → u = begun l false s → hold = enterHold u hOTP_FAIL 0 0 → b = stagedBytes (stageOf u l.con) →
    (Admits l (specOn .observe [1] [.sealed] true true) s →
      (u.sec.otp.jhash.isSome = false → (runningImage u).map (·.jpub) = some hash →
        Answers (.commissionJkeyHash l hash true true) s { u with sec.otp.jhash := some hash } 0 [(n : Int)] (digBytes hash) ∧
        Answers (.commissionJkeyHash l hash true false) s hold eMODE [(modeCode hold : Int)] []) ∧
      Answers (.commissionJkeyHash l hash false fuseOk) s u eAUTHORITY [] [] ∧
      (u.sec.otp.jhash.isSome = true → Answers (.commissionJkeyHash l hash true fuseOk) s u eONCE [] []) ∧
      (u.sec.otp.jhash.isSome = false → (runningImage u).map (·.jpub) ≠ some hash → Answers (.commissionJkeyHash l hash true fuseOk) s u eKEY_MISMATCH [] [])) ∧
    (Admits l (specOn .regulate [1] [.sealed, .quiet] true true) s →
      ((stageOf u l.con).st ≠ .closed → Answers (.commissionOpkey l fuseOk) s u eNOSTAGE [] []) ∧
      ((stageOf u l.con).st = .closed →
        (b.length ≠ 96 → Answers (.commissionOpkey l fuseOk) s u eARGS [] []) ∧
        (b.length = 96 → u.sec.otp.jhash.isNone = true → Answers (.commissionOpkey l fuseOk) s u eORDER [] []) ∧
        (b.length = 96 → u.sec.otp.jhash.isNone = false → freeSlot u = none → Answers (.commissionOpkey l fuseOk) s u eONCE [] []) ∧
        (b.length = 96 → u.sec.otp.jhash.isNone = false → freeSlot u = some i →
          Answers (.commissionOpkey l true) s (unstaged { u with sec.otp.ops := upd u.sec.otp.ops i (fun _ => some (Config.sha256 b)) } l.con) 0 [(n : Int), (i : Int)] (digBytes (Config.sha256 b)) ∧
          Answers (.commissionOpkey l false) s hold eMODE [(modeCode hold : Int)] []))) ∧
    (roleOf role = some x → Admits l (specOn .regulate [1] [.sealed] true true) s →
      ((u.sec.otp.jhash.isNone = true ∨ freeSlot u = some 0) → Answers (.commissionRole l role fuseOk) s u eORDER [] []) ∧
      (¬ (u.sec.otp.jhash.isNone = true ∨ freeSlot u = some 0) → u.role ≠ .none → Answers (.commissionRole l role fuseOk) s u eONCE [] []) ∧
      (¬ (u.sec.otp.jhash.isNone = true ∨ freeSlot u = some 0) → u.role = .none →
        Answers (.commissionRole l role true) s (writeGenesis { u with sec.otp.role := x }) 0 [(n : Int), (role : Int), (u.now : Int), 65] [] ∧
        Answers (.commissionRole l role false) s hold eMODE [(modeCode hold : Int)] [])) ∧
    (slot < 4 → Admits l (specOn .regulate [1] [.sealed, .quiet] false true) s →
      ((u.sec.otp.revoked[slot]?).getD false = true → Answers (.revokeOpkey l slot fuseOk) s u eONCE [] []) ∧
      ((u.sec.otp.revoked[slot]?).getD false = false →
        u1 = { u with sec.otp.revoked := upd u.sec.otp.revoked slot (fun _ => true),
                      con.cons := u.con.cons.map (fun k => if k.authSlot = some slot then { k with auth := .observe, authSlot := none } else k) } →
        Answers (.revokeOpkey l slot true) s u1 0 [(n : Int), (slot : Int), match activeOp u1 with | some i => (i : Int) | none => -1] [] ∧
        Answers (.revokeOpkey l slot false) s hold eMODE [(modeCode hold : Int)] [])) ∧
    (Admits l (specOn .engineer [0, 1] [.sealed] false true) s →
      ((stageOf u l.con).st ≠ .closed → Answers (.setEclass l) s u eNOSTAGE [] []) ∧
      ((stageOf u l.con).st = .closed →
        (parseDecl b = none → Answers (.setEclass l) s u eARGS [] []) ∧
        (parseDecl b = some d → (opKeyActive u d.op = false ∨ Config.keyVerify d.op (b.take 112) (b.drop 112) = false) → Answers (.setEclass l) s u eSIGNATURE [] []) ∧
        (parseDecl b = some d → ¬ (opKeyActive u d.op = false ∨ Config.keyVerify d.op (b.take 112) (b.drop 112) = false) → u1 = { u with sec.decl := some d } →
          (waitsDecl u1 = true → Answers (.setEclass l) s (unstaged (applyDecl { u1 with sec.stepSince := u1.tim.ticks } d n) l.con) 0 [(n : Int), (d.cls : Int), (d.hudecl : Int), 1] []) ∧
          (waitsDecl u1 = false → Answers (.setEclass l) s (unstaged u1 l.con) 0 [(n : Int), (d.cls : Int), (d.hudecl : Int), 0] [])))) ∧
    (Admits l (specOn .regulate [1] [.quiet] false true) s → r = max u.sec.otp.rollback (((runningImage u).map (·.rollback)).getD 0) →
      Answers (.commitImage l true) s { u with sec.otp.rollback := r } 0 [(n : Int), (r : Int)] [] ∧
      Answers (.commitImage l false) s hold eMODE [(modeCode hold : Int)] [])

/-- R114, R118, R391, R432, R580, R585, Tables 23.2 and 23.6 for a line that nothing refuses before its action, u the state in which it begins and b the bytes of its closed staging buffer: the key of an envelope without fault is held from now on, a DEVMGMT session joins the table, a rule program and a dictionary take effect with their
grains, and an image empties its slot and waits for its programs; without a closed buffer the line is refused with NOSTAGE, and a faulty object with its code. -/
def Obligations.KeysAndImagesComplete : Prop :=
  ∀ (s u s1 : State) (l : ConLine) (n t i x : Nat) (b : List Byte) (key : Option (BitVec 256)) (e : Envelope) (slot : Option Nat) (im : Image) (r : RuleBox),
    n = s.con.nextCjn → u = begun l false s → b = stagedBytes (stageOf u l.con) → e = parseEnvelope b key → t < 64 →
    ((stageOf u l.con).st ≠ .closed →
      (Admits l (spec .engineer [.live, .quiet] true) s → Answers (.importKey l t key) s u eNOSTAGE [] []) ∧
      (Admits l (spec .engineer [.live, .quiet, .audit, .replay] true) s → Answers (.openMgmt l key) s u eNOSTAGE [] []) ∧
      ((imageSlot s slot).isSome = true → Admits l ⟨.engineer, [0, 1], [.sealed, .quiet], false, true, false, false, true⟩ s → Answers (.loadImage l slot (some im)) s u eNOSTAGE [] []) ∧
      (Admits l (spec .engineer [.quiet] true) s → Answers (.loadRules l t) s u eNOSTAGE [] [] ∧ Answers (.loadDict l t) s u eNOSTAGE [] [])) ∧
    ((stageOf u l.con).st = .closed →
      (Admits l (spec .engineer [.live, .quiet] true) s →
        (b.length ≠ 354 → Answers (.importKey l t key) s u eARGS [] []) ∧
        (b.length = 354 → e.target ≠ t → Answers (.importKey l t key) s u eENVELOPE [] []) ∧
        (b.length = 354 → e.target = t → kekFault u e = some x →
          Answers (.importKey l t key) s u (if x = mkVERSION then eVERSION else if x = mkSIGNATURE ∨ x = mkUNWRAP then eSIGNATURE else eENVELOPE) [] []) ∧
        (b.length = 354 → e.target = t → kekFault u e = none → Answers (.importKey l t key) s (unstaged (importKek u e n) l.con) 0 [(n : Int), (e.version : Int)] [])) ∧
      (Admits l (spec .engineer [.live, .quiet, .audit, .replay] true) s →
        (b.length ≠ 354 → Answers (.openMgmt l key) s u eARGS [] []) ∧
        (b.length = 354 → envelopeFault u e 2 (· == tDEV) = some x →
          Answers (.openMgmt l key) s u (if x = mkVERSION then eVERSION else if x = mkSIGNATURE ∨ x = mkUNWRAP then eSIGNATURE else eENVELOPE) [] []) ∧
        (b.length = 354 → envelopeFault u e 2 (· == tDEV) = none →
          (sessUsed u tDEV e.session = true → Answers (.openMgmt l key) s u eSESSION_REUSED [] []) ∧
          (sessUsed u tDEV e.session = false → u.awp.sessions.length ≥ 4194304 → Answers (.openMgmt l key) s u eFULL [] []) ∧
          (sessUsed u tDEV e.session = false → u.awp.sessions.length < 4194304 →
            Answers (.openMgmt l key) s (unstaged { u with awp.sessions := ins u.awp.sessions (skey tDEV e.session) (newSession .devmgmt tDEV 0 e.key e.tsalt e.dsalt) } l.con) 0
              [(n : Int), (e.session : Int)] []))) ∧
      (imageSlot s slot = some i → Admits l ⟨.engineer, [0, 1], [.sealed, .quiet], false, true, false, false, true⟩ s →
        Answers (.loadImage l slot none) s u eARGS [] [] ∧
        (slotValid { u with sec.otp.rollback := 0 } true im = false → Answers (.loadImage l slot (some im)) s u eSIGNATURE [] []) ∧
        (slotValid { u with sec.otp.rollback := 0 } true im = true → im.rollback < u.sec.otp.rollback → Answers (.loadImage l slot (some im)) s u eROLLBACK [] []) ∧
        (slotValid { u with sec.otp.rollback := 0 } true im = true → u.sec.otp.rollback ≤ im.rollback → s1 = unstaged { u with sec.slots := upd u.sec.slots i (fun _ => none) } l.con →
          exec (.loadImage l slot (some im)) s = .next { s1 with con.cmds := s1.con.cmds.map (fun k => if k.cjn = n then { k with phase := .image i im, reply := reply 0 [(n : Int), (i : Int), (im.ver : Int), (im.rollback : Int)] [] } else k) })) ∧
      (Admits l (spec .engineer [.quiet] true) s →
        (parseRules u b = none → Answers (.loadRules l t) s u eARGS [] []) ∧
        (parseRules u b = some r → r.tenant ≠ t → Answers (.loadRules l t) s u eARGS [] []) ∧
        (parseRules u b = some r → r.tenant = t → r.signed = false → Answers (.loadRules l t) s u eSIGNATURE [] []) ∧
        (parseRules u b = some r → r.tenant = t → r.signed = true → s1 = setRules u t ⟨Config.sha256 r.prog, r.version⟩ n →
          Answers (.loadRules l t) s (unstaged s1 l.con) 0 [(n : Int), (r.version : Int)] (digBytes (tmOf s1 t))) ∧
        (b.length > 4096 → Answers (.loadDict l t) s u eARGS [] []) ∧
        (b.length ≤ 4096 → streamTakes u t = false → Answers (.loadDict l t) s u eSTATE [] []) ∧
        (b.length ≤ 4096 → streamTakes u t = true → s1 = numberAll u t →
          Answers (.loadDict l t) s (unstaged (numberHead (eventT s1 t 6 5 b s1.now s1.tim.u 0 n) t) l.con) 0 [(n : Int), ((strm s1 t).next : Int)] [])))

/-- R143, R144, R153 to R155, Table 23.7 for a line that nothing refuses before its action, u the state in which it begins: LOAD LEAPS takes a rising table that agrees with the loaded one; SET TIME sets the base in S8, with quality HOLDOVER, and is refused with MODE elsewhere; STEP TIME takes the time of a good reference, in LIVE one tick after
every book on sale has been suspended with cause BREACH (log 100 DEDUCED), and is refused with STATE without one; SET TIMEREF writes one bit of REFEN. -/
def Obligations.TimeCommandsComplete : Prop :=
  ∀ (s u s1 s2 : State) (l : ConLine) (n e us ref t v : Nat) (tab : List (Nat × Int)) (b : List Byte) (at_ : Instant) (off : Int) (on : Bool),
    n = s.con.nextCjn → u = begun l false s → b = stagedBytes (stageOf u l.con) →
    (Admits l (spec .engineer [.sealed, .live, .quiet] true) s →
      ((stageOf u l.con).st ≠ .closed → Answers (.loadLeaps l) s u eNOSTAGE [] []) ∧
      ((stageOf u l.con).st = .closed → parseLeaps b = none → Answers (.loadLeaps l) s u eARGS [] []) ∧
      ((stageOf u l.con).st = .closed → parseLeaps b = some (e, tab) → (leapsRise tab = false ∨ leapsAgree u e tab = false) → Answers (.loadLeaps l) s u eARGS [] []) ∧
      ((stageOf u l.con).st = .closed → parseLeaps b = some (e, tab) → leapsRise tab = true → leapsAgree u e tab = true →
        s1 = putLeap { u with tim.leaps := tab, tim.leapEnd := some e, sec.leapSaved := some (tab, e) } →
        Answers (.loadLeaps l) s (unstaged (eventAll s1 7 3 0x0582 [tab.length, e, satSigned 64 s1.tim.leapOff] n) l.con) 0 [(n : Int), (tab.length : Int), (e : Int), s1.tim.leapOff] [])) ∧
    (toTai s at_ = some t → us < 2 ^ 64 → Admits l (specOn .regulate [1] [.sealed] false true) s →
      (inS8 u = false → Answers (.setTime l at_ us) s u eMODE [(modeCode u : Int)] []) ∧
      (inS8 u = true →
        s1 = endS8 { u with tim.tai := 80000 * t, tim.rem := 0, tim.u0 := 80000 * us, tim.lastSteer := some u.tim.ticks,
                            tim.refs := u.tim.refs.map (fun r => { r with good := false, valid := 0 }) } →
        Answers (.setTime l at_ us) s s1 0 [(n : Int), (t : Int), (s1.tim.u : Int), (s1.tim.qual.code : Int)] [])) ∧
    (ref < 4 → Admits l (stepSpec s true) s →
      ((getRef u ref).good = false → Answers (.stepTime l ref off) s u eSTATE [] []) ∧
      ((getRef u ref).good = true → s1 = (if u.inMode .live then advance (setCauseAll u cBREACH u.now n) 1 else u) → s2 = stepTo s1 ref off n →
        Answers (.stepTime l ref off) s s2 0 [(n : Int), (s1.now : Int), (s2.now : Int), (s2.now : Int) - (s1.now : Int), (ref : Int), (s2.now : Int)] [])) ∧
    (ref < 4 → Admits l (specOn .regulate [1] [.sealed, .live, .quiet, .replay] false true) s → v = setBits (bits (rawGet u bTIM 0x38) 0 4) ref 1 (b2n on) →
      Answers (.setTimeref l ref on) s (refenWrite u v n) 0 [(n : Int), (v : Int)] []) ∧
    ((s.inMode .live = true ∨ s.tim.qual = .breach) → stepSpec s true = specOn .regulate [1] [.live, .quiet] false true) ∧
    (s.inMode .live = false → s.tim.qual ≠ .breach → stepSpec s true = specOn .engineer [0, 1] [.live, .quiet] false true)

/-- R57 to R61, R161, R586 to R588, Table 23.8 for a line that nothing refuses before its action, u the state in which it begins: OPEN, SUSPEND and RESUME perform one BOOKCMD operation and answer its effective instant or the refusal of its reason; SET BOOK one entry write; SETTLE and RELEASE act on a CLOSED book alone; on a SHADOW or a
LAB each is refused with ROLE, before anything else. A RESUME's refusals inside the window show in its counts (log 104 DEDUCED). -/
def Obligations.BookCommandsComplete : Prop :=
  ∀ (s u v s1 s2 : State) (l : ConLine) (i : Instr) (sp : CmdSpec) (n t b r k scope mask pb m : Nat) (at_ : Option Instant) (margin : Option Nat) (causes : List Nat) (body : List Byte) (vals : List Int),
    n = s.con.nextCjn → u = begun l false s → bookArgs t b = true → sp.keepChal = false →
    ((i = .openBook l t b ∨ i = .suspendBook l t b ∨ i = .settleBook l t b ∨ i = .releaseBook l t b) ∧ sp = spec .operate [.live, .quiet] true ∨
      (i = .suspendTenant l t ∧ sp = spec .operate [.live, .quiet] true) ∨ (i = .setBook l t b at_ margin ∧ sp = setBookSpec s t b at_ margin) ∨
      ((i = .resumeBook l t b causes ∨ i = .resumeTenant l t causes ∨ i = .resumeDevice l causes) ∧ causes.all (fun c => decide (c < 7)) = true ∧ causes.Nodup ∧ sp = spec (resumeAuth causes) [.live, .quiet] true) →
      Admits l sp s → (u.role = .shadow ∨ u.role = .lab) → Answers i s u eROLE [] []) ∧
    (¬ (u.role = .shadow ∨ u.role = .lab) →
      (Admits l (spec .operate [.live, .quiet] true) s →
        ((i = .openBook l t b ∧ v = viaBook u 1 0 t b 0 (fun _ => true) n ∧ k = 1) ∨ (i = .suspendBook l t b ∧ v = viaBook u 2 0 t b cOPERATOR (fun _ => true) n ∧ k = 4) → r = bookReason v →
          (r = 0 → Answers i s v 0 [(n : Int), bookEff v, (k : Int)] []) ∧
          (r = 1 → Answers i s v eSTATE [] []) ∧ (r = 2 → Answers i s v eWINDOW [] []) ∧ (r = 3 → Answers i s v eMODE [(modeCode v : Int)] []) ∧ (r > 3 → Answers i s v eQUALITY [] [])) ∧
        (v = viaBook u 2 1 t 0 cOPERATOR (fun _ => true) n →
          Answers (.suspendTenant l t) s v 0 [(n : Int), bookEff v, (((scopeBooks u 1 t 0).filter (fun p => onSale (getBook u p.1 p.2))).length : Int)] []) ∧
        ((stageOf u l.con).st ≠ .closed → Answers (.settleBook l t b) s u eNOSTAGE [] []) ∧
        ((stageOf u l.con).st = .closed → body = stagedBytes (stageOf u l.con) →
          (body.length > 4096 → Answers (.settleBook l t b) s u eARGS [] []) ∧
          (body.length ≤ 4096 → ((getBook u t b).sales ≠ .closed ∨ streamTakes u t = false) → Answers (.settleBook l t b) s u eSTATE [] []) ∧
          (body.length ≤ 4096 → ¬ ((getBook u t b).sales ≠ .closed ∨ streamTakes u t = false) → s1 = numberAll u t → s2 = numberHead (eventT s1 t 5 0 body s1.now s1.tim.u b n) t →
            Answers (.settleBook l t b) s (unstaged (putBook s2 t b { getBook s2 t b with settled := true }) l.con) 0 [(n : Int), (s1.now : Int), ((strm s1 t).next : Int), (body.length : Int)] [])) ∧
        ((getBook u t b).sales ≠ .closed → Answers (.releaseBook l t b) s u eSTATE [] []) ∧
        ((getBook u t b).sales = .closed → (getBook u t b).settled = false → Answers (.releaseBook l t b) s u eNOSETTLE [] []) ∧
        ((getBook u t b).sales = .closed → (getBook u t b).settled = true → v = viaBook u 4 0 t b 0 (fun _ => true) n → Answers (.releaseBook l t b) s v 0 [(n : Int), bookEff v, 0] [])) ∧
      (Admits l (setBookSpec s t b at_ margin) s →
        pb = (match at_ with | some i => (toTai u i).getD (getBook u t b).pb | none => (getBook u t b).pb) → m = margin.getD (getBook u t b).margin →
        r = entryReason u (getBook u t b) pb m → v = entryWrite u t b pb m n →
        (r = 0 → Answers (.setBook l t b at_ margin) s v 0 [(n : Int), bookEff v, ((getBook v t b).st.maj : Nat), (pb : Int), (m : Int)] []) ∧
        (r = 1 → Answers (.setBook l t b at_ margin) s v eSTATE [] []) ∧ (r = 2 → Answers (.setBook l t b at_ margin) s v eWINDOW [] []) ∧
        (r = 3 → Answers (.setBook l t b at_ margin) s v eMODE [(modeCode v : Int)] [])) ∧
      (causes.all (fun c => decide (c < 7)) = true → causes.Nodup → Admits l (spec (resumeAuth causes) [.live, .quiet] true) s → mask = resumeMask u l.con causes →
        (i = .resumeBook l t b causes ∧ scope = 0 ∧ v = viaBook u 3 0 t b mask (mirrorClear u) n ∧ vals = resumeCounts u mask (scopeBooks u 0 t b)) ∨
        (i = .resumeTenant l t causes ∧ scope = 1 ∧ v = viaBook u 3 1 t 0 mask (mirrorClear u) n ∧ vals = resumeCounts u mask (scopeBooks u 1 t 0)) ∨
        (i = .resumeDevice l causes ∧ scope = 2 ∧ v = viaBook u 3 2 0 0 mask (mirrorClear u) n ∧ vals = resumeCounts u mask (scopeBooks u 2 0 0)) → r = bookReason v →
        ((r = 0 ∨ r = 2) → Answers i s v 0 ([(n : Int), bookEff v] ++ vals) []) ∧
        (r = 1 → Answers i s v eSTATE [] []) ∧ (r = 3 → Answers i s v eMODE [(modeCode v : Int)] []) ∧ (r > 3 → Answers i s v eQUALITY [] [])))

/-- R125, R413, R439, R512, R517, R535 to R537, R580, R589, Tables 23.9 and 23.10 for a line that nothing refuses before its action, u the state in which it begins: RETIRE retires a prefix every segment of which meets R439 and waits for its erases (log 105 DEDUCED); REATTACH begins a new epoch on a SHADOW; REPLAY START writes RPL and RUN;
CLEAR empties what it names where no run uses the tenant; CLEAR TAMPER clears latches, and those whose condition persists set again; PAIR and UNPAIR change the tag table, LOOP CAL waits for its pulses. -/
def Obligations.JournalCommandsComplete : Prop :=
  ∀ (s u s0 s1 s2 : State) (l : ConLine) (n t seq fr th mask kind a no x : Nat) (cross set journal : Bool) (key : Option (BitVec 256)) (pre : List Segment) (g z : Segment) (b : List Byte) (e : Envelope) (eui : BitVec 64) (tag : Tag),
    n = s.con.nextCjn → u = begun l false s →
    (t ≤ 64 → seq < 2 ^ 64 → Admits l (specOn .regulate [1] [.live, .quiet] false true) s → pre = retirePrefix u t seq →
      (pre = [] → Answers (.retire l t seq) s u eNONE_ELIGIBLE [] []) ∧
      (pre.head? = some g → pre.getLast? = some z →
        ((pre.all (retireOk u t) = false ∨ dictKept u t pre = true) → Answers (.retire l t seq) s u eRETAIN [] []) ∧
        (pre.all (retireOk u t) = true → dictKept u t pre = false →
          exec (.retire l t seq) s = .next { (retireNow u t n pre g z).st with con.cmds := (retireNow u t n pre g z).st.con.cmds.map (fun k => if k.cjn = n then { k with phase := (retireNow u t n pre g z).phase, reply := (retireNow u t n pre g z).reply } else k) } ∧
          (∃ d, (retireNow u t n pre g z).phase = .erase t ((pre.map (fun x => x.next - x.first)).sum) (retireTenant u t ([g.first, z.next - 1, pre.length] ++ digPar z.lastDig ++ dig384Par z.sealDig) n).2 (some d) u.tim.ticks)))) ∧
    (t < 64 → Admits l (specOn .regulate [1] [.live, .quiet] false true) s →
      (u.role ≠ .shadow → Answers (.mirrorReattach l t) s u eROLE [] []) ∧
      (u.role = .shadow → (getMir u t).st ≠ 3 → Answers (.mirrorReattach l t) s u eSTATE [] []) ∧
      (u.role = .shadow → (getMir u t).st = 3 → s1 = updMir (dormantAll (newEpoch u t) t) t (fun x => { x with st := 1, digNext := 0 }) →
        s2 = eventD s1 9 9 0x0B83 [t, (strm s1 t).epoch] n →
        Answers (.mirrorReattach l t) s (if mirMay s2 mPOSITION 512 then mirSend s2 mPOSITION 0 (positionBody s2) else s2) 0 [(n : Int), ((strm s1 t).epoch : Int)] [])) ∧
    (t < 64 → fr < 2 ^ 64 → th < 2 ^ 64 → Admits l (spec .engineer [.replay] true) s →
      s0 = fset (fset u bRPL 0x10 0 6 t) bRPL 0x10 8 1 (b2n cross) → s1 = replayStart (set64 (set64 s0 bRPL 0x18 fr) bRPL 0x20 th) →
      (u.rpl.run.isNone = true → s1.rpl.run.isSome = true → Answers (.replayStart l t fr th cross) s s1 0 [(n : Int), 1, (((runSet s1 t).grains.filter (fun g => decide (g.seq < fr))).length : Int)] []) ∧
      (¬ (u.rpl.run.isNone = true ∧ s1.rpl.run.isSome = true) → Answers (.replayStart l t fr th cross) s s1 eREPLAY_REFUSED [((rawGet s1 bRPL 0x2C / 256 : Nat) : Int)] [])) ∧
    (t < 64 → (set = true ∨ journal = true) → Admits l (spec .engineer [.quiet, .replay] true) s →
      ((∃ r, u.rpl.run = some r ∧ r.tenant = t) → Answers (.replayClear l t set journal) s u eBUSY [] []) ∧
      ((∀ r, u.rpl.run = some r → r.tenant ≠ t) →
        s1 = (if set then { u with rpl.sets := del u.rpl.sets t, rpl.stats := del u.rpl.stats t } else u) →
        s2 = (if journal then { s1 with rpl.journals := del s1.rpl.journals t } else s1) →
        no = (if set then (match lk u.rpl.sets t with | some x => x.segs | none => 0) else 0) + (if journal then (rjSegs u t).length else 0) →
        Answers (.replayClear l t set journal) s s2 0 [(n : Int), (no : Int)] [])) ∧
    (0 < mask → mask < 2 ^ 14 → Admits l (specOn .regulate [1] [.sealed, .live, .quiet, .replay, .hold] false true) s → s1 = { u with sec.tstat := u.sec.tstat &&& (0x3FFF ^^^ mask) } →
      s2 = tamper s1 (stillPresent s1 (u.sec.tstat &&& mask)) → Answers (.clearTamper l mask) s s2 0 [(n : Int), (tstatWord s2 : Int)] []) ∧
    (kindOk kind = true → Admits l (spec .engineer [.sealed, .live, .quiet] true) s →
      ((stageOf u l.con).st ≠ .closed → Answers (.witnessPair l kind key) s u eNOSTAGE [] []) ∧
      ((stageOf u l.con).st = .closed → b = stagedBytes (stageOf u l.con) → e = parseEnvelope b key → eui = BitVec.ofNat 64 (field b 6 8) →
        (b.length ≠ 354 → Answers (.witnessPair l kind key) s u eARGS [] []) ∧
        (b.length = 354 → envelopeFault u e 3 (· == 0x41) = some x →
          Answers (.witnessPair l kind key) s u (if x = mkVERSION then eVERSION else if x = mkSIGNATURE ∨ x = mkUNWRAP then eSIGNATURE else eENVELOPE) [] []) ∧
        (b.length = 354 → envelopeFault u e 3 (· == 0x41) = none →
          ((e.dsalt ≠ 0 ∨ e.key.toNat % 2 ^ 128 ≠ 0) → Answers (.witnessPair l kind key) s u eENVELOPE [] []) ∧
          (¬ (e.dsalt ≠ 0 ∨ e.key.toNat % 2 ^ 128 ≠ 0) →
            (u.wit.tags.any (fun p => p.2.st != 0 && p.2.eui == eui) = true → Answers (.witnessPair l kind key) s u ePAIRED [] []) ∧
            (u.wit.tags.any (fun p => p.2.st != 0 && p.2.eui == eui) = false → freeTag u = none → Answers (.witnessPair l kind key) s u eFULL [] []) ∧
            (u.wit.tags.any (fun p => p.2.st != 0 && p.2.eui == eui) = false → freeTag u = some a → tag = { tagEmpty with eui := eui, kind := kind, st := 1, key := BitVec.ofNat 128 (e.key.toNat / 2 ^ 128) } →
              Answers (.witnessPair l kind key) s (unstaged (eventD { u with wit.tags := ins u.wit.tags a tag } 9 0xC 0x0683 [eui.toNat, 1, a] n) l.con) 0 [(n : Int), (a : Int), (eui.toNat : Int)] []))))) ∧
    (a < 128 → Admits l (spec .engineer [.sealed, .live, .quiet] true) s →
      ((getTag u a).st = 0 → Answers (.witnessUnpair l a) s u eSTATE [] []) ∧
      ((getTag u a).st ≠ 0 →
        s1 = { u with wit.tags := del u.wit.tags a, wit.txq := if u.wit.run then u.wit.txq ++ [(wfCMD, a)] else u.wit.txq, wit.ack := u.wit.ack.filter (· ≠ a) } →
        Answers (.witnessUnpair l a) s (eventD s1 9 0xC 0x0683 [(getTag u a).eui.toNat, 0, a] n) 0 [(n : Int), (a : Int)] [])) ∧
    (no < 8 → Admits l (spec .engineer [.sealed, .quiet] true) s →
      exec (.witnessLoopCal l no) s = .next { u with wit.loops := ins u.wit.loops no { getLoop u no with samples := [] },
                                                     con.cmds := u.con.cmds.map (fun k => if k.cjn = n then { k with phase := .loopcal no, reply := reply 0 [(n : Int)] [] } else k) })

/-- R264, R575, R590, R603, Tables 23.7 to 23.11 for a SHOW line that nothing refuses before its action: its reply is formed in the state u in which the action begins, so that it changes nothing else; a grain that cannot be read is refused with UNREADABLE, an unknown session or context with ARGS. SHOW CTX alone may draw free values, for a
body that no TLB maps. -/
def Obligations.ShowsComplete : Prop :=
  ∀ (s u : State) (l : ConLine) (n t b seq sn k ctx die rel : Nat) (body : Bool) (g : Grain) (x : Session) (bank : Bank) (areas regs : List Nat) (acc : State × List Int) (a : Nat),
    n = s.con.nextCjn → u = begun l false s →
    (Admits l (spec .observe allModes true) s →
      Answers (.showTime l) s u 0 ([(bits (regValue u reqMgmt bTIM 0x1C) 0 3 : Int), (bits (regValue u reqMgmt bTIM 0x1C) 4 1 : Int), if bit (regValue u reqMgmt bTIM 0x1C) 14 then (bits (regValue u reqMgmt bTIM 0x1C) 12 2 : Int) else -1,
        regField u bTIM 0x18, regField u bTIM 0x54] ++ (List.range 4).map (fun r => (b2n ((u.tim.refs[r]?).getD refReset).good : Int)) ++
        (List.range 4).map (fun r => if ((u.tim.refs[r]?).getD refReset).good then regSigned u bTIM (0x40 + 4 * r) else -1) ++ [regSigned u bTIM 0x50]) [] ∧
      (t ≤ 64 → Answers (.showJournal l t) s u 0 [(b2n (decide (t < 64) && tenantBit u bJRN 0x10 t) : Int), regField u bJRN 0x20, regField u bJRN 0x24, fieldOf (strm u t).dict, ((strm u t).dur : Int) - 1,
        fieldOf (((strm u t).segs.filter (·.sealTai.isSome)).map (·.next - 1)).getLast?, fieldOf ((strm u t).segs.getLast?.map (·.no)), fieldOf ((strm u t).segs.getLast?.map (fun y => (strm u t).rowIdx - y.firstRow)), regField u bJRN 0x38] []) ∧
      Answers (.showTamper l) s u 0 ([(tstatWord u : Int), (b2n u.sec.vault.zeroized + 2 * b2n u.sec.vault.zpend : Int), (u.sec.vault.zcount : Int), (u.sec.vault.ovf : Int), (u.sec.vault.log.length : Int)]
        ++ u.sec.vault.log.flatMap (fun e => [(e.src : Int), (e.cls : Int), (e.idx : Int), (e.tai : Int), (e.react : Int)])) [] ∧
      Answers (.showWitness l none) s u 0 ([0x30, 0x34, 0x38, 0x3C, 0x40, 0x44, 0x48, 0x4C, 0x50, 0x54, 0x58].map (regField u bWIT)) [] ∧
      (a < 128 → Answers (.showWitness l (some a)) s u 0 ((List.range 8).map (fun i => (ttWord u (8 * a + i) : Int))) []) ∧
      (t < 64 → b < 4096 → Answers (.showBook l t b) s u 0 [((getBook u t b).sales.code : Int), ((getBook u t b).cause : Int), ((getBook u t b).pb : Int), ((getBook u t b).margin : Int), fieldOf (getBook u t b).partSeq,
        fieldOf (getBook u t b).lastSeq, ((getBook u t b).count : Int), ((getBook u t b).late : Int), ((getBook u t b).lateu : Int)] []) ∧
      (t < 64 →
        (seq ≥ (strm u t).dur → Answers (.showGrain l t seq body) s u 0 [1] []) ∧ (seq < (strm u t).dur → grainAt u t seq = none → Answers (.showGrain l t seq body) s u 0 [2] []) ∧
        (seq < (strm u t).dur → grainAt u t seq = some g → g.unreadable = true → Answers (.showGrain l t seq body) s u eUNREADABLE [] []) ∧
        (seq < (strm u t).dur → grainAt u t seq = some g → g.unreadable = false → Answers (.showGrain l t seq body) s u 0 [0] (hdrBytes g.hdr g.seq g.body.length ++ (digBytes g.digest).take 8 ++ (if body then g.body else [])))) ∧
      (t ≤ 64 →
        (lk u.awp.sessions (skey t sn) = none → Answers (.showSession l t sn) s u eARGS [] []) ∧
        (lk u.awp.sessions (skey t sn) = some x → Answers (.showSession l t sn) s u 0 [match x.cls with | .terminal => 0 | .mgmt => 1 | .devmgmt => 2, (x.terminal : Int), (b2n x.opened : Int), (x.high : Int), (x.bitmap.toNat : Int),
          (x.a4 : Int), (x.a5 : Int), ((u.awp.inputs.filter (fun i => i.tenant == t && i.session == sn)).length : Int)] [])) ∧
      Answers (.showMedia l none none) s u 0 ([0x10, 0x14, 0x18, 0x1C].map (regField u bFLC)) [] ∧
      (die < 256 → Answers (.showMedia l (some die) none) s u 0 (([0x104, 0x108, 0x10C] ++ (List.range 18).map (fun i => 0x110 + 4 * i)).map (fun o => fieldOf (flcView (fset u bFLC 0x100 0 8 die) o))) []) ∧
      (1 ≤ rel → rel ≤ 16 → Answers (.showMedia l none (some rel)) s u 0 ((u.fla.index.take rel).flatMap (fun e =>
        [(e.tai : Int), (e.die : Int), (e.src : Int), (e.dst : Int), (e.members : Int), (e.segs : Int), (e.reason : Int)])) []) ∧
      Answers (.showPower l) s u 0 ([0x10, 0x14, 0x18, 0x1C, 0x20, 0x24, 0x28, 0x2C, 0x30, 0x34, 0x38, 0x3C, 0x40, 0x44].map (regField u bPWR)) [] ∧
      (t < 64 → Answers (.showMirror l (some t)) s u 0 (regField u bMIR 0x14 :: mirrorFields u t) []) ∧
      Answers (.showMirror l none) s u 0 (regField u bMIR 0x14 :: ((List.range 64).filter (tenantBit u bMIR 0x40)).flatMap (mirrorFields u)) [] ∧
      (t < 64 → Answers (.showReplay l (some t)) s u 0 (([0x70, 0x74] ++ (List.range 8).map (fun i => 0x80 + 4 * i) ++ [0xA0, 0xA4, 0xA8, 0xAC]).map (regField (fset u bRPL 0x10 0 6 t) bRPL) ++ [fieldOf ((lk u.rpl.sets t).map (·.epoch))]) []) ∧
      Answers (.showReplay l none) s u 0 ([0x10, 0x2C, 0x30, 0x34, 0x38, 0x40, 0x44, 0x48, 0x4C, 0x50, 0x54, 0x60].map (regField u bRPL)) [] ∧
      (t < 64 → Answers (.showTenant l t) s u 0 [(b2n (tenantBit u bSEQ 0x10 t) : Int), regField u bAWP (0x1100 + 4 * t), regField u bAWP (0x1000 + 4 * t), regField u bSEQ (0x100 + 4 * t), regField u bSEQ (0x200 + 4 * t), regField u bSEQ (0x300 + 4 * t),
        (clusterMask (fun c => pairSet u c t) : Int), (clusterMask (fun c => strictSet u c t) : Int)] (digBytes (tmOf u t))) ∧
      (k < 48 → Answers (.showLane l k) s u 0 [regField u (bLQ + k / 4) (laneOff (k % 4) 0x08), ((getPort u (laneToPort u k).1 (laneToPort u k).2).rtype : Int), regField u (bLQ + k / 4) (laneOff (k % 4) 0x20), regField u (bLQ + k / 4) (laneOff (k % 4) 0x24),
        regField u (bLQ + k / 4) (laneOff (k % 4) 0x28), regField u (bLQ + k / 4) (laneOff (k % 4) 0x2C), regField u (bLQ + k / 4) (laneOff (k % 4) 0x30), regField u (bLQ + k / 4) (laneOff (k % 4) 0x34), regField u (bLQ + k / 4) (laneOff (k % 4) 0x38)] [])) ∧
    (t < 64 → regs ≠ [] → (∀ r ∈ regs, r < 32) →
      ((s.inMode .hold = true ∧ Admits l (spec .engineer [.audit, .hold] true) s) ∨ (s.inMode .hold = false ∧ Admits l { spec .regulate [.audit, .hold] true with cons := [1] } s)) →
      (u.cpu.banks.find? (fun y => y.tenant == t && y.ctx == ctx) = none → Answers (.showCtx l t ctx regs) s u eARGS [] []) ∧
      (u.cpu.banks.find? (fun y => y.tenant == t && y.ctx == ctx) = some bank → areas = saveChain u bank.pa 56 (mem u (bank.pa + 8)) →
        acc = regs.foldl (fun (y : State × List Int) r => ((savedField y.1 t areas r).1, y.2 ++ (savedField y.1 t areas r).2)) (u, []) → Answers (.showCtx l t ctx regs) s acc.1 0 acc.2 []))

/-- Table 1.1, R20, R22, R32 to R34, R383, R385 to R388, R394, R397: the first check that a frame of any AWP message fails drops it and raises that check's counter alone; a frame that passes A1 to A5 moves its session's window, and then an OFFER or CANCEL with the verdict 0 takes its tenant's next number, joins the retained inputs and the run queue, and
counts for its book, one with another verdict is refused with that reason; a QUERY is answered or refused, a HEARTBEAT answered. Where the bytes and the order of the counters follow the model's own reading, logs 50, 52 and 56 name it. -/
def Obligations.TerminalFramesComplete : Prop :=
  ∀ (s u t : State) (f : Frame) (reads : List FlashRead) (i : Instr) (typ acc uu n st tsess tctr : Nat) (x : Session) (v : Nat × Nat × Nat) (a : Nat × Option Grain × Bool) (e : Envelope) (key : Option (BitVec 256)) (mt ms : Nat) (mgmt : Bool) (cs : List SClass),
    (((i = .offer f ∨ i = .cancel f ∨ i = .query f reads ∨ i = .heartbeat f) ∧ mgmt = false ∧ cs = [.terminal]) ∨ ((i = .keyimp f e ∨ i = .impdata f) ∧ mgmt = true ∧ cs = [.devmgmt]) ∨
      ((i = .sessload f key ∨ i = .sessdrop f mt ms ∨ i = .expreq f) ∧ mgmt = true ∧ cs = [.devmgmt, .mgmt]) →
      (etherUp s f.lane = false → exec i s = .next s) ∧
      (etherUp s f.lane = true → f.backlog + frameBytes f > 262144 → exec i s = .next (bumpWrap s bAWP (0x40C + 0x10 * f.lane) 0 32 1)) ∧
      (etherUp s f.lane = true → f.backlog + frameBytes f ≤ 262144 → passA1 s f = false → exec i s = .next (bumpWrap s bAWP (0x400 + 0x10 * f.lane) 0 32 1)) ∧
      (etherUp s f.lane = true → f.backlog + frameBytes f ≤ 262144 → passA1 s f = true → passA2 s f mgmt = false → exec i s = .next (bumpWrap s bAWP (0x404 + 0x10 * f.lane) 0 32 1)) ∧
      (ReachesA3 s f mgmt → passA3 (looked s f) f cs = none → exec i s = .next (bumpWrap (looked s f) bAWP (0x408 + 0x10 * f.lane) 0 32 1)) ∧
      (ReachesA3 s f mgmt → passA3 (looked s f) f cs = some x → (f.tagOk && x.keyHeld) = false →
        exec i s = .next (countDrop (bumpWrap (updSess (looked s f) (skey f.tenant f.session) (fun x => { x with a4 := x.a4 + 1 })) bAWP 0x20 0 32 1) f.tenant f.session 0)) ∧
      (ReachesA3 s f mgmt → passA3 (looked s f) f cs = some x → (f.tagOk && x.keyHeld) = true → window x.high x.bitmap f.counter = none →
        exec i s = .next (countDrop (bumpWrap (updSess (looked s f) (skey f.tenant f.session) (fun x => { x with a5 := x.a5 + 1 })) bAWP 0x24 0 32 1) f.tenant f.session 1))) ∧
    (PassesA5 s u f false [.terminal] →
      ((i = .offer f ∧ typ = mtOFFER) ∨ (i = .cancel f ∧ typ = mtCANCEL) → acc = acceptTai u f → uu = acceptU u f → v = verdict u f acc uu → n = (strm u f.tenant).next →
        (v.1 ≠ 0 → exec i s = .next (refuse (countRefusal u f v.1) f v.1 v.2.1 v.2.2)) ∧
        (v.1 = 0 → t = sequence u f typ acc uu → exec i s = .next t ∧ (strm t f.tenant).next = n + 1 ∧ lkD t.awp.runq f.tenant [] = lkD u.awp.runq f.tenant [] ++ [n] ∧
          (∃ w, t.awp.inputs = u.awp.inputs ++ [w] ∧ w.tenant = f.tenant ∧ w.seq = n ∧ w.typ = typ ∧ w.tai = acc ∧ w.u = uu ∧ w.book = f.book ∧ w.terminal = f.terminal ∧ w.session = f.session ∧ w.counter = f.counter ∧ w.payload = f.payload) ∧
          (getBook t f.tenant f.book).lastSeq = some n ∧ (getBook t f.tenant f.book).count = (getBook u f.tenant f.book).count + 1 ∧
          (∀ t2, t2 ≠ f.tenant → strm t t2 = strm u t2) ∧ (∀ t2 b2, bkey t2 b2 ≠ bkey f.tenant f.book → getBook t t2 b2 = getBook u t2 b2))) ∧
      (f.payload.length ≠ 12 → exec (.query f reads) s = .next (refuse u f rjFORMAT 0 0)) ∧
      (f.payload.length = 12 → tsess = ofBe (f.payload.take 4) → tctr = ofBe ((f.payload.drop 4).take 6) → a = queryAnswer u f tsess tctr →
        (a.1 = 4 → exec (.query f reads) s = .next (refuse u f rjQUERY_RANGE 0 0)) ∧
        (a.1 ≠ 4 → a.1 ≠ 0 → a.2.1 = none → a.2.2 = false → exec (.query f reads) s = .next (answer u f mtANSWER (answerBody f.counter a.1 tsess tctr 0 0))) ∧
        (a.1 ≠ 4 → a.2.1 = none → a.2.2 = true →
          exec (.query f reads) s = .next (answer (updSess u (skey f.tenant tsess) (fun y => { y with bitmap := y.bitmap ||| ((1 : Word32) <<< (y.high - tctr)) })) f mtANSWER (answerBody f.counter a.1 tsess tctr 0 0))) ∧
        (∀ g, a.1 = 0 → a.2.1 = some g → a.2.2 = false → st = (match grainAt (flashReads u reads) f.tenant g.seq with | some y => if y.unreadable then 0 else dig8 y.digest | none => dig8 g.digest) →
          exec (.query f reads) s = .next (answer (flashReads u reads) f mtANSWER (answerBody f.counter 0 tsess tctr g.seq st)))) ∧
      (f.payload.length ≠ 0 → exec (.heartbeat f) s = .next (refuse u f rjFORMAT 0 0)) ∧
      (f.payload.length = 0 → exec (.heartbeat f) s = .next (answer u f mtANSWER (beatBody u f.counter))))

/-- R164, for a frame in a PRIMARY whose mode at the acceptance time was LIVE, v being its book's entry in force at that time: DORMANT passes A7 without a verdict and gets NOT_OPEN at A8; else LATE where t_accept + margin ≥ P, LATE_UNCERTAIN where only the uncertainty fails it, and no refusal of A7 where t_accept + u + margin < P (the
margin in µs); each such REJECT raises the tenant's PRT counter and the book's own. Around it: MODE and ROLE before, SUSPENDED, NOT_OPEN, QUOTA and BUSY after (Table 1.1). -/
def Obligations.PartingRule : Prop :=
  ∀ (s : State) (f : Frame) (acc u : Nat) (v : BookVer) (k : Book),
    v = (getBook s f.tenant f.book).verAt acc → k = getBook s f.tenant f.book →
    (modeAt s acc ≠ .live → verdict s f acc u = (rjMODE, 0, 0)) ∧
    (modeAt s acc = .live → s.role ≠ .primary → verdict s f acc u = (rjROLE, 0, 0)) ∧
    (modeAt s acc = .live → s.role = .primary →
      (v.st = .dormant → verdict s f acc u = (rjNOT_OPEN, 0, 0)) ∧
      (v.st ≠ .dormant → acc + v.margin * 1000 ≥ v.pb → verdict s f acc u = (rjLATE, 0, 0)) ∧
      (v.st ≠ .dormant → acc + v.margin * 1000 < v.pb → v.pb ≤ acc + u + v.margin * 1000 → verdict s f acc u = (rjLATE_UNCERTAIN, 0, 0)) ∧
      (v.st ≠ .dormant → acc + u + v.margin * 1000 < v.pb →
        (verdict s f acc u).1 ≠ rjLATE ∧ (verdict s f acc u).1 ≠ rjLATE_UNCERTAIN ∧
        (v.st = .suspended → verdict s f acc u = (rjSUSPENDED, bits v.cause 0 7, 0)) ∧
        (v.st ≠ .suspended → v.st ≠ .open → verdict s f acc u = (rjNOT_OPEN, 0, v.st.code)) ∧
        (v.st = .open → ∀ x, sessOf s f.tenant f.session = some x →
          (x.unreplied ≥ fget s bSEQ (0x200 + 4 * f.tenant) 0 6 → verdict s f acc u = (rjQUOTA, 0, 0)) ∧
          (x.unreplied < fget s bSEQ (0x200 + 4 * f.tenant) 0 6 → inFlight s f.tenant ≥ fget s bSEQ (0x100 + 4 * f.tenant) 0 21 → verdict s f acc u = (rjBUSY, 0, 0)) ∧
          (x.unreplied < fget s bSEQ (0x200 + 4 * f.tenant) 0 6 → inFlight s f.tenant < fget s bSEQ (0x100 + 4 * f.tenant) 0 21 → verdict s f acc u = (0, 0, 0))))) ∧
    countRefusal s f rjLATE = bumpWrap (putBook s f.tenant f.book { k with late := sat 32 (k.late + 1) }) bPRT (0x1000 + 8 * f.tenant) 0 32 1 ∧
    countRefusal s f rjLATE_UNCERTAIN = bumpWrap (putBook s f.tenant f.book { k with lateu := sat 32 (k.lateu + 1) }) bPRT (0x1004 + 8 * f.tenant) 0 32 1

/-- R361, R374, R375, R381, R389 to R392, R529 to R533 for a management frame that passes A1 to A5, its effect beginning in u: outside its modes its MACK is MODE; KEYIMP holds the KEK of an envelope without fault; SESSLOAD and SESSDROP change the session table; EXPREQ begins or continues one of four exports; IMPDATA takes a part; the
verification of the last part decides its set; an export idles out after 60 s. ARP, neighbour and echo requests to an enabled address are answered, a pause frame and a discarded frame counted. -/
def Obligations.ManagementComplete : Prop :=
  ∀ (s u s1 : State) (f : Frame) (e : Envelope) (key : Option (BitVec 256)) (k : BitVec 256) (i : Instr) (t id cls fl part lo hi x reqid lane len reason seg mt ms : Nat) (p : List Byte) (c : Nat × Nat) (g : Segment) (gs : List Segment) (ex : Export) (r : Recv) (set : ImpSet) (a b : BitVec 128) (v6 atA2 : Bool),
    (PassesA5 s u f true [.devmgmt, .mgmt] → u.inMode .live = false → u.inMode .quiet = false →
      exec (.sessload f key) s = .next (mack u f mkMODE) ∧ exec (.sessdrop f mt ms) s = .next (mack u f mkMODE) ∧
      (u.inMode .audit = false → u.inMode .replay = false → exec (.expreq f) s = .next (mack u f mkMODE))) ∧
    (PassesA5 s u f true [.devmgmt] →
      (u.inMode .live = false → u.inMode .quiet = false → exec (.keyimp f e) s = .next (mack u f mkMODE)) ∧ (u.inMode .quiet = false → u.inMode .replay = false → exec (.impdata f) s = .next (mack u f mkMODE)) ∧
      ((u.inMode .live = true ∨ u.inMode .quiet = true) →
        (f.plen ≠ 354 → exec (.keyimp f e) s = .next (mack u f mkFORMAT)) ∧ (f.plen = 354 → kekFault u e = some x → exec (.keyimp f e) s = .next (mack u f x)) ∧
        (f.plen = 354 → kekFault u e = none → exec (.keyimp f e) s = .next (mack (importKek u e 0) f mkOK))) ∧
      ((u.inMode .quiet = true ∨ u.inMode .replay = true) → p = f.payload →
        (u.role ≠ .lab → exec (.impdata f) s = .next (mack u f mkSCOPE)) ∧
        (u.role = .lab → (impBad u p = true ∨ impCont u p = none) → exec (.impdata f) s = .next (mack u f mkFORMAT)) ∧
        (u.role = .lab → impBad u p = false → impCont u p = some c → len = p.length - 12 →
          (imageSegs (c.1 + len) > areaFree u → exec (.impdata f) s = .next (mack (putStat { u with rpl.recv := none } c.2 ⟨0, 0, 0⟩) f mkTABLE_FULL)) ∧
          (imageSegs (c.1 + len) ≤ areaFree u → exec (.impdata f) s = .next (takePart u f (ofBe (p.take 4)) (ofBe ((p.drop 4).take 4)) len c.2 c.1 (ofBe ((p.drop 8).take 1) == 1)))))) ∧
    (PassesA5 s u f true [.devmgmt, .mgmt] → (u.inMode .live = true ∨ u.inMode .quiet = true) → p = f.payload → t = ofBe (p.take 1) →
      (cls = ofBe ((p.drop 1).take 1) → id = ofBe ((p.drop 4).take 4) →
        ((p.length ≠ 80 ∨ t ≥ 64 ∨ cls > 1 ∨ ofBe ((p.drop 2).take 2) ≠ 0) → exec (.sessload f key) s = .next (mack u f mkFORMAT)) ∧
        (¬ (p.length ≠ 80 ∨ t ≥ 64 ∨ cls > 1 ∨ ofBe ((p.drop 2).take 2) ≠ 0) →
          ((f.tenant ≠ tDEV ∧ f.tenant ≠ t) → exec (.sessload f key) s = .next (mack u f mkSCOPE)) ∧
          (¬ (f.tenant ≠ tDEV ∧ f.tenant ≠ t) →
            ((lk u.awp.kek t = none ∨ key = none) → exec (.sessload f key) s = .next (mack u f mkUNWRAP)) ∧
            (lk u.awp.kek t ≠ none → key = some k →
              ((sessCount u t ≥ fget u bAWP (0x1000 + 4 * t) 0 23 ∨ u.awp.sessions.length ≥ 4194304) → exec (.sessload f key) s = .next (mack u f mkTABLE_FULL)) ∧
              (¬ (sessCount u t ≥ fget u bAWP (0x1000 + 4 * t) 0 23 ∨ u.awp.sessions.length ≥ 4194304) →
                (sessUsed u t id = true → exec (.sessload f key) s = .next (mack u f mkSESSION_REUSED)) ∧
                (sessUsed u t id = false →
                  exec (.sessload f key) s = .next (mack { u with awp.sessions := ins u.awp.sessions (skey t id) (newSession (if cls = 0 then .terminal else .mgmt) t (ofBe ((p.drop 8).take 4)) k
                    (BitVec.ofNat 32 (ofBe ((p.drop 12).take 4))) (BitVec.ofNat 32 (ofBe ((p.drop 16).take 4)))) } f mkOK))))))) ∧
      ((f.tenant ≠ tDEV ∧ f.tenant ≠ mt) → exec (.sessdrop f mt ms) s = .next (mack u f mkSCOPE)) ∧
      (¬ (f.tenant ≠ tDEV ∧ f.tenant ≠ mt) → sessOf u mt ms = none → exec (.sessdrop f mt ms) s = .next (mack u f mkFORMAT)) ∧
      (¬ (f.tenant ≠ tDEV ∧ f.tenant ≠ mt) → sessOf u mt ms ≠ none →
        exec (.sessdrop f mt ms) s = .next (freeIfDone (mack (updSess u (skey mt ms) (fun y => { y with opened := false })) f mkOK) (skey mt ms)))) ∧
    (PassesA5 s u f true [.devmgmt, .mgmt] → (u.inMode .live = true ∨ u.inMode .quiet = true ∨ u.inMode .audit = true ∨ u.inMode .replay = true) → p = f.payload → t = ofBe (p.take 1) → fl = ofBe ((p.drop 1).take 1) →
      id = ofBe ((p.drop 4).take 4) → part = ofBe ((p.drop 8).take 4) → lo = ofBe ((p.drop 16).take 8) → hi = ofBe ((p.drop 24).take 8) → gs = exportSegs u t (fl == 1) lo hi →
      ((p.length ≠ 32 ∨ t ≥ 64 ∨ fl > 1 ∨ ofBe ((p.drop 2).take 2) ≠ 0 ∨ ofBe ((p.drop 12).take 4) ≠ 0) → exec (.expreq f) s = .next (mack u f mkFORMAT)) ∧
      (¬ (p.length ≠ 32 ∨ t ≥ 64 ∨ fl > 1 ∨ ofBe ((p.drop 2).take 2) ≠ 0 ∨ ofBe ((p.drop 12).take 4) ≠ 0) →
        (((f.tenant ≠ tDEV ∧ f.tenant ≠ t) ∨ u.rpl.closedReq.contains id = true) → exec (.expreq f) s = .next (mack u f mkSCOPE)) ∧
        (¬ (f.tenant ≠ tDEV ∧ f.tenant ≠ t) → u.rpl.closedReq.contains id = false →
          (u.rpl.exports.find? (fun y => y.reqid == id) = some ex →
            ((ex.tenant ≠ t ∨ ex.rj ≠ (fl == 1) ∨ ex.lo ≠ lo ∨ ex.hi ≠ hi) → exec (.expreq f) s = .next (mack u f mkFORMAT)) ∧
            (¬ (ex.tenant ≠ t ∨ ex.rj ≠ (fl == 1) ∨ ex.lo ≠ lo ∨ ex.hi ≠ hi) →
              exec (.expreq f) s = .next (sendParts { u with rpl.exports := u.rpl.exports.map (fun y => if y.reqid = id then { y with lastReq := u.tim.ticks } else y) } f ex part))) ∧
          (u.rpl.exports.find? (fun y => y.reqid == id) = none →
            ((gs.head? = none ∨ lo > hi) → exec (.expreq f) s = .next (mack u f mkFORMAT)) ∧
            (gs.head? = some g → lo ≤ hi → u.rpl.exports.length ≥ 4 → exec (.expreq f) s = .next (mack u f mkTABLE_FULL)) ∧
            (gs.head? = some g → lo ≤ hi → u.rpl.exports.length < 4 → ex = ⟨id, t, fl == 1, lo, hi, gs.map (·.no), decide (g.first = 0), u.tim.ticks⟩ →
              exec (.expreq f) s = .next (sendParts { u with rpl.exports := u.rpl.exports ++ [ex] } f ex part)))))) ∧
    exec (.exportIdleTimeout reqid) s = .next { s with rpl.exports := s.rpl.exports.filter (fun y => !(y.reqid == reqid && decide (s.tim.ticks - y.lastReq ≥ 48000000000))) } ∧
    (s.rpl.recv = some r → r.last = true → s1 = { s with rpl.recv := none } →
      exec (.importVerify (some set) reason seg) s = .next (freeIfDone (sendAwp (putStat { s1 with rpl.sets := ins s1.rpl.sets r.tenant set } r.tenant ⟨3, 0, set.segs⟩) tDEV r.session r.route mtMACK (be 6 r.echo ++ be 1 mkOK ++ be 1 0)) (skey tDEV r.session)) ∧
      exec (.importVerify none reason seg) s = .next (freeIfDone (sendAwp (putStat s1 r.tenant ⟨4, reason, seg⟩) tDEV r.session r.route mtMACK (be 6 r.echo ++ be 1 mkSIGNATURE ++ be 1 0)) (skey tDEV r.session))) ∧
    (i = .importVerify (some set) reason seg ∨ i = .importVerify none reason seg → (s.rpl.recv = none ∨ (s.rpl.recv = some r ∧ r.last = false)) → exec i s = .next s) ∧
    (((i = .arpRequest lane a ∧ v6 = false) ∨ (i = .neighbourSolicitation lane a ∧ v6 = true)) →
      (etherUp s lane = true → enabledAddr s (etherPort s lane) v6 a = true → exec i s = .next (emitOut s (.arp lane a))) ∧
      ((etherUp s lane = false ∨ enabledAddr s (etherPort s lane) v6 a = false) → exec i s = .next s)) ∧
    (etherUp s lane = true → enabledAddr s (etherPort s lane) v6 a = true → fget s bAWP 0x10 16 1 = 1 → exec (.echoRequest lane v6 a b) s = .next (emitOut s (.echo lane b))) ∧
    ((etherUp s lane = false ∨ enabledAddr s (etherPort s lane) v6 a = false ∨ fget s bAWP 0x10 16 1 ≠ 1) → exec (.echoRequest lane v6 a b) s = .next s) ∧
    (etherUp s lane = true → exec (.pauseFrame lane) s = .next (bumpSat s (bLQ + lane / 4) (laneOff (lane % 4) 0x38) 0 16 1) ∧
      exec (.frameDiscard lane atA2) s = .next (bumpWrap s bAWP ((if atA2 then 0x404 else 0x400) + 0x10 * lane) 0 32 1)) ∧
    (etherUp s lane = false → exec (.pauseFrame lane) s = .next s ∧ exec (.frameDiscard lane atA2) s = .next s)

/-- R133, R136 to R138, R140, R141, R143, R144, R147, R152, R156, Table 5.2: a PTP message of an enabled grandmaster on an UP lane does what its type does, one of a disabled grandmaster nothing, any other is ignored and counted; an edge, a line and a missing edge make, spoil or end a sample; u is recomputed after 1,024 ticks; PPS_OUT has its
edge where one is due; the PLL switches to the first usable input. The arithmetic of a sample's delay follows the model's reading (logs 39, 41, 42). -/
def Obligations.TimeEventsComplete : Prop :=
  ∀ (s s1 : State) (m : PtpMsg) (i : Instr) (r gm sec inp j k0 : Nat) (sent d t1 offset : Int) (var : Nat) (scale locked crcOk good w : Bool) (k : TimeRef) (e t : Nat),
    ((i = .sync m ∨ i = .followUp m ∨ i = .delayResp m sent var ∨ i = .pdelayResp m sent var ∨ i = .announce m scale offset) →
      (laneUp s m.lane = false → exec i s = .next s) ∧
      (laneUp s m.lane = true → ptpRef s m = none → exec i s = .next (bumpWrap s bAWP (0x400 + 0x10 * m.lane) 0 32 1)) ∧
      (laneUp s m.lane = true → ptpRef s m = some r → refEnabled s r = false → exec i s = .next s)) ∧
    (laneUp s m.lane = false → exec (.pdelayReq m) s = .next s) ∧
    (laneUp s m.lane = true → ptpRef s m = none → exec (.pdelayReq m) s = .next (bumpWrap s bAWP (0x400 + 0x10 * m.lane) 0 32 1)) ∧
    (laneUp s m.lane = true → ptpRef s m = some r → exec (.pdelayReq m) s = .next (emitOut s (.pdelay m.lane m.seqId))) ∧
    (laneUp s m.lane = true → ptpRef s m = some r → refEnabled s r = true → k = getRef s r →
      ((m.logSync < -4 ∨ m.logSync > 1) → exec (.sync m) s = .next (bumpWrap s bAWP (0x400 + 0x10 * m.lane) 0 32 1)) ∧
      (-4 ≤ m.logSync → m.logSync ≤ 1 → s1 = updRef s r (fun x => { x with syncSeq := some m.seqId, syncRx := rxStamp s m.lane m.age m.var * 80000, syncTx := none, logSync := m.logSync }) →
        (m.twoStep = true → exec (.sync m) s = .next s1) ∧ (m.twoStep = false → exec (.sync m) s = .next (syncDone s1 r (m.stamp * 80000)))) ∧
      (k.syncSeq = some m.seqId → k.syncTx = none → exec (.followUp m) s = .next (syncDone s r (m.stamp * 80000))) ∧
      ((k.syncSeq ≠ some m.seqId ∨ k.syncTx ≠ none) → exec (.followUp m) s = .next s) ∧
      (isP2p s r = false → k.syncTx = some t1 →
        exec (.delayResp m sent var) s = .next (ptpSample (updRef s r (fun x => { x with syncTx := none, syncSeq := none })) r t1 k.syncRx (((k.syncRx - t1) + (m.stamp - txStamp s m.lane sent var) * 80000) / 2))) ∧
      ((isP2p s r = true ∨ k.syncTx = none) → exec (.delayResp m sent var) s = .next s) ∧
      (isP2p s r = false → exec (.pdelayResp m sent var) s = .next s) ∧
      (isP2p s r = true → d = (rxStamp s m.lane m.age m.var - txStamp s m.lane sent var - m.stamp) * 80000 / 2 → s1 = updRef s r (fun x => { x with msDelay := some d }) →
        (k.msDelay = none → k.syncTx = some t1 → exec (.pdelayResp m sent var) s = .next (ptpSample s1 r t1 k.syncRx d)) ∧
        ((k.msDelay ≠ none ∨ k.syncTx = none) → exec (.pdelayResp m sent var) s = .next s1)) ∧
      (s1 = updRef s r (fun x => { x with lastAnn := some (s.tim.ticks + if m.logSync ≥ 0 then 2400000000 * 2 ^ m.logSync.toNat else 2400000000 / 2 ^ (-m.logSync).toNat), annPtp := scale }) →
        w = (match k.utcEvt with | some t => decide (s.tim.ticks - t < 2880000000000) | none => false) →
        (scale = true → offset ≠ (leapNow s).1 → w = false →
          exec (.announce m scale offset) s = .next (eventD (updRef s1 r (fun x => { x with utcEvt := some s.tim.ticks })) 9 0x0C 0x0585 [r - 2, satSigned 64 offset, satSigned 64 (leapNow s).1] 0)) ∧
        ((scale = false ∨ offset = (leapNow s).1 ∨ w = true) → exec (.announce m scale offset) s = .next s1))) ∧
    (k = getRef s (2 + gm) →
      (∀ t, k.lastSample = some t → gm < 2 → k.good = true → s.tim.ticks - t ≥ 2400000000 * 2 ^ (k.logSync + 4).toNat / 16 →
        exec (.ptpSampleTimeout gm) s = .next (recompute (bumpSat (updRef s (2 + gm) (fun x => { x with good := false, valid := 0 })) bTIM 0x88 0 32 1))) ∧
      ((gm ≥ 2 ∨ k.good = false ∨ k.lastSample = none ∨ (∃ t, k.lastSample = some t ∧ s.tim.ticks - t < 2400000000 * 2 ^ (k.logSync + 4).toNat / 16)) → exec (.ptpSampleTimeout gm) s = .next s)) ∧
    ((r ≥ 2 ∨ refEnabled s r = false) → exec (.ppsEdge r) s = .next s) ∧
    (r < 2 → refEnabled s r = true → s1 = lineLost s r →
      good = (match (getRef s r).lastEdge with | some t => !(getRef s r).missed && decide (s.tim.ticks - t + 800 ≥ 800000000 ∧ s.tim.ticks - t ≤ 800000800) | none => false) →
      exec (.ppsEdge r) s = .next (updRef s1 r (fun x => { x with lastEdge := some s.tim.ticks, missed := false, edgeOk := good, waiting := true }))) ∧
    (k = getRef s r →
      ((r ≥ 2 ∨ refEnabled s r = false ∨ k.waiting = false ∨ k.lastEdge = none) → exec (.todLine r sec locked crcOk) s = .next s) ∧
      (r < 2 → refEnabled s r = true → k.waiting = true → k.lastEdge = some t → w = decide (40000000 ≤ s.tim.ticks - t ∧ s.tim.ticks - t ≤ 760000000) →
        s1 = updRef s r (fun x => { x with waiting := false, todSec := if crcOk && w then some sec else none }) →
        (k.edgeOk = true → w = true → crcOk = true → locked = true → k.todSec = some (sec - 1) → 0 < sec →
          exec (.todLine r sec locked crcOk) s = .next (checkS8 (validSample s1 r (((sec : Int) - 1) * 80000000000000 + 100000 * ((s.tim.ticks - t : Nat) : Int) - s.tim.tai)))) ∧
        (¬ (k.edgeOk = true ∧ w = true ∧ crcOk = true ∧ locked = true ∧ k.todSec = some (sec - 1) ∧ 0 < sec) → exec (.todLine r sec locked crcOk) s = .next (invalidSample s1 r))) ∧
      (r < 2 → refEnabled s r = true → k.lastEdge = some t → s.tim.ticks - t > 800000800 →
        exec (.ppsMissing r) s = .next (invalidSample (updRef (lineLost s r) r (fun x => { x with lastEdge := some (t + 800000000), missed := true, todSec := none })) r)) ∧
      ((r ≥ 2 ∨ refEnabled s r = false ∨ k.lastEdge = none ∨ (k.lastEdge = some t ∧ s.tim.ticks - t ≤ 800000800)) → exec (.ppsMissing r) s = .next s)) ∧
    ((s.tim.uHist.head? = none ∨ (s.tim.uHist.head? = some (e, k0) ∧ s.tim.ticks - e ≥ 1024)) → exec .uRecompute s = .next (recompute s)) ∧
    (s.tim.uHist.head? = some (e, k0) → s.tim.ticks - e < 1024 → exec .uRecompute s = .next s) ∧
    (s.tim.rem = 0 → exec .slewEnd s = .next (recompute s)) ∧ (s.tim.rem ≠ 0 → exec .slewEnd s = .next s) ∧
    exec .leapTableInstant s = .next { s with tim.leapOff := (leapNow s).1, tim.utcStale := (leapNow s).2 } ∧
    (s.tim.acqFirst = some t → inS8 s = true → s.tim.ticks - t ≥ 800000000 * fget s bTIM 0x30 16 8 → exec .acqWaitExpire s = .next (endS8 s)) ∧
    ((s.tim.acqFirst = none ∨ inS8 s = false ∨ (s.tim.acqFirst = some t ∧ s.tim.ticks - t < 800000000 * fget s bTIM 0x30 16 8)) → exec .acqWaitExpire s = .next s) ∧
    (ppsDue s = true → exec .ppsOutEdge s = .next (emitOut { s with tim.ppsLast := some s.tim.ticks, tim.ppsPhase := secPhase s.tim.tai, tim.ppsStepped := false } (.pps s.now))) ∧
    (ppsDue s = false → exec .ppsOutEdge s = .next s) ∧
    (inp ≥ 3 → exec (.refInputLoss inp) s = .next s ∧ exec (.refInputReturn inp) s = .next s ∧ exec (.pllLockRegained inp) s = .next s) ∧
    (inp < 3 → s1 = { s with tim.usable := setBits s.tim.usable inp 1 0 } →
      (s.tim.pllSrc ≠ inp → exec (.refInputLoss inp) s = .next s1) ∧ (s.tim.pllSrc = inp → bestInput s1 = some j → exec (.refInputLoss inp) s = .next (switchInput s1 j)) ∧
      (s.tim.pllSrc = inp → bestInput s1 = none → exec (.refInputLoss inp) s = .next { s1 with tim.pllSrc := 3, tim.pllLock := false })) ∧
    (inp < 3 → s.tim.pllSrc ≠ 3 →
      (bit s.tim.usable inp = false → exec (.refInputReturn inp) s = .next (inputUsable s inp)) ∧
      (bit s.tim.usable inp = true → (inputOrder s).idxOf inp < (inputOrder s).idxOf s.tim.pllSrc → s.tim.ticks - (s.tim.usableSince[inp]?).getD 0 ≥ 48000000000 → exec (.refInputReturn inp) s = .next (switchInput s inp)) ∧
      (bit s.tim.usable inp = true → ¬ ((inputOrder s).idxOf inp < (inputOrder s).idxOf s.tim.pllSrc ∧ s.tim.ticks - (s.tim.usableSince[inp]?).getD 0 ≥ 48000000000) → exec (.refInputReturn inp) s = .next s) ∧
      exec (.pllLockRegained inp) s = .next s) ∧
    (inp < 3 → s.tim.pllSrc = 3 →
      exec (.refInputReturn inp) s = .next s ∧ (s.tim.running = true → exec (.pllLockRegained inp) s = .next { inputUsable s inp with tim.pllSrc := inp, tim.pllLock := true }) ∧
      (s.tim.running = false → exec (.pllLockRegained inp) s = .next s))

/-- R31, R105 to R107, R142, R168 to R171, R303, R309, R393, R442, R445, Table 4.2: in SEALED before S9 the work of a step ends with that step's effect, and a step that fails or passes its limit leads to ROM recovery (S0 to S4) or to HOLD BOOT_STEP; a book parts at P_b, its PART grain takes the next number once no earlier frame remains and
no lower book of the same P_b waits, and it closes when that grain is durable; a head request takes its number where the buffer has room; a grain within the window is durable; a durable, matched reply leaves. Each row has no effect elsewhere. -/
def Obligations.BootAndSequencerComplete : Prop :=
  ∀ (s s1 : State) (f : BootFacts) (t b n sn : Nat) (k : Book) (g : Grain) (q : GReq) (qs : List GReq) (r : Reply) (failed clear : Bool) (st : Stream),
    (booting s = false → exec (.sealedStepComplete f) s = .next s ∧ exec (.bootStepTimeout failed) s = .next s) ∧
    (booting s = true →
      (s.sec.step = 0 → exec (.sealedStepComplete f) s = .next (beginStep { s with sec.locks := votedOf (s.sec.locks.maj ||| 2), sec.vault := { s.sec.vault with swk := true, zpend := false, zeroized := s.sec.vault.zeroized || s.sec.vault.zpend } } 1)) ∧
      (s.sec.step = 1 → s1 = { s with tim.usable := f.usable % 8 } →
        (bestInput s1 = none → exec (.sealedStepComplete f) s = .next (bootFail s)) ∧
        (∀ i, bestInput s1 = some i → exec (.sealedStepComplete f) s = .next (beginStep (putLeap { s1 with tim.usableSince := [s.tim.ticks, s.tim.ticks, s.tim.ticks], tim.pllSrc := i, tim.pllLock := true, tim.running := true, tim.tai := 0, tim.rem := 0, sec.coldWait := (match s.hlt.temps with | [] => false | x :: l => decide (l.foldl max x < 0)) }) 2))) ∧
      (s.sec.step = 2 →
        (s.sec.coldWait = true → exec (.sealedStepComplete f) s = .next s) ∧
        (s.sec.coldWait = false → [1, 3, 15, 255].contains f.pop = true → [1, 2, 4, 8].contains f.dimm = true → f.speed ≤ 2 →
          exec (.sealedStepComplete f) s = .next (beginStep (rawSet (rawSet s bMEM 0x10 (f.pop + 2 ^ 8 * f.speed + 2 ^ 16 * f.dimm + 2 ^ 24)) bMEM 0x14 (chanCount f.pop * f.dimm * 16)) 3)) ∧
        (s.sec.coldWait = false → ([1, 3, 15, 255].contains f.pop = false ∨ [1, 2, 4, 8].contains f.dimm = false ∨ 2 < f.speed) → exec (.sealedStepComplete f) s = .next (bootFail s))) ∧
      (s.sec.step = 3 → exec (.sealedStepComplete f) s = .next (stepS3 f s)) ∧ (s.sec.step = 4 → exec (.sealedStepComplete f) s = .next (stepS4 s)) ∧
      (s.sec.step = 5 → scanOk f s = false → exec (.sealedStepComplete f) s = .next (bootFail s)) ∧
      (s.sec.step = 5 → scanOk f s = true → f.tailFail = none → (flashScan f s).inMode .hold = false → exec (.sealedStepComplete f) s = .next (endS5 f (flashScan f s))) ∧
      (s.sec.step = 5 → scanOk f s = true → f.tailFail = some n → exec (.sealedStepComplete f) s = .next (bootFail (fset (fset (flashScan f s) bJRN 0x3C 1 1 1) bJRN 0x3C 8 7 n))) ∧
      (s.sec.step = 6 → exec (.sealedStepComplete f) s = .next (stepS6 s)) ∧
      (s.sec.step = 7 → waitsDecl s = true → exec (.sealedStepComplete f) s = .next s ∧ exec (.bootStepTimeout failed) s = .next s) ∧
      (s.sec.step = 7 → waitsDecl s = false → exec (.sealedStepComplete f) s = .next (stepS7 f s)) ∧
      (s.sec.step = 8 → exec (.sealedStepComplete f) s = .next (if inS8 s && s.tim.acqFirst.isSome && allGood s then endS8 s else s)) ∧
      (s.sec.step = 9 → exec (.sealedStepComplete f) s = .next (stepS9 s)) ∧
      (s.sec.coldWait = true → exec (.bootStepTimeout failed) s = .next s) ∧
      (s.sec.coldWait = false → waitsDecl s = false →
        ((failed = true ∨ s.tim.ticks - s.sec.stepSince > stepLimit s s.sec.step) →
          (s.sec.step ≤ 4 → exec (.bootStepTimeout failed) s = .next { s with sec.fail := true, sec.recovery := true }) ∧
          (4 < s.sec.step → exec (.bootStepTimeout failed) s = .next (enterHold { s with sec.fail := true } hBOOT_STEP s.sec.step 0))) ∧
        (failed = false → s.tim.ticks - s.sec.stepSince ≤ stepLimit s s.sec.step → exec (.bootStepTimeout failed) s = .next s))) ∧
    (s.pwr.held = false → rawGet s bMEM 0x14 ≠ 0 → exec .sweepComplete s = .next (fset s bMEM 0x10 24 1 0)) ∧
    ((s.pwr.held = true ∨ rawGet s bMEM 0x14 = 0) → exec .sweepComplete s = .next s) ∧
    (k = getBook s t b →
      (onSale k = true → k.pb ≤ s.now → followsRecord s t = false → s.tim.acquired = true → s.inMode .hold = false → s.inMode .sealed = false →
        exec (.partingInstant t b) s = .next (partBook s t b (uAtTick s (s.tim.ticks - ticksOfNs (s.now - k.pb))) false 0)) ∧
      ((onSale k = false ∨ s.now < k.pb ∨ followsRecord s t = true ∨ s.tim.acquired = false ∨ s.inMode .hold = true ∨ s.inMode .sealed = true) → exec (.partingInstant t b) s = .next s) ∧
      (clear = true → k.partWait = true → (booksOf s t).any (fun x => decide (x < b) && (getBook s t x).partWait && (getBook s t x).pb == k.pb) = false → streamStill s t = false → s.jrn.closed = false → s.inMode .hold = false → s.inMode .sealed = false →
        exec (.partNumber t b clear) s = .next (mediaGate s t (numberPart s t b 0))) ∧
      ((clear = false ∨ k.partWait = false ∨ (booksOf s t).any (fun x => decide (x < b) && (getBook s t x).partWait && (getBook s t x).pb == k.pb) = true ∨ streamStill s t = true ∨ s.jrn.closed = true ∨ s.inMode .hold = true ∨ s.inMode .sealed = true) →
        exec (.partNumber t b clear) s = .next s) ∧
      (k.partSeq = some n → grainAt s t n = some g → k.sales = .parting → isDurable s t n = true → s.inMode .hold = false → s.inMode .sealed = false →
        exec (.bookClose t b) s = .next (eventOwn (changeBook s t b (taiAt s g.durAt) (fun k => { k with st := votedOf Sales.closed.code })) t 9 3 0x0383 [b, n] (taiAt s g.durAt) (uAtTick s g.durAt) b 0 0)) ∧
      ((k.partSeq = none ∨ (k.partSeq = some n ∧ (grainAt s t n = none ∨ k.sales ≠ .parting ∨ isDurable s t n = false ∨ s.inMode .hold = true ∨ s.inMode .sealed = true))) → exec (.bookClose t b) s = .next s)) ∧
    ((strm s t).reqs = q :: qs → roomFor s t q.body = true → exec (.grainRequestNumber t) s = .next (mediaGate s t (numberHead s t))) ∧
    (((strm s t).reqs = [] ∨ ((strm s t).reqs = q :: qs ∧ roomFor s t q.body = false)) → exec (.grainRequestNumber t) s = .next s) ∧
    (st = strm s t →
      (grainAt s t st.dur = some g → g.flash = false → occUpTo s t g ≤ cwinBytes s → exec (.grainDurable t) s = .next (nowDurable s t (st.dur + 1))) ∧
      (grainAt s t st.dur = some g → g.flash = false → cwinBytes s < occUpTo s t g → g.waited = false →
        exec (.grainDurable t) s = .next (bumpWrap (setStrm s t { st with grains := st.grains.map (fun x => if x.seq = g.seq then { x with waited := true } else x) }) bJRN 0x4C 0 32 1)) ∧
      ((grainAt s t st.dur = none ∨ (grainAt s t st.dur = some g ∧ (g.flash = true ∨ (cwinBytes s < occUpTo s t g ∧ g.waited = true)))) → exec (.grainDurable t) s = .next s)) ∧
    (nextReply s t sn = some r → grainAt s t r.seq = some g → isDurable s t r.seq = true → (syncOn s t = false ∨ r.seq < firstUnmatched s t) → s1 = { s with awp.replies := s.awp.replies.filter (fun x => !(x.tenant == t && x.seq == r.seq)) } →
      (bit g.hdr.flags 0 = true → exec (.replyRelease t sn) s = .next (replyGone (sendReject s1 r.tenant r.session r.route rjRULE (rejectBody r.counter rjRULE true r.seq (dig8 g.digest) g.hdr.rule 0 0)) t sn)) ∧
      (bit g.hdr.flags 0 = false → exec (.replyRelease t sn) s = .next (replyGone (sendAwp { s1 with hlt.latencies := s1.hlt.latencies ++ [(r.tenant, s1.now - r.tai)] } r.tenant r.session r.route mtRECEIPT
        (receiptBody r.counter r.seq (dig8 g.digest) r.tai r.u (g.body.take g.hdr.tlen))) t sn))) ∧
    ((nextReply s t sn = none ∨ (nextReply s t sn = some r ∧ (grainAt s t r.seq = none ∨ isDurable s t r.seq = false ∨ (syncOn s t = true ∧ firstUnmatched s t ≤ r.seq)))) → exec (.replyRelease t sn) s = .next s)

/-- R70 to R101, R174, R279 for a requester up to 0x60 of a device that is not held (no other reaches register space): an access that Table 3.2 refuses is a bus error and writes nothing but the capture of R73; UNLOCK arms a block's guard, a write to a key-guarded register needs it and disarms it, and without it is dropped with KEYFAIL; every other
write acts on its register, in a slow domain when the domain takes it. The guard expires after 256 cycles. SET REG and SHOW REG do so for a console. A write to an address that names no indirect space is no INDIRECT row, and a row of a lane beyond 47 no lane's (DESIGN CHOICE, log 2). -/
def Obligations.RegisterRowsComplete : Prop :=
  ∀ (s s1 t : State) (req b off width v val a o r scope tenant book lane core n : Nat) (i : Instr) (sp : Space) (g : Guard) (p : Posted) (rd : BitVec 5) (w : TWord) (x : BusRes) (l : ConLine) (key : Bool),
    v = val % 2 ^ 32 →
    ((req > 0x60 ∨ s.pwr.held = true) →
      (i = .unlock req b val ∨ i = .update req val ∨ i = .snap req ∨ i = .modeWrite req val ∨ i = .registerWrite req b off width val ∨ i = .indirectAddrWrite req b off val ∨ i = .indirectDataWrite req b off val ∨ i = .indirectDataRead req b off ∨
       i = .bookcmdOpen req scope tenant book ∨ i = .bookcmdSetcause req scope tenant book ∨ i = .bookcmdClearcause req scope tenant book ∨ i = .bookcmdRelease req scope tenant book ∨ i = .bookcmdRestore req scope tenant book ∨ i = .refenWrite req val ∨
       i = .eclassWrite req val ∨ i = .freezeWrite req lane val ∨ i = .lmargWrite req lane val ∨ i = .rplRunWrite req val) → exec i s = .next s) ∧
    (req ≤ 0x60 → s.pwr.held = false →
      (accessReason b off width true = r → r ≠ 0 → exec (.registerWrite req b off width val) s = .next (emitOut (busErr s req (regAddr b off) true r).st (.busErr req r))) ∧
      (accessReason b off width true = 0 → forbidden s req b off false = true → exec (.registerWrite req b off width val) s = .next (emitOut (busErr s req (regAddr b off) true 7).st (.busErr req 7))) ∧
      (accessReason b off width true = 0 → forbidden s req b off false = false →
        (off = 4 → exec (.registerWrite req b off width val) s = .next (unlockWrite s req b v)) ∧
        (off ≠ 4 → dataSpace s b off = none →
          (isPosted b off = true → exec (.registerWrite req b off width val) s = .next (postWrite s req b off v)) ∧
          (isPosted b off = false → isKw b off = true → guardOk s req b = true → exec (.registerWrite req b off width val) s = .next (guardedWrite (disarm s b) b off v 0)) ∧
          (isPosted b off = false → isKw b off = true → guardOk s req b = false → exec (.registerWrite req b off width val) s = .next (setStat s b 2)) ∧
          (isPosted b off = false → isKw b off = false → exec (.registerWrite req b off width val) s = .next (openWrite s req b off v 0)))) ∧
      (assigned b = true → exec (.unlock req b val) s = .next (unlockWrite s req b v)) ∧
      exec (.update req val) s = .next (updateWrite s req v 0) ∧ exec (.snap req) s = .next (snapAll s) ∧
      (req ≠ 0x60 → ((i = .modeWrite req val ∧ a = bSYS ∧ o = 0x20) ∨ ((i = .bookcmdOpen req scope tenant book ∨ i = .bookcmdSetcause req scope tenant book ∨ i = .bookcmdClearcause req scope tenant book ∨ i = .bookcmdRelease req scope tenant book ∨ i = .bookcmdRestore req scope tenant book) ∧ a = bPRT ∧ o = 0x20) ∨
        (i = .rplRunWrite req val ∧ a = bRPL ∧ o = 0x28)) → exec i s = .next (emitOut (busErr s req (regAddr a o) true 7).st (.busErr req 7))) ∧
      (req = 0x60 →
        (s1 = disarm s bSYS → guardOk s req bSYS = true → exec (.modeWrite req val) s = .next (modeWrite (if bit v 8 then fset s1 bSYS 0x20 8 1 0 else s1) (v % 8))) ∧
        (guardOk s req bSYS = false → exec (.modeWrite req val) s = .next (setStat s bSYS 2)) ∧
        (((i = .bookcmdOpen req scope tenant book ∧ o = 1) ∨ (i = .bookcmdSetcause req scope tenant book ∧ o = 2) ∨ (i = .bookcmdClearcause req scope tenant book ∧ o = 3) ∨ (i = .bookcmdRelease req scope tenant book ∧ o = 4) ∨ (i = .bookcmdRestore req scope tenant book ∧ o = 5)) →
          (guardOk s req bPRT = true → exec i s = .next (bookCmd (disarm s bPRT) (book % 4096 + 2 ^ 12 * (tenant % 64) + 2 ^ 18 * (scope % 4) + 2 ^ 20 * o) (fun _ => true) 0)) ∧ (guardOk s req bPRT = false → exec i s = .next (setStat s bPRT 2))) ∧
        exec (.rplRunWrite req val) s = .next (if bit v 0 then replayStart s else s)) ∧
      (guardOk s req bTIM = true → exec (.refenWrite req val) s = .next (refenWrite (disarm s bTIM) (v % 16) 0)) ∧
      (guardOk s req bTIM = false → exec (.refenWrite req val) s = .next (setStat s bTIM 2)) ∧
      (s1 = disarm s bPWR → guardOk s req bPWR = true → exec (.eclassWrite req val) s = .next (eclassWrite (if bit v 8 then fset s1 bPWR 0x10 8 1 0 else s1) (v % 4) 0)) ∧
      (guardOk s req bPWR = false → exec (.eclassWrite req val) s = .next (setStat s bPWR 2)) ∧
      (lane < 48 → exec (.freezeWrite req lane val) s = .next (freezeWrite s (lane / 4) (lane % 4) (v % 2)) ∧
        (guardOk s req (bLQ + lane / 4) = true → exec (.lmargWrite req lane val) s = .next (lmargWrite (disarm s (bLQ + lane / 4)) (lane / 4) (lane % 4) v 0)) ∧
        (guardOk s req (bLQ + lane / 4) = false → exec (.lmargWrite req lane val) s = .next (setStat s (bLQ + lane / 4) 2))) ∧
      (48 ≤ lane → exec (.freezeWrite req lane val) s = .next s ∧ exec (.lmargWrite req lane val) s = .next s) ∧
      (addrSpace s b off = none → exec (.indirectAddrWrite req b off val) s = .next s) ∧
      (dataSpace s b off = none → exec (.indirectDataWrite req b off val) s = .next s ∧ exec (.indirectDataRead req b off) s = .next s) ∧
      (addrSpace s b off = some sp → exec (.indirectAddrWrite req b off val) s = .next (if b = bFLC ∨ b = bWIT then postWrite s req b off v else addrWrite s req b sp v)) ∧
      (dataSpace s b off = some sp → (sp.writable = false ∨ b = bUCD) → exec (.indirectDataWrite req b off val) s = .next (emitOut (busErr s req (regAddr b off) true 7).st (.busErr req 7))) ∧
      (dataSpace s b off = some sp → sp.writable = true → b ≠ bUCD → x = (if b = bPRT then ptDataWrite s req (regAddr b off) sp v else phyDataWrite s req (regAddr b off) b sp v) →
        (x.reason = 0 → exec (.indirectDataWrite req b off val) s = .next x.st) ∧ (x.reason ≠ 0 → exec (.indirectDataWrite req b off val) s = .next (emitOut x.st (.busErr req x.reason)))) ∧
      (dataSpace s b off = some sp → x = dataRead s req (regAddr b off) b sp →
        (x.reason = 0 → exec (.indirectDataRead req b off) s = .next (emitOut x.st (.regRead req (BitVec.ofNat 32 x.val)))) ∧ (x.reason ≠ 0 → exec (.indirectDataRead req b off) s = .next (emitOut x.st (.busErr req x.reason))))) ∧
    (lk s.sys.guards b = some g → s.sys.cycle - g.since ≥ 256 → exec (.keyguardExpire b) s = .next { s with sys.guards := del s.sys.guards b }) ∧
    ((lk s.sys.guards b = none ∨ (lk s.sys.guards b = some g ∧ s.sys.cycle - g.since < 256)) → exec (.keyguardExpire b) s = .next s) ∧
    exec (.postedWriteTaken b) s = .next (postedTaken s b) ∧
    (p = getPosted s b → s1 = putPosted (domainReset s b) b ⟨[], false, true⟩ →
      (hasDomain b = true → (p.xfer = true ∨ p.pend ≠ []) → exec (.postedDomainReset b) s = .next (setStat s1 b 4)) ∧ (hasDomain b = true → p.xfer = false → p.pend = [] → exec (.postedDomainReset b) s = .next s1) ∧
      (hasDomain b = false → exec (.postedDomainReset b) s = .next s) ∧ (p.rst = false → exec (.domainResetEnd b) s = .next s) ∧
      (p.rst = true → (b ≠ bWIT ∨ s.sec.s5done = false) → exec (.domainResetEnd b) s = .next (putPosted s b { p with rst := false })) ∧
      (p.rst = true → b = bWIT → s.sec.s5done = true → exec (.domainResetEnd b) s = .next (meshStart (putPosted s b { p with rst := false })))) ∧
    (AtInsn s t core (encI 0x32 ⟨rd, 0, 0x016⟩) → reg t core rd.toNat = w → 1 ≤ lvlOf t core → (w.tag = tRAW ∨ w.tag = tINT) → ¬ (bit w.val.toNat 8 = true ∧ bit w.val.toNat 9 = false ∧ lvlOf t core ≠ 2) →
      Retires (.ipisend core rd) s t (ipiWrite t core w.val.toNat) core) ∧
    (val < 2 ^ 32 → Admits l (spec (setRegAuth b off) [.sealed, .live, .quiet, .replay, .hold] true) s → n = s.con.nextCjn →
      s1 = (if key then (busWrite (begun l false s) reqMgmt b 4 32 (0x5A00 + b) false n).st else begun l false s) → x = busWrite s1 reqMgmt b off 32 val true n →
      (x.reason ≠ 0 → Answers (.setReg l b off val key) s x.st eBUSERR [(x.reason : Int)] []) ∧
      (x.reason = 0 → ¬ (b = bSYS ∧ off = 0x30) → Answers (.setReg l b off val key) s x.st 0 [(n : Int), (statRead x.st b : Int)] []) ∧
      (x.reason = 0 → b = bSYS → off = 0x30 → Answers (.setReg l b off val key) s x.st 0 [(n : Int), (statRead x.st b : Int), (((maskGroups val).filter (groupOk s1)).foldl (fun a g => a + 2 ^ g) 0 : Nat),
        (((maskGroups val).filter (fun g => !groupOk s1 g)).foldl (fun a g => a + 2 ^ g) 0 : Nat)] [])) ∧
    (Admits l (spec .observe allModes true) s → x = busRead (begun l false s) reqMgmt b off 32 →
      (x.reason ≠ 0 → Answers (.showReg l b off) s x.st eBUSERR [(x.reason : Int)] []) ∧ (x.reason = 0 → Answers (.showReg l b off) s x.st 0 [(x.val : Int)] []))

/-- R58, with R57, R59, R60, R161, R173, Table 6.4 for a book number below 4,096: what each operation of PRT.BOOKCMD, an entry write and a parting leave in every book. OPEN opens a DORMANT book inside the window of R58 alone; causes suspend the OPEN and SUSPENDED books of the scope that follow no record; a clear returns a book to OPEN when its mask is
empty and the window of R173 holds, and is refused while quality is STARVED or BREACH; MIRROR clears only where the caller's rule lets it; RELEASE takes CLOSED to DORMANT; PARTING empties the mask. A book whose P_b the time base has reached counts as parted at an entry write (log 31 DEDUCED). -/
def Obligations.SalesTransitions : Prop :=
  ∀ (s x r : State) (t b t' b' scope op mask n pb m u v st e : Nat) (k k' : Book) (ok : Nat → Bool) (bs : List (Nat × Nat)) (step : Bool),
    t < 64 → b < 4096 → b' < 4096 → mask < 128 → k = getBook s t b → k' = getBook s t' b' → bs = scopeBooks s scope t b →
    (scope < 3 → v = b + 2 ^ 12 * t + 2 ^ 18 * scope + 2 ^ 20 * op → r = rawSet s bPRT 0x20 v → e = fget r bPRT 0x24 4 7 →
      (op = 1 → bookCmd s v ok n = cmdOpen r scope t b n) ∧ (op = 2 → bookCmd s v ok n = cmdSetCause r scope t b e n) ∧ (op = 3 → bookCmd s v ok n = cmdClearCause r scope t b e ok n) ∧
      (op = 4 → bookCmd s v ok n = cmdRelease r scope t b n) ∧ (op = 5 → bookCmd s v ok n = cmdRestore r scope t b (fget r bPRT 0x24 0 3) e)) ∧
    ((s.inMode .sealed = true ∨ s.inMode .audit = true ∨ s.inMode .hold = true) → x ∈ [cmdOpen s scope t b n, cmdSetCause s scope t b mask n, cmdClearCause s scope t b mask ok n, cmdRelease s scope t b n] → x.books = s.books ∧ bookReason x = 3) ∧
    (s.inMode .sealed = false → s.inMode .audit = false → s.inMode .hold = false →
      (x = cmdOpen s scope t b n →
        (scope = 0 → k.sales = .dormant → s.tim.u + k.margin * 1000 + s.now < k.pb →
          (getBook x t b).sales = .open ∧ (getBook x t b).cause = 0 ∧ (getBook x t b).pb = k.pb ∧ (getBook x t b).margin = k.margin ∧ (getBook x t b).te = s.now ∧ ((t', b') ≠ (t, b) → getBook x t' b' = k') ∧ bookReason x = 0) ∧
        (scope = 0 → k.sales = .dormant → k.pb ≤ s.tim.u + k.margin * 1000 + s.now → x.books = s.books ∧ bookReason x = 2) ∧
        ((scope ≠ 0 ∨ k.sales ≠ .dormant) → x.books = s.books ∧ bookReason x = 1)) ∧
      (x = cmdSetCause s scope t b mask n →
        (scope = 0 → onSale k = false → x.books = s.books ∧ bookReason x = 1) ∧
        (¬ (scope = 0 ∧ onSale k = false) → bookReason x = 0 ∧
          ((t', b') ∈ bs → onSale k' = true → followsRecord s t' = false → k'.cause ||| mask ≠ k'.cause → (getBook x t' b').sales = .suspended ∧ (getBook x t' b').cause = k'.cause ||| mask ∧ (getBook x t' b').pb = k'.pb ∧ (getBook x t' b').margin = k'.margin) ∧
          (((t', b') ∉ bs ∨ onSale k' = false ∨ followsRecord s t' = true ∨ k'.cause ||| mask = k'.cause) → getBook x t' b' = k'))) ∧
      (x = cmdClearCause s scope t b mask ok n →
        ((s.tim.qual = .starved ∨ s.tim.qual = .breach) → x.books = s.books ∧ bookReason x = 4) ∧
        (¬ (s.tim.qual = .starved ∨ s.tim.qual = .breach) → scope = 0 → k.sales ≠ .suspended → x.books = s.books ∧ bookReason x = 1) ∧
        (¬ (s.tim.qual = .starved ∨ s.tim.qual = .breach) → ¬ (scope = 0 ∧ k.sales ≠ .suspended) → m = k'.cause &&& (127 ^^^ mask) →
          ((t', b') ∈ bs → k'.sales = .suspended → m ≠ k'.cause → (k'.cause &&& mask &&& 8 = 0 ∨ ok t' = true) → (m ≠ 0 ∨ s.now + s.tim.u + k'.margin * 1000 < k'.pb) →
            (getBook x t' b').sales = (if m = 0 then .open else .suspended) ∧ (getBook x t' b').cause = m ∧ (getBook x t' b').pb = k'.pb ∧ (getBook x t' b').margin = k'.margin) ∧
          (((t', b') ∉ bs ∨ k'.sales ≠ .suspended ∨ m = k'.cause ∨ (k'.cause &&& mask &&& 8 ≠ 0 ∧ ok t' = false) ∨ (m = 0 ∧ k'.pb ≤ s.now + s.tim.u + k'.margin * 1000)) → getBook x t' b' = k'))) ∧
      (x = cmdRelease s scope t b n →
        (scope = 0 → k.sales = .closed → (getBook x t b).sales = .dormant ∧ (getBook x t b).cause = 0 ∧ (getBook x t b).settled = false ∧ (getBook x t b).pb = k.pb ∧ (getBook x t b).margin = k.margin ∧ ((t', b') ≠ (t, b) → getBook x t' b' = k') ∧ bookReason x = 0) ∧
        ((scope ≠ 0 ∨ k.sales ≠ .closed) → x.books = s.books ∧ bookReason x = 1))) ∧
    (x = cmdRestore s scope t b st mask → st < 5 →
      (¬ ((s.inMode .sealed = true ∧ s.sec.s5done = false) ∨ s.inMode .replay = true) → x.books = s.books ∧ bookReason x = 3) ∧
      (((s.inMode .sealed = true ∧ s.sec.s5done = false) ∨ s.inMode .replay = true) → scope = 0 → (getBook x t b).sales.code = st ∧ (getBook x t b).cause = mask ∧ (getBook x t b).pb = k.pb ∧ ((t', b') ≠ (t, b) → getBook x t' b' = k') ∧ bookReason x = 0)) ∧
    (x = entryWrite s t b pb m n → e = entryReason s k pb m →
      ((s.mode = some .sealed ∨ s.mode = some .replay) → e = 0) ∧
      ((s.mode = some .live ∨ s.mode = some .quiet) →
        (k.sales = .dormant → e = 0) ∧ ((k.sales = .parting ∨ k.sales = .closed ∨ (onSale k = true ∧ k.pb ≤ s.now)) → e = 1) ∧ (onSale k = true → s.now < k.pb → e = (if s.now + s.tim.u + m * 1000 < pb then 0 else 2))) ∧
      ((s.mode = some .audit ∨ s.mode = some .hold) → e = (if k.sales = .parting ∨ k.sales = .closed ∨ (onSale k = true ∧ k.pb ≤ s.now) then 1 else 3)) ∧
      (e = 0 → (getBook x t b).pb = pb ∧ (getBook x t b).margin = m ∧ (getBook x t b).sales = k.sales ∧ (getBook x t b).cause = k.cause ∧ (getBook x t b).te = s.now ∧ ((t', b') ≠ (t, b) → getBook x t' b' = k')) ∧
      (e ≠ 0 → x.books = s.books)) ∧
    (x = partBook s t b u step n →
      (onSale k = true → (getBook x t b).sales = .parting ∧ (getBook x t b).cause = 0 ∧ (getBook x t b).partWait = true ∧ (getBook x t b).te = k.pb ∧ (getBook x t b).pb = k.pb ∧ (getBook x t b).partU = u ∧ ((t', b') ≠ (t, b) → getBook x t' b' = k')) ∧
      (onSale k = false → x = s))

/-- R195, with R178 to R180, R196, R197: what `deliverNum` does with a result n / d, d not 0, in lowest terms p / q. It is judged against its reservation, then against 1,024 limbs (the order is log 113, DEDUCED); an INT is written to the register and nothing else happens; a BIGNUM or a RATIO has its objects stored upward from ALLOC, numerator, denominator, ratio, each with a header
and the next identity number, then the register is written and ALLOC advanced by what they take. Limbs are the fewest words of two's complement that hold an integer, and spell it. -/
def Obligations.CanonicalResults : Prop :=
  ∀ (s s1 s2 s3 : State) (c rd reserve a a1 a2 q L id i : Nat) (n d p : Int) (k : Core) (on od objs : List NewObj) (wp wq w : TWord) (l : List (Nat × TWord)) (t : Trap) (kd : Nat) (body : List TWord) (more : List NewObj),
    d ≠ 0 → (p, q) = lowest n d → k = getCore s c → a = (reg s c 31).val.toNat →
    on = (if in64 p then [] else [⟨some 0x13, limbWords p⟩]) → wp = (if in64 p then wInt p else tw tBIGNUM a) → a1 = (if in64 p then a else a + 8 * (limbsOf p + 1)) →
    od = (if in64 q then [] else [⟨some 0x13, limbWords q⟩]) → wq = (if in64 q then wInt q else tw tBIGNUM a1) → a2 = (if in64 q then a1 else a1 + 8 * (limbsOf q + 1)) →
    objs = (if q = 1 then on else on ++ od ++ [⟨some 0x19, [wp, wq]⟩]) → w = (if q = 1 then wp else tw tRATIO a2) → l = objStores a k.idctr.val.toNat objs →
    (0 < q ∧ Nat.gcd p.natAbs q = 1 ∧ p * d = n * q) ∧
    (L = limbsOf p → 0 < L ∧ -(2 ^ (64 * L - 1)) ≤ p ∧ p < 2 ^ (64 * L - 1) ∧ (0 < i → -(2 ^ (64 * i - 1)) ≤ p → p < 2 ^ (64 * i - 1) → L ≤ i) ∧ (limbWords p).length = L ∧ ofLimbs (limbWords p) = p) ∧
    (objStores i id [] = [] ∧ objStores i id (⟨some kd, body⟩ :: more) = (i, header kd body.length id) :: body.zipIdx.map (fun x => (i + 8 * (x.2 + 1), x.1)) ++ objStores (i + 8 * (body.length + 1)) (id + 1) more) ∧
    (0 < reserve → k.alimit.val.toNat < a + reserve → deliverNum s c rd n d reserve = .trap s (tagTrap rALLOC)) ∧
    ((reserve = 0 ∨ a + reserve ≤ k.alimit.val.toNat) →
      ((limbsOf p > 1024 ∨ limbsOf q > 1024) → deliverNum s c rd n d reserve = .trap s (tagTrap rOVERFLOW)) ∧
      (limbsOf p ≤ 1024 → limbsOf q ≤ 1024 →
        (destBad s c rd w = true → deliverNum s c rd n d reserve = .trap s (tagTrap rTYPE)) ∧
        (destBad s c rd w = false →
          (q = 1 → in64 p = true → w = wInt p ∧ deliverNum s c rd n d reserve = .done (putReg s c rd w)) ∧
          (objs ≠ [] →
            (k.idctr.tag ≠ tINT → deliverNum s c rd n d reserve = .trap s (tagTrap rTYPE)) ∧
            (k.idctr.tag = tINT → 2 ^ 40 < k.idctr.val.toNat + objs.length → deliverNum s c rd n d reserve = .trap s (tagTrap rOVERFLOW)) ∧
            (k.idctr.tag = tINT → k.idctr.val.toNat + objs.length ≤ 2 ^ 40 →
              (ptrOk (reg s c 31).val = false → deliverNum s c rd n d reserve = .trap s ⟨cTAGTRAP, rBADPTR, a % 2 ^ 48, kSTORE, false⟩) ∧
              (ptrOk (reg s c 31).val = true → plainWords s c l = .trap s1 t → deliverNum s c rd n d reserve = .trap s1 t) ∧
              (ptrOk (reg s c 31).val = true → plainWords s c l = .ok s1 () → s2 = updCore s1 c (fun k => { k with idctr := ⟨k.idctr.tag, k.idctr.val + BitVec.ofNat 64 objs.length⟩ }) → s3 = putReg s2 c rd w →
                deliverNum s c rd n d reserve = .done (putReg s3 c 31 ⟨(reg s3 c 31).tag, (reg s3 c 31).val + BitVec.ofNat 64 (((objs.map (fun o => 8 * (o.body.length + 1))).sum))⟩)))))))

/-- R248, R266 to R270, R272, R274, R276, R277, Tables 9.5 and 10.4 for any access: in the firmware window at M nothing is translated; elsewhere the entry of the level's ASID whose range holds the address decides; without one the access misses; what R, W, X, the page type and U forbid faults in that order (log 109 DEDUCED); an access that needs A or D sets them in
memory and in the entry where memory still holds the entry's image, else the entry is dropped and the access misses. The cases in which each access kind is permitted are spelled out. Nothing else changes. -/
def Obligations.Translation : Prop :=
  ∀ (s : State) (c va kind n asid lvl i : Nat) (e e' : TlbEnt) (k : Core) (img : BitVec 64) (wr pass : Bool) (miss : Trap),
    k = getCore s c → lvl = k.level → asid = (if lvl = 2 then 0xFF else k.asid) → miss = ⟨cTLBMISS, 0, va, kind, false⟩ → wr = (kind == kSTORE || kind == kPUSH || kind == kCARD) →
    (lvl = 2 → inWindow va = true →
      ((kind = kPUSH ∨ kind = kPOP) → xlate s c va kind = .trap s ⟨cACCESS, aPAGETYPE, va, kind, false⟩) ∧
      (¬ (kind = kPUSH ∨ kind = kPOP) → windowTgt va = .aperture → wr = true → xlate s c va kind = .trap s ⟨cACCESS, aCTXWIN, va, kind, false⟩) ∧
      (¬ (kind = kPUSH ∨ kind = kPOP) → ¬ (windowTgt va = .aperture ∧ wr = true) → xlate s c va kind = .ok s ⟨va, va, windowTgt va, 4, 3, true⟩)) ∧
    (¬ (lvl = 2 ∧ inWindow va = true) →
      ((∀ p ∈ k.tlb, ¬ (p.2.asid = asid ∧ p.2.va ≤ va ∧ va < p.2.va + pageBytes p.2.size)) → xlate s c va kind = .trap s miss) ∧
      (lookup k.tlb asid va = some (n, e) →
        ((n, e) ∈ k.tlb ∧ e.asid = asid ∧ e.va ≤ va ∧ va < e.va + pageBytes e.size) ∧
        (permReason e lvl kind ≠ 0 → xlate s c va kind = .trap s ⟨cACCESS, permReason e lvl kind, va, kind, false⟩) ∧
        (permReason e lvl kind = 0 →
          (pteBit e 5 = true → (wr = true → pteBit e 6 = true) →
            xlate s c va kind = .ok s ⟨va, bits e.img.toNat 13 33 * 0x2000 + (va - e.va), if pteTyp e = 3 then .device else .dram, pteTyp e, pteGen e, pteBit e 2⟩) ∧
          (¬ (pteBit e 5 = true ∧ (wr = true → pteBit e 6 = true)) → mem s e.pte = ⟨tRAW, e.img⟩ → (∀ j, img.toNat.testBit j = (j == 5 || (wr && j == 6) || e.img.toNat.testBit j)) → e' = { e with img := img } →
            xlate s c va kind = .ok (putMem (updCore s c (fun k => { k with tlb := ins k.tlb n e' })) e.pte ⟨tRAW, img⟩)
              ⟨va, bits e.img.toNat 13 33 * 0x2000 + (va - e.va), if pteTyp e = 3 then .device else .dram, pteTyp e, pteGen e, pteBit e 2⟩) ∧
          (¬ (pteBit e 5 = true ∧ (wr = true → pteBit e 6 = true)) → mem s e.pte ≠ ⟨tRAW, e.img⟩ → xlate s c va kind = .trap (updCore s c (fun k => { k with tlb := del k.tlb n })) miss)))) ∧
    (pass = (pteBit e 4 == (lvl == 0)) →
      (permReason e lvl kFETCH = 0 ↔ pteBit e 3 = true ∧ pteTyp e = 0 ∧ pass = true) ∧
      (permReason e lvl kLOAD = 0 ↔ pteBit e 1 = true ∧ (pteTyp e = 0 ∨ (lvl ≠ 0 ∧ (pteTyp e = 1 ∨ pteTyp e = 2)) ∨ (lvl = 2 ∧ pteTyp e = 3)) ∧ pass = true) ∧
      ((i = kSTORE ∨ i = kCARD) → (permReason e lvl i = 0 ↔ pteBit e 2 = true ∧ (pteTyp e = 0 ∨ (lvl ≠ 0 ∧ pteTyp e = 1) ∨ (lvl = 2 ∧ pteTyp e = 3)) ∧ pass = true)) ∧
      (permReason e lvl kPUSH = 0 ↔ pteTyp e = 2) ∧ (permReason e lvl kPOP = 0 ↔ pteBit e 1 = true ∧ pteTyp e = 2) ∧
      ((i = kLOAD ∨ i = kPOP) → pteBit e 1 = false → permReason e lvl i = aREAD) ∧ ((i = kSTORE ∨ i = kCARD) → pteBit e 2 = false → permReason e lvl i = aWRITE) ∧
      (pteBit e 3 = false → permReason e lvl kFETCH = aNOEXEC) ∧
      (pteTyp e ≠ 0 → pteBit e 3 = true → permReason e lvl kFETCH = aPAGETYPE) ∧ (pteTyp e = 3 → lvl ≠ 2 → pteBit e 1 = true → permReason e lvl kLOAD = aPAGETYPE) ∧
      (pteTyp e = 2 → pteBit e 2 = true → permReason e lvl kSTORE = aPAGETYPE) ∧ (pteTyp e ≠ 2 → permReason e lvl kPUSH = aPAGETYPE) ∧
      (pteTyp e = 0 → pass = false → pteBit e 1 = true → permReason e lvl kLOAD = aUSER) ∧ (pteTyp e = 0 → pass = false → pteBit e 2 = true → permReason e lvl kSTORE = aUSER) ∧ (pteTyp e = 0 → pass = false → pteBit e 3 = true → permReason e lvl kFETCH = aUSER))

/-- R176, R181, R205, R283 to R287 for one slot whose translation t succeeded: a load delivers the slot's word after the checks of its tag and destination; where the read barrier hits, it delivers the forwarded pointer and heals the slot, or traps with TYPE at the slot; a store marks the card of its destination first where R284 says so, and then writes its word; a word of
DRAM is read and written in memory alone. A trap of a part is the instruction's trap, nothing of the access performed. -/
def Obligations.SlotAccess : Prop :=
  ∀ (s s1 s2 s3 s4 : State) (c rd va width a b : Nat) (x y : Xl) (w v new : TWord) (t : Trap) (k : Core) (card : List (Xl × TWord)),
    (xlate s c va kLOAD = .trap s1 t → loadSlot s c rd va width = .trap s1 t) ∧
    (xlate s c va kLOAD = .ok s1 x → rdAt s1 c x width = .trap s2 t → loadSlot s c rd va width = .trap s2 t) ∧
    (xlate s c va kLOAD = .ok s1 x → rdAt s1 c x width = .ok s2 w → k = getCore s2 c →
      (w.tag ∉ allTags → loadSlot s c rd va width = .trap s2 (tagTrap rRESERVED)) ∧
      (k.level = 0 → w.tag ∈ [tFORWARD, tHEADER, tCTXREF, tSAVELINK, tRAW] → loadSlot s c rd va width = .trap s2 (tagTrap rPRIV)) ∧
      (w.tag ∈ allTags → ¬ (k.level = 0 ∧ w.tag ∈ [tFORWARD, tHEADER, tCTXREF, tSAVELINK, tRAW]) →
        (k.level = 0 → rd = 30 → w.tag ≠ tSTACKPTR → loadSlot s c rd va width = .trap s2 (tagTrap rTYPE)) ∧
        (¬ (k.level = 0 ∧ rd = 30 ∧ w.tag ≠ tSTACKPTR) →
          ((k.level = 2 ∨ w.tag ∉ heapTags ∨ condemned k w.val.toNat = false) → loadSlot s c rd va width = .ok s2 w) ∧
          (k.level ≠ 2 → w.tag ∈ heapTags → condemned k w.val.toNat = true →
            (ptrOk w.val = false → loadSlot s c rd va width = .trap s2 ⟨cTAGTRAP, rBADPTR, w.val.toNat % 2 ^ 48, kLOAD, false⟩) ∧
            (ptrOk w.val = true → ldWord s2 c w.val.toNat kLOAD 64 = .trap s3 t → loadSlot s c rd va width = .trap s3 t) ∧
            (ptrOk w.val = true → ldWord s2 c w.val.toNat kLOAD 64 = .ok s3 (y, v) →
              ((v.tag ≠ tFORWARD ∨ condemned k v.val.toNat = true) → loadSlot s c rd va width = .trap s3 ⟨cTAGTRAP, rTYPE, x.va, kLOAD, false⟩) ∧
              (v.tag = tFORWARD → condemned k v.val.toNat = false → new = ⟨w.tag, v.val⟩ →
                (heal s3 c x w new = .ok s4 () → loadSlot s c rd va width = .ok s4 new) ∧ (heal s3 c x w new = .trap s4 t → loadSlot s c rd va width = .trap s4 t))))))) ∧
    ((x.typ ≠ 0 ∨ x.w = false) → heal s c x w new = .ok s ()) ∧
    (x.typ = 0 → x.w = true →
      (xlate s c x.va kSTORE = .trap s1 t → heal s c x w new = .trap s1 t) ∧ (xlate s c x.va kSTORE = .ok s1 y → mem s1 y.pa ≠ w → heal s c x w new = .ok s1 ()) ∧
      (xlate s c x.va kSTORE = .ok s1 y → mem s1 y.pa = w → cardOf s1 c y new = .ok s2 card → wrAll s2 c card = .ok s3 () → heal s c x w new = wrAt s3 c y new 64)) ∧
    (condemned k a = true ↔ ∃ n < 4, ((k.condemn[2 * n]?).getD wZero).val.toNat ≤ a ∧ a < ((k.condemn[2 * n + 1]?).getD wZero).val.toNat) ∧
    (xlate s c va kSTORE = .trap s1 t → stWord s c va w width = .trap s1 t) ∧
    (xlate s c va kSTORE = .ok s1 x → k = getCore s1 c →
      ((k.level = 2 ∨ w.tag ∉ heapTags ∨ k.cardbase.tag = tNIL ∨ (∃ p, lookup k.tlb (asidOf k) w.val.toNat = some p ∧ x.gen ≤ pteGen p.2)) → stWord s c va w width = wrAt s1 c x w width) ∧
      (k.level ≠ 2 → w.tag ∈ heapTags → k.cardbase.tag ≠ tNIL → (∀ p, lookup k.tlb (asidOf k) w.val.toNat = some p → pteGen p.2 < x.gen) → a = k.cardbase.val.toNat + x.va / 512 →
        (2 ^ 48 ≤ a → stWord s c va w width = .trap s1 ⟨cTAGTRAP, rBADPTR, 0, kCARD, false⟩) ∧
        (a < 2 ^ 48 → b = a - a % 8 →
          (ldCard s1 c b = .trap s2 t → stWord s c va w width = .trap s2 t) ∧
          (ldCard s1 c b = .ok s2 (y, v) → v.tag ≠ tRAW → stWord s c va w width = .trap s2 ⟨cTAGTRAP, rTYPE, a, kCARD, false⟩) ∧
          (ldCard s1 c b = .ok s2 (y, v) → v.tag = tRAW → wrAll s2 c [(y, ⟨tRAW, setByte v.val (a % 8) 1⟩)] = .ok s3 () → stWord s c va w width = wrAt s3 c x w width)))) ∧
    (x.tgt = .dram → rdAt s c x width = .ok s (mem s x.pa) ∧ wrAt s c x w width = .ok (putMem s x.pa w) () ∧ wrAll s c [(x, w)] = .ok (putMem s x.pa w) ())

/-- R203, R204, R210, R243, R255, R300: a register write reads back, sets the DIRTY bit of its group and leaves every other register, STATUS bit, core and part of the device; a retirement sets the pc, raises UICNT at U alone, counts the instructions of EG and ends it with the sixteenth, and changes nothing else; a memory write reads back at its word, leaves
every other word, keeps the canonical form of memory, and changes nothing else. These are the frames of `Delivers`, `Retires` and `putMem`, in which the instruction statements end. -/
def Obligations.RegistersAndRetirement : Prop :=
  ∀ (s t : State) (c d w r lvl pc a b i : Nat) (v : TWord) (k k' : Core),
    k = getCore s c →
    (t = putReg s c w v → k' = getCore t c →
      (w < k.regs.length → reg t c w = v) ∧ (r ≠ w → reg t c r = reg s c r) ∧ (d ≠ c → getCore t d = getCore s d) ∧ k'.regs.length = k.regs.length ∧
      k'.status.testBit i = (i == 8 + w / 8 || k.status.testBit i) ∧ { k' with regs := k.regs, status := k.status } = k ∧ { t with cpu.cores := s.cpu.cores } = s) ∧
    (t = retire s c lvl pc → k' = getCore t c →
      k'.pc = pc % 2 ^ 48 ∧ k'.lastRet = s.tim.ticks ∧ (lvl = 0 → k'.uicnt = ⟨k.uicnt.tag, k.uicnt.val + 1⟩) ∧ (lvl ≠ 0 → k'.uicnt = k.uicnt) ∧
      (k.eg = false → k'.egCount = 0 ∧ k'.status = k.status) ∧ (k.eg = true → k.egCount < 15 → k'.egCount = k.egCount + 1 ∧ k'.status = k.status) ∧
      (k.eg = true → 15 ≤ k.egCount → k'.egCount = 0 ∧ k'.eg = false ∧ (i ≠ 7 → k'.status.testBit i = k.status.testBit i)) ∧
      { k' with pc := k.pc, lastRet := k.lastRet, uicnt := k.uicnt, egCount := k.egCount, status := k.status } = k ∧ (d ≠ c → getCore t d = getCore s d) ∧ { t with cpu.cores := s.cpu.cores } = s) ∧
    (t = putMem s a v → (b / 8 = a / 8 → mem t b = v) ∧ (b / 8 ≠ a / 8 → mem t b = mem s b) ∧ (MemInv s → MemInv t) ∧ { t with cpu.mem := s.cpu.mem } = s)

/-- R554, R562, R566, R569, R570, R573, Table 22.3 for a line l of any console command, sp being what its row requires and act its action: a console that is busy or a device that is held reads nothing; before the end of S5 only STATE and ATTEST, and in ROM recovery LOAD IMAGE with its parts, are served, without a CJN; afterwards the line takes the
next CJN, and the first check that fails, of tag, arguments, mode, console and authority in this order (log 24 DEDUCED), forms its reply with nothing else done. A mode is refused also to what runs after S9 and, while DRAIN is 1, to what requires QUIET. -/
def Obligations.RefusedLines : Prop :=
  ∀ (s e u : State) (l : ConLine) (sp : CmdSpec) (act : Nat → State → ActRes) (n a : Nat) (m : DMode) (o : Cmd) (vals : List Int),
    n = s.con.nextCjn → u = begun l sp.keepChal s →
    e = bumpWrap (updCon s l.con (fun k => { k with lastLine := s.tim.ticks, chal := if sp.keepChal then k.chal else none })) bCON (0x100 + 0x20 * l.con + 0x08) 0 32 1 →
    ((l.con ≥ 2 ∨ s.pwr.held = true ∨ conBusy s l.con = true ∨ (s.jrn.dWritable = false ∧ 65536 ≤ s.con.retained.length)) → runCmd l sp act s = s) ∧
    (readsLine s l.con = true → s.sec.s5done = false →
      e.con.nextCjn = n ∧ (sp.early = false → (sp.rom = false ∨ s.sec.recovery = false) → runCmd l sp act s = sendReply e l.con 0 (reply eNOT_READY [] [])) ∧
      ((sp.early = true ∨ (sp.rom = true ∧ s.sec.recovery = true)) → sp.argsOk = false → runCmd l sp act s = sendReply e l.con 0 (reply eARGS [] []))) ∧
    (u.con.nextCjn = n + 1 ∧ u.con.cmds.length = s.con.cmds.length + 1) ∧
    (readsLine s l.con = true → s.sec.s5done = true →
      (l.tag ≠ [] → findTag u l = none → 262144 ≤ tagCount u l.con → runCmd l sp act s = formReply u n (reply eTAGCACHE_FULL [] [])) ∧
      (l.tag ≠ [] → findTag u l = some o → normText o.line ≠ normText l.text → runCmd l sp act s = formReply u n (reply eTAG_CONFLICT [] [])) ∧
      (l.tag ≠ [] → findTag u l = some o → normText o.line = normText l.text → (getCon u l.con).auth.code < o.auth.code → runCmd l sp act s = formReply u n (reply eAUTHORITY [] [])) ∧
      (l.tag ≠ [] → findTag u l = some o → normText o.line = normText l.text → o.auth.code ≤ (getCon u l.con).auth.code →
        runCmd l sp act s = formReply (bumpWrap { u with con.cmds := u.con.cmds.map (fun k => if k.cjn = n then { k with dup := true } else k) } bCON (0x100 + 0x20 * l.con + 0x10) 0 32 1) n (dupReply o n)) ∧
      ((l.tag = [] ∨ (findTag u l = none ∧ tagCount u l.con < 262144)) →
        (sp.argsOk = false → runCmd l sp act s = formReply u n (reply eARGS [] [])) ∧
        (sp.argsOk = true → stage7 u l sp = some (a, vals) → runCmd l sp act s = formReply u n (reply a vals [])))) ∧
    (u.mode = none → stage7 u l sp = some (eMODE, [0])) ∧
    (u.mode = some m →
      ((m ∉ sp.modes ∨ (m = .sealed ∧ sp.afterS9 = true ∧ u.sec.done = false) ∨ (m = .quiet ∧ u.sys.drain = true ∧ .live ∉ sp.modes)) → stage7 u l sp = some (eMODE, [(m.code : Int)])) ∧
      (m ∈ sp.modes → ¬ (m = .sealed ∧ sp.afterS9 = true ∧ u.sec.done = false) → ¬ (m = .quiet ∧ u.sys.drain = true ∧ .live ∉ sp.modes) →
        (l.con ∉ sp.cons → stage7 u l sp = some (eCONSOLE, [])) ∧ (l.con ∈ sp.cons → (getCon u l.con).auth.code < sp.auth.code → stage7 u l sp = some (eAUTHORITY, [])) ∧
        (l.con ∈ sp.cons → sp.auth.code ≤ (getCon u l.con).auth.code → stage7 u l sp = none)))

/-- A step takes the command at the front of the queue and runs it with the queue's rest; with no command waiting one PCLK cycle, two TCLK ticks, passes and the queue stays empty. The queue is the
model's own, as is the pace of an idle step (log 1 DESIGN CHOICE, log 2 DESIGN CHOICE, log 3 DESIGN CHOICE); that a PCLK cycle is two TCLK ticks is R132. -/
def Obligations.StepRunsFront : Prop :=
  ∀ (s : State),
    (∀ c rest, s.pending = c :: rest → step s = exec c { s with pending := rest }) ∧
    (s.pending = [] → ∃ t, step s = .next t ∧ t = { advance s 2 with sys.cycle := (advance s 2).sys.cycle + 1 } ∧ t.tim.ticks = s.tim.ticks + 2 ∧ t.pending = [])

/-- No command, on no operands and in no state, ends in a fault or a refusal: what the specification turns away is turned away by a reply, an error value, a drop or an exception, each a next state; and
nothing that a command does changes the queue, so that the commands that wait run first in, first out. The queue is the model's own (log 2 DESIGN CHOICE). -/
def Obligations.EveryCommandAnswers : Prop :=
  (∀ (i : Instr) (s : State), ∃ t, exec i s = .next t ∧ t.pending = s.pending) ∧
  ∀ (s : State), SafeStep s ∧ ∃ t, step s = .next t ∧ t.pending = s.pending.drop 1

/-- R109, R111, R112: whatever command a step runs, a programmed hash, a revoked slot and a written role stay as they are, and the rollback counter does not fall; the same of a run of any number of steps. -/
def Obligations.OneTimeStorage : Prop :=
  (∀ (s t : State), step s = .next t → OtpLe s.sec.otp t.sec.otp) ∧
  ∀ (n : Nat) (run : Nat → State), (∀ k < n, step (run k) = .next (run (k + 1))) → ∀ i j, i ≤ j → j ≤ n → OtpLe (run i).sec.otp (run j).sec.otp

/-- R61, R103, R109, R163, R272, R286, R321, R374, R511, R557, R578 and the register tables: the device is in SEALED with role NONE and RSTCAUSE POR, in step S0 with S9 not done and no one-time value written; both consoles are at
OBSERVE with an empty staging buffer; every book is DORMANT with P_b 0 and margin 0; every core is at M with the replacement pointer at 8, no condemned range and an empty TLB; WAITLIM is 65,536, the AWP port 4864, the TTL 3 and SYS.EVTCFG 3; U is saturated; no guard is open and no command waits, and
memory is in its canonical form. That a core's other registers are RAW 0 and that the firmware window's base holds the first word run is the model's own (log 6 DESIGN CHOICE). -/
def Obligations.ResetState : Prop :=
  let s := State.reset
  s.mode = some .sealed ∧ s.role = .none ∧ s.sec.rstCause = 1 ∧ s.sec.step = 0 ∧ s.sec.done = false ∧ s.sec.otp = otpBlank ∧ s.sec.slots = [none, none] ∧
  (∀ c < 2, (getCon s c).auth = .observe ∧ (getCon s c).chal = none ∧ (getCon s c).stage.st = .empty) ∧
  (∀ t b, (getBook s t b).sales = .dormant ∧ (getBook s t b).pb = 0 ∧ (getBook s t b).margin = 0) ∧
  (∀ c, lvlOf s c = 2 ∧ (getCore s c).repl = 8 ∧ (getCore s c).tlb = [] ∧ (getCore s c).condemn = List.replicate 8 wZero ∧ (getCore s c).outstanding = 0) ∧
  fget s bUCD 0x30 0 19 = 65536 ∧ fget s bAWP 0x10 0 16 = 4864 ∧ fget s bWIT 0x18 24 3 = 3 ∧ fget s bSYS 0x80 0 32 = 3 ∧
  s.tim.u = 0xFFFFFFFF ∧ s.sys.guards = [] ∧ s.con.nextCjn = 1 ∧ s.awp.sessions = [] ∧ s.pending = [] ∧ MemInv s
end

