-- ==== Sys2Proof/Laws/Bits.lean ====
section
/-! SUPPORT. Bit fields of numbers: what a field written with setBits reads as, and that the other bits are unchanged; sparse tables and
lists after an update. -/
namespace Sys2Proof.Machine

open Sys2Proof

/-! ### Fields -/

/-- A number with a field replaced, as a sum of its three parts. -/
theorem setBits_eq (x lo w v : Nat) :
    setBits x lo w v = 2 ^ lo * (2 ^ w * (x / 2 ^ lo / 2 ^ w) + v % 2 ^ w) + x % 2 ^ lo := by
  unfold setBits bits
  rw [Nat.shiftRight_eq_div_pow]
  have hp : 0 < 2 ^ lo := Nat.two_pow_pos lo
  have h1 : (x : Int) = 2 ^ lo * (x / 2 ^ lo : Nat) + (x % 2 ^ lo : Nat) := by exact_mod_cast (Nat.div_add_mod x (2 ^ lo)).symm
  have h2 : ((x / 2 ^ lo : Nat) : Int) = 2 ^ w * (x / 2 ^ lo / 2 ^ w : Nat) + (x / 2 ^ lo % 2 ^ w : Nat) := by
    exact_mod_cast (Nat.div_add_mod (x / 2 ^ lo) (2 ^ w)).symm
  have h3 : x / 2 ^ lo % 2 ^ w * 2 ^ lo ≤ x :=
    le_trans (Nat.mul_le_mul_right _ (Nat.mod_le _ _)) (Nat.div_mul_le_self _ _)
  zify [h3]
  push_cast at h1 h2 ⊢
  linear_combination h1 + 2 ^ lo * h2

theorem testBit_setBits (x lo w v i : Nat) :
    (setBits x lo w v).testBit i = if lo ≤ i ∧ i < lo + w then v.testBit (i - lo) else x.testBit i := by
  rw [setBits_eq, Nat.testBit_two_pow_mul_add _ (Nat.mod_lt _ (Nat.two_pow_pos lo))]
  by_cases h1 : i < lo
  · simp [h1, Nat.not_le.mpr h1, Nat.testBit_mod_two_pow]
  · rw [if_neg h1, Nat.testBit_two_pow_mul_add _ (Nat.mod_lt _ (Nat.two_pow_pos w))]
    by_cases h2 : i - lo < w
    · rw [if_pos h2, if_pos ⟨by omega, by omega⟩]; simp [Nat.testBit_mod_two_pow, h2]
    · rw [if_neg h2, if_neg (by omega)]
      simp only [Nat.testBit_div_two_pow]
      congr 1; omega

theorem testBit_bits (x lo w i : Nat) : (bits x lo w).testBit i = (decide (i < w) && x.testBit (lo + i)) := by
  unfold bits; rw [Nat.testBit_mod_two_pow, Nat.testBit_shiftRight]

/-- A field reads as it was written. -/
theorem bits_setBits (x lo w v : Nat) : bits (setBits x lo w v) lo w = v % 2 ^ w := by
  apply Nat.eq_of_testBit_eq; intro i
  rw [testBit_bits, testBit_setBits, Nat.testBit_mod_two_pow]
  by_cases h : i < w
  · rw [if_pos ⟨by omega, by omega⟩]; simp [h]
  · simp [h]

/-- A field is unchanged by writing another that does not overlap it. -/
theorem bits_setBits_of_disjoint {x lo w v lo' w' : Nat} (h : lo' + w' ≤ lo ∨ lo + w ≤ lo') :
    bits (setBits x lo w v) lo' w' = bits x lo' w' := by
  apply Nat.eq_of_testBit_eq; intro i
  rw [testBit_bits, testBit_bits, testBit_setBits]
  by_cases hi : i < w'
  · rw [if_neg (by omega)]
  · simp [hi]

theorem bit_eq_testBit (x i : Nat) : bit x i = x.testBit i := by
  unfold bit; rw [Nat.testBit_eq_decide_div_mod_eq, Nat.shiftRight_eq_div_pow]; rfl

/-! ### Sparse tables -/

@[simp] theorem lk_ins_self {α : Type} (m : Map α) (i : Nat) (a : α) : lk (ins m i a) i = some a := by
  induction m with
  | nil => simp [ins, lk]
  | cons p m ih =>
    obtain ⟨k, v⟩ := p
    unfold ins
    split
    · simp [lk]
    · split
      · simp [lk]
      · rename_i h1 h2; simp [lk, Ne.symm h2, ih]

theorem lk_ins_of_ne {α : Type} (m : Map α) {i j : Nat} (a : α) (h : j ≠ i) : lk (ins m i a) j = lk m j := by
  induction m with
  | nil => simp [ins, lk, Ne.symm h]
  | cons p m ih =>
    obtain ⟨k, v⟩ := p
    unfold ins
    split
    · simp [lk, Ne.symm h]
    · split
      · rename_i h1 h2; subst h2; simp [lk, Ne.symm h]
      · simp [lk, ih]

@[simp] theorem lk_del_self {α : Type} (m : Map α) (i : Nat) : lk (del m i) i = none := by
  induction m with
  | nil => rfl
  | cons p m ih =>
    obtain ⟨k, v⟩ := p
    unfold del
    split
    · exact ih
    · rename_i h; simp [lk, h, ih]

theorem lk_del_of_ne {α : Type} (m : Map α) {i j : Nat} (h : j ≠ i) : lk (del m i) j = lk m j := by
  induction m with
  | nil => rfl
  | cons p m ih =>
    obtain ⟨k, v⟩ := p
    unfold del
    split
    · rename_i h2; subst h2; simp [lk, Ne.symm h, ih]
    · simp [lk, ih]

theorem upd_get {α : Type} (l : List α) (i : Nat) (f : α → α) (j : Nat) :
    (upd l i f)[j]? = if j = i then (l[j]?).map f else l[j]? := by
  unfold upd
  rw [List.getElem?_mapIdx]
  by_cases h : j = i
  · simp [h]
  · simp [h]

@[simp] theorem upd_length {α : Type} (l : List α) (i : Nat) (f : α → α) : (upd l i f).length = l.length := by simp [upd]

end Sys2Proof.Machine
end

