-- ==== Sys2Proof/Laws/Console.lean ====
section
/-! SUPPORT. How a console line that nothing refuses runs its action. -/
namespace Sys2Proof.Machine

open Sys2Proof

theorem runCmd_late {l : ConLine} {sp : CmdSpec} {act : Nat → State → ActRes} {s : State} (h : Admits l sp s) :
    runCmd l sp act s = lateCmd l sp act s.con.nextCjn (begun l sp.keepChal s) := by
  obtain ⟨h1, h2, _, h4, _⟩ := h
  unfold runCmd
  rw [h1, h2]
  simp only [Bool.true_eq_false, if_false]
  by_cases ht : l.tag = []
  · rw [ht]; rfl
  · obtain ⟨h5, h6⟩ := h4.resolve_left ht
    rw [if_neg (by simpa using ht)]
    unfold tagged
    rw [show (takeCjn _ l).2 = begun l sp.keepChal s from rfl, h5]
    simp only [Nat.not_le.mpr h6, if_false]
    rfl

theorem runCmd_formed {l : ConLine} {sp : CmdSpec} {act : Nat → State → ActRes} {s u : State} {r : ConReply} (h : Admits l sp s)
    (ha : act s.con.nextCjn (begun l sp.keepChal s) = ⟨u, r, .formed⟩) : runCmd l sp act s = formReply u s.con.nextCjn r := by
  rw [runCmd_late h]
  unfold lateCmd
  rw [h.2.2.1, h.2.2.2.2]
  simp only [Bool.true_eq_false, if_false, ha, if_true]

theorem runCmd_waits {l : ConLine} {sp : CmdSpec} {act : Nat → State → ActRes} {s u : State} {r : ConReply} {p : Phase} (h : Admits l sp s)
    (ha : act s.con.nextCjn (begun l sp.keepChal s) = ⟨u, r, p⟩) (hp : p ≠ .formed) :
    runCmd l sp act s = { u with con.cmds := u.con.cmds.map (fun k => if k.cjn = s.con.nextCjn then { k with phase := p, reply := r } else k) } := by
  rw [runCmd_late h]
  unfold lateCmd
  rw [h.2.2.1, h.2.2.2.2]
  simp only [Bool.true_eq_false, if_false, ha, hp]

theorem consume1_no {l : ConLine} {f : List Byte → ActRes} {s : State} (h : (stageOf s l.con).st ≠ .closed) : consume1 l f s = err s eNOSTAGE [] := by
  unfold consume1; exact if_pos h

theorem consume1_ok {l : ConLine} {f : List Byte → ActRes} {s v : State} {r : ConReply} {p : Phase} (h : (stageOf s l.con).st = .closed)
    (e : f (stagedBytes (stageOf s l.con)) = ⟨v, r, p⟩) (c : r.code = 0) : consume1 l f s = ⟨unstaged v l.con, r, p⟩ := by
  unfold consume1; dsimp only; rw [if_neg (by simp [h]), e]; exact if_pos c

theorem consume1_err {l : ConLine} {f : List Byte → ActRes} {s v : State} {r : ConReply} {p : Phase} (h : (stageOf s l.con).st = .closed)
    (e : f (stagedBytes (stageOf s l.con)) = ⟨v, r, p⟩) (c : r.code ≠ 0) : consume1 l f s = ⟨v, r, p⟩ := by
  unfold consume1; dsimp only; rw [if_neg (by simp [h]), e]; exact if_neg c

end Sys2Proof.Machine
end

