-- ==== Sys2Proof/Laws/Insn.lean ====
section
/-! SUPPORT. How an instruction row runs: the encodings of Table 8.2 are defined ones, and the three ways a body ends. -/
namespace Sys2Proof.Machine

open Sys2Proof

/-! ### Encodings -/

theorem definedOp_encR (op func : Nat) (f : RF) (h0 : op ≠ 0x38) (h : func < funcCount op) (h64 : func < 64) :
    definedOp (encR op f func) = true := by
  have h1 : encR op f func / 2 ^ 26 = op := by unfold encR; omega
  have h2 : encR op f func % 64 = func := by unfold encR; omega
  have h3 : funcCount op ≠ 0 := by omega
  simp only [definedOp, h1, h2]; rw [if_neg h0, if_pos h3]; simpa using h

theorem definedOp_encI (op : Nat) (f : IF) (h0 : op ≠ 0x38) (h1 : funcCount op = 0)
    (h : (2 ≤ op ∧ op ≤ 0x0B) ∨ (0x10 ≤ op ∧ op ≤ 0x16) ∨ (0x20 ≤ op ∧ op ≤ 0x29) ∨ (0x31 ≤ op ∧ op ≤ 0x33)) :
    definedOp (encI op f) = true := by
  have h2 : encI op f / 2 ^ 26 = op := by unfold encI; omega
  simp only [definedOp, h2, h0, h1]; simpa using h

theorem definedOp_encB (op : Nat) (f : BF) (h0 : op ≠ 0x38) (h1 : funcCount op = 0)
    (h : (2 ≤ op ∧ op ≤ 0x0B) ∨ (0x10 ≤ op ∧ op ≤ 0x16) ∨ (0x20 ≤ op ∧ op ≤ 0x29) ∨ (0x31 ≤ op ∧ op ≤ 0x33)) :
    definedOp (encB op f) = true := by
  have h2 : encB op f / 2 ^ 26 = op := by unfold encB; omega
  simp only [definedOp, h2, h0, h1]; simpa using h

theorem definedOp_encJ (op : Nat) (off : BitVec 26) (h0 : op ≠ 0x38) (h1 : funcCount op = 0)
    (h : (2 ≤ op ∧ op ≤ 0x0B) ∨ (0x10 ≤ op ∧ op ≤ 0x16) ∨ (0x20 ≤ op ∧ op ≤ 0x29) ∨ (0x31 ≤ op ∧ op ≤ 0x33)) :
    definedOp (encJ op off) = true := by
  have h2 : encJ op off / 2 ^ 26 = op := by unfold encJ; omega
  simp only [definedOp, h2, h0, h1]; simpa using h

theorem definedOp_encC (f : CF) (unit op : Nat) (hu : unit < 4) (ho : op < 512) (h : (copOps unit).contains op = true) :
    definedOp (encC f unit op) = true := by
  have h1 : encC f unit op / 2 ^ 26 = 0x38 := by unfold encC; omega
  have h2 : encC f unit op / 2 ^ 9 % 4 = unit := by unfold encC; omega
  have h3 : encC f unit op % 512 = op := by unfold encC; omega
  simp only [definedOp, h1, bits, Nat.shiftRight_eq_div_pow]
  simp only [show (2:Nat)^2 = 4 from rfl, h2, show encC f unit op / 2 ^ 0 % 2 ^ 9 = op by simpa using h3]
  simpa using h

/-! ### Accesses that succeed or trap, inside a body -/

theorem Acs.fin_of {α : Type} {x : Acs α} {s : State} {v : α} {f : State → α → IRes} (h : x = .ok s v) : x.fin f = f s v := by
  subst h; rfl

theorem Acs.fin_trap {α : Type} {x : Acs α} {s : State} {t : Trap} {f : State → α → IRes} (h : x = .trap s t) : x.fin f = .trap s t := by
  subst h; rfl

theorem Acs.bind_of {α β : Type} {x : Acs α} {s : State} {v : α} {f : State → α → Acs β} (h : x = .ok s v) : x.bind f = f s v := by
  subst h; rfl

theorem Acs.bind_trap {α β : Type} {x : Acs α} {s : State} {t : Trap} {f : State → α → Acs β} (h : x = .trap s t) :
    x.bind f = .trap s t := by
  subst h; rfl

/-! ### Endings -/

variable {s t u : State} {c enc : Nat} {body : State → IRes}

theorem runInsn_end (h : AtInsn s t c enc) (hd : definedOp enc = true) :
    runInsn c enc body s = .next (endInsn t c (body t)) := by
  obtain ⟨h1, h2⟩ := h
  simp [runInsn, h1, h2, hd]

theorem runInsn_done (h : AtInsn s t c enc) (hd : definedOp enc = true) (hb : body t = .done u) :
    runInsn c enc body s = .next (retired u t c) := by
  rw [runInsn_end h hd, hb]; rfl

theorem runInsn_goto {a : Nat} (h : AtInsn s t c enc) (hd : definedOp enc = true) (hb : body t = .goto u a) :
    runInsn c enc body s = .next (jumped u t c a) := by
  rw [runInsn_end h hd, hb]; rfl

theorem runInsn_stay (h : AtInsn s t c enc) (hd : definedOp enc = true) (hb : body t = .stay u) :
    runInsn c enc body s = .next u := by
  rw [runInsn_end h hd, hb]; rfl

theorem runInsn_trap {x : Trap} (h : AtInsn s t c enc) (hd : definedOp enc = true) (hb : body t = .trap u x) :
    runInsn c enc body s = .next (trapCore u c x) := by
  rw [runInsn_end h hd, hb]; rfl

end Sys2Proof.Machine
end

