-- ==== Sys2Proof/Laws/Core.lean ====
section
/-! SUPPORT. Cores and registers: what writing a core, a register or a word of memory leaves, and what retiring an instruction changes. -/
namespace Sys2Proof.Machine

open Sys2Proof

@[simp] theorem getCore_setCore_self (s : State) (c : Nat) (k : Core) : getCore (setCore s c k) c = k := by
  simp [getCore, setCore, lkD]

theorem getCore_setCore_of_ne (s : State) {c d : Nat} (k : Core) (h : d ≠ c) : getCore (setCore s c k) d = getCore s d := by
  simp [getCore, setCore, lkD, lk_ins_of_ne _ _ h]

@[simp] theorem getCore_updCore_self (s : State) (c : Nat) (f : Core → Core) : getCore (updCore s c f) c = f (getCore s c) := by
  simp [updCore]

theorem getCore_updCore_of_ne (s : State) {c d : Nat} (f : Core → Core) (h : d ≠ c) : getCore (updCore s c f) d = getCore s d :=
  getCore_setCore_of_ne s _ h

/-- Register w reads as written where the core has it. -/
theorem reg_putReg_self (s : State) (c w : Nat) (v : TWord) (h : w < (getCore s c).regs.length) : reg (putReg s c w v) c w = v := by
  unfold reg putReg
  rw [getCore_updCore_self]
  simp only [upd_get, if_true]
  simp [List.getElem?_eq_getElem h]

theorem reg_putReg_of_ne (s : State) (c : Nat) {w r : Nat} (v : TWord) (h : r ≠ w) : reg (putReg s c w v) c r = reg s c r := by
  unfold reg putReg
  rw [getCore_updCore_self]
  simp [upd_get, h]

theorem reg_putReg_of_core (s : State) {c d : Nat} (w r : Nat) (v : TWord) (h : d ≠ c) : reg (putReg s c w v) d r = reg s d r := by
  unfold reg putReg
  rw [getCore_updCore_of_ne _ _ h]

/-! ### Memory -/

theorem memGet_memPut_self (m : Map TWord) (a : Nat) (w : TWord) : memGet (memPut m a w) a = w := by
  unfold memGet memPut lkD
  split
  · rename_i h; simp [h]
  · simp

theorem memGet_memPut_of_ne (m : Map TWord) {a b : Nat} (w : TWord) (h : b / 8 ≠ a / 8) : memGet (memPut m a w) b = memGet m b := by
  unfold memGet memPut lkD
  split
  · rw [lk_del_of_ne _ h]
  · rw [lk_ins_of_ne _ _ h]

/-- A word of memory reads as it was written (a word is eight bytes at an aligned address). -/
theorem mem_putMem_self (s : State) (a : Nat) (w : TWord) : mem (putMem s a w) a = w := memGet_memPut_self _ _ _

/-- A write of a word leaves every other word as it was. -/
theorem mem_putMem_of_ne (s : State) {a b : Nat} (w : TWord) (h : b / 8 ≠ a / 8) : mem (putMem s a w) b = mem s b :=
  memGet_memPut_of_ne _ _ h

theorem del_keys_subset {m : Map TWord} {i : Nat} : ∀ k ∈ (del m i).map (·.1), k ∈ m.map (·.1) := by
  induction m with
  | nil => simp [del]
  | cons p m ih =>
    obtain ⟨k, v⟩ := p
    unfold del; split
    · intro x hx; exact List.mem_cons_of_mem _ (ih x hx)
    · intro x hx
      rcases List.mem_cons.mp hx with h | h
      · exact List.mem_cons.mpr (.inl h)
      · exact List.mem_cons.mpr (.inr (ih x h))

theorem del_mem_subset {m : Map TWord} {i : Nat} {p : Nat × TWord} (h : p ∈ del m i) : p ∈ m := by
  induction m with
  | nil => simp [del] at h
  | cons q m ih =>
    obtain ⟨k, v⟩ := q
    unfold del at h; split at h
    · exact List.mem_cons_of_mem _ (ih h)
    · rcases List.mem_cons.mp h with h | h
      · exact List.mem_cons.mpr (.inl h)
      · exact List.mem_cons_of_mem _ (ih h)

theorem ins_mem {m : Map TWord} {i : Nat} {a : TWord} {p : Nat × TWord} (h : p ∈ ins m i a) : p = (i, a) ∨ p ∈ m := by
  induction m with
  | nil => simp [ins] at h; exact .inl h
  | cons q m ih =>
    obtain ⟨k, v⟩ := q
    unfold ins at h; split at h
    · rcases List.mem_cons.mp h with h | h
      · exact .inl h
      · exact .inr h
    · split at h
      · rcases List.mem_cons.mp h with h | h
        · exact .inl h
        · exact .inr (List.mem_cons_of_mem _ h)
      · rcases List.mem_cons.mp h with h | h
        · exact .inr (List.mem_cons.mpr (.inl h))
        · rcases ih h with h | h
          · exact .inl h
          · exact .inr (List.mem_cons_of_mem _ h)

theorem wf_iff (m : Map TWord) : Memory.wf m = true ↔ (m.map (·.1)).Pairwise (· < ·) ∧ ∀ p ∈ m, p.2 ≠ wZero := by
  simp [Memory.wf, List.all_eq_true]

theorem del_pairwise {m : Map TWord} {i : Nat} (h : (m.map (·.1)).Pairwise (· < ·)) : ((del m i).map (·.1)).Pairwise (· < ·) := by
  induction m with
  | nil => simp [del]
  | cons p m ih =>
    obtain ⟨k, v⟩ := p
    simp only [List.map_cons, List.pairwise_cons] at h
    unfold del; split
    · exact ih h.2
    · simp only [List.map_cons, List.pairwise_cons]
      exact ⟨fun x hx => h.1 x (del_keys_subset x hx), ih h.2⟩

theorem ins_pairwise {m : Map TWord} {i : Nat} {a : TWord} (h : (m.map (·.1)).Pairwise (· < ·)) :
    ((ins m i a).map (·.1)).Pairwise (· < ·) := by
  induction m with
  | nil => simp [ins]
  | cons p m ih =>
    obtain ⟨k, v⟩ := p
    simp only [List.map_cons, List.pairwise_cons] at h
    unfold ins; split
    · rename_i h1
      simp only [List.map_cons, List.pairwise_cons]
      refine ⟨?_, h.1, h.2⟩
      intro x hx
      rcases List.mem_cons.mp hx with rfl | hx
      · exact h1
      · exact lt_trans h1 (h.1 x hx)
    · split
      · rename_i h2; subst h2; simp only [List.map_cons, List.pairwise_cons]; exact h
      · rename_i h1 h2
        simp only [List.map_cons, List.pairwise_cons]
        refine ⟨?_, ih h.2⟩
        intro x hx
        obtain ⟨q, hq, rfl⟩ := List.mem_map.mp hx
        rcases ins_mem hq with rfl | hq
        · show k < i; omega
        · exact h.1 _ (List.mem_map.mpr ⟨q, hq, rfl⟩)

/-- Every write of a word keeps the canonical form of memory. -/
theorem memPut_wf {m : Map TWord} {a : Nat} {w : TWord} (h : Memory.wf m = true) : Memory.wf (memPut m a w) = true := by
  rw [wf_iff] at h ⊢
  unfold memPut
  split
  · exact ⟨del_pairwise h.1, fun p hp => h.2 p (del_mem_subset hp)⟩
  · rename_i hw
    refine ⟨ins_pairwise h.1, fun p hp => ?_⟩
    rcases ins_mem hp with rfl | hp
    · exact hw
    · exact h.2 p hp

theorem putMem_inv {s : State} {a : Nat} {w : TWord} (h : MemInv s) : MemInv (putMem s a w) := memPut_wf h

end Sys2Proof.Machine
end

