-- ==== Sys2Proof/Laws/Frames.lean ====
section
/-! SUPPORT. Where the checks A1 to A5 take a frame. -/
namespace Sys2Proof.Machine

open Sys2Proof

theorem ingress_lookup {s : State} {f : Frame} {mgmt : Bool} {cs : List SClass} {go : State → State} (h : ReachesA3 s f mgmt) :
    ingress s f mgmt cs go = match passA3 (looked s f) f cs with
      | none => bumpWrap (looked s f) bAWP (0x408 + 0x10 * f.lane) 0 32 1
      | some x =>
        if (f.tagOk && x.keyHeld) = false then
          countDrop (bumpWrap (updSess (looked s f) (skey f.tenant f.session) (fun x => { x with a4 := x.a4 + 1 })) bAWP 0x20 0 32 1) f.tenant f.session 0
        else match window x.high x.bitmap f.counter with
          | none => countDrop (bumpWrap (updSess (looked s f) (skey f.tenant f.session) (fun x => { x with a5 := x.a5 + 1 })) bAWP 0x24 0 32 1) f.tenant f.session 1
          | some w => go (updSess (looked s f) (skey f.tenant f.session) (fun x => { x with high := w.1, bitmap := w.2, opened := decide (f.counter ≠ 2 ^ 48 - 1) })) := by
  obtain ⟨h1, h2, h3, h4⟩ := h
  unfold ingress
  rw [if_neg (by simp [h1]), if_neg (Nat.not_lt.mpr h2), if_neg (by simp [h3]), if_neg (by simp [h4])]
  rfl

theorem ingress_pass {s u : State} {f : Frame} {mgmt : Bool} {cs : List SClass} {go : State → State} (h : PassesA5 s u f mgmt cs) :
    ingress s f mgmt cs go = go u := by
  obtain ⟨h0, x, w, h1, h2, h3, h4, rfl⟩ := h
  rw [ingress_lookup h0, h1]
  dsimp only
  rw [if_neg (by simp [h2, h3]), h4]

theorem mgmt_pass {s u : State} {f : Frame} {cs : List SClass} {ms : List DMode} {go : State → State} (h : PassesA5 s u f true cs)
    (hm : ms.any (fun m => u.inMode m) = true) : mgmtFrame s f cs ms go = go u := by
  unfold mgmtFrame
  rw [ingress_pass h, if_pos hm]

end Sys2Proof.Machine
end

