-- ==== Sys2Proof/Laws/KeepA.lean ====
section
/-! SUPPORT. What no operation changes, the queue of commands and one-time storage: the registers, journal, books, modes, time, lanes, flash and the bus. -/
set_option linter.unusedTactic false
set_option linter.unreachableTactic false
set_option linter.unusedSimpArgs false
set_option linter.unnecessarySeqFocus false
set_option linter.unnecessarySimpa false
set_option linter.unusedVariables false
namespace Sys2Proof.Machine

open Sys2Proof

@[simp] theorem Acs.st_ok {α : Type} (s : State) (v : α) : (Acs.ok s v).st = s := rfl
@[simp] theorem Acs.st_trap {α : Type} (s : State) (t : Trap) : (Acs.trap s t : Acs α).st = s := rfl
@[simp] theorem IRes.st_done (s : State) : (IRes.done s).st = s := rfl
@[simp] theorem IRes.st_goto (s : State) (a : Nat) : (IRes.goto s a).st = s := rfl
@[simp] theorem IRes.st_stay (s : State) : (IRes.stay s).st = s := rfl
@[simp] theorem IRes.st_trap (s : State) (t : Trap) : (IRes.trap s t).st = s := rfl

@[simp] theorem ite_pending (c : Prop) [Decidable c] (a b : State) : (if c then a else b).pending = if c then a.pending else b.pending := by split <;> rfl
@[simp] theorem ite_otp (c : Prop) [Decidable c] (a b : State) : (if c then a else b).sec.otp = if c then a.sec.otp else b.sec.otp := by split <;> rfl


@[simp] theorem foldl_pending {α : Type} (g : State → α → State) (l : List α) (s : State)
    (h : ∀ a x, (g a x).pending = a.pending) : (l.foldl g s).pending = s.pending := by
  induction l generalizing s with
  | nil => rfl
  | cons x l ih => simp [ih, h]

@[simp] theorem foldr_pending {α : Type} (g : α → State → State) (l : List α) (s : State)
    (h : ∀ a x, (g x a).pending = a.pending) : (l.foldr g s).pending = s.pending := by
  induction l with
  | nil => rfl
  | cons x l ih => simp [ih, h]

theorem Acs.bind_pending {α β : Type} (x : Acs α) (f : State → α → Acs β)
    (h : ∀ a v, (f a v).st.pending = a.pending) : (x.bind f).st.pending = x.st.pending := by
  cases x <;> simp [Acs.bind, h]

theorem Acs.fin_pending {α : Type} (x : Acs α) (f : State → α → IRes)
    (h : ∀ a v, (f a v).st.pending = a.pending) : (x.fin f).st.pending = x.st.pending := by
  cases x <;> simp [Acs.fin, h]

theorem Acs.each_pending {α β : Type} (f : State → α → Acs β) (l : List α) (s : State)
    (h : ∀ a v, (f a v).st.pending = a.pending) : (Acs.each f l s).st.pending = s.pending := by
  induction l generalizing s with
  | nil => simp [Acs.each]
  | cons x l ih =>
    show ((f s x).bind _).st.pending = _
    rw [Acs.bind_pending _ _ (fun a v => by rw [Acs.bind_pending _ _ (fun _ _ => rfl)]; exact ih a), h]

@[simp] theorem foldl_otp {α : Type} (g : State → α → State) (l : List α) (s : State)
    (h : ∀ a x, (g a x).sec.otp = a.sec.otp) : (l.foldl g s).sec.otp = s.sec.otp := by
  induction l generalizing s with
  | nil => rfl
  | cons x l ih => simp [ih, h]

@[simp] theorem foldr_otp {α : Type} (g : α → State → State) (l : List α) (s : State)
    (h : ∀ a x, (g x a).sec.otp = a.sec.otp) : (l.foldr g s).sec.otp = s.sec.otp := by
  induction l with
  | nil => rfl
  | cons x l ih => simp [ih, h]

theorem Acs.bind_otp {α β : Type} (x : Acs α) (f : State → α → Acs β)
    (h : ∀ a v, (f a v).st.sec.otp = a.sec.otp) : (x.bind f).st.sec.otp = x.st.sec.otp := by
  cases x <;> simp [Acs.bind, h]

theorem Acs.fin_otp {α : Type} (x : Acs α) (f : State → α → IRes)
    (h : ∀ a v, (f a v).st.sec.otp = a.sec.otp) : (x.fin f).st.sec.otp = x.st.sec.otp := by
  cases x <;> simp [Acs.fin, h]

theorem Acs.each_otp {α β : Type} (f : State → α → Acs β) (l : List α) (s : State)
    (h : ∀ a v, (f a v).st.sec.otp = a.sec.otp) : (Acs.each f l s).st.sec.otp = s.sec.otp := by
  induction l generalizing s with
  | nil => simp [Acs.each]
  | cons x l ih =>
    show ((f s x).bind _).st.sec.otp = _
    rw [Acs.bind_otp _ _ (fun a v => by rw [Acs.bind_otp _ _ (fun _ _ => rfl)]; exact ih a), h]

@[simp] theorem foldl_fst_pending {α β : Type} (g : State × β → α → State × β) (l : List α) (s : State × β)
    (h : ∀ a x, (g a x).1.pending = a.1.pending) : (l.foldl g s).1.pending = s.1.pending := by
  induction l generalizing s with
  | nil => rfl
  | cons x l ih => simp [ih, h]

@[simp] theorem foldl_fst_otp {α β : Type} (g : State × β → α → State × β) (l : List α) (s : State × β)
    (h : ∀ a x, (g a x).1.sec.otp = a.1.sec.otp) : (l.foldl g s).1.sec.otp = s.1.sec.otp := by
  induction l generalizing s with
  | nil => rfl
  | cons x l ih => simp [ih, h]


@[simp] theorem Issued.st_got (s : State) (r : List TWord) (o : List Byte) : (Issued.got s r o).st = s := rfl
@[simp] theorem Issued.st_error (s : State) : (Issued.error s).st = s := rfl
@[simp] theorem Issued.st_halt (s : State) : (Issued.halt s).st = s := rfl
@[simp] theorem Issued.st_held (s : State) (b : Bool) : (Issued.held s b).st = s := rfl

@[simp] theorem rawSet_keep (s : State) (b off v : Nat) : (rawSet s b off v).pending = s.pending ∧ (rawSet s b off v).sec.otp = s.sec.otp := ⟨rfl, rfl⟩

@[simp] theorem fset_keep (s : State) (b off lo w v : Nat) : (fset s b off lo w v).pending = s.pending ∧ (fset s b off lo w v).sec.otp = s.sec.otp := ⟨rfl, rfl⟩

@[simp] theorem bumpSat_keep (s : State) (b off lo w n : Nat) : (bumpSat s b off lo w n).pending = s.pending ∧ (bumpSat s b off lo w n).sec.otp = s.sec.otp := ⟨rfl, rfl⟩

@[simp] theorem bumpWrap_keep (s : State) (b off lo w n : Nat) : (bumpWrap s b off lo w n).pending = s.pending ∧ (bumpWrap s b off lo w n).sec.otp = s.sec.otp := ⟨rfl, rfl⟩

@[simp] theorem setStat_keep (s : State) (b i : Nat) : (setStat s b i).pending = s.pending ∧ (setStat s b i).sec.otp = s.sec.otp := ⟨rfl, rfl⟩

@[simp] theorem set64_keep (s : State) (b off v : Nat) : (set64 s b off v).pending = s.pending ∧ (set64 s b off v).sec.otp = s.sec.otp := ⟨rfl, rfl⟩

@[simp] theorem drawFree_keep (s : State) : (drawFree s).2.pending = s.pending ∧ (drawFree s).2.sec.otp = s.sec.otp := ⟨rfl, rfl⟩

@[simp] theorem emitOut_keep (s : State) (o : Out) : (emitOut s o).pending = s.pending ∧ (emitOut s o).sec.otp = s.sec.otp := ⟨rfl, rfl⟩

@[simp] theorem setStrm_keep (s : State) (t : Nat) (st : Stream) : (setStrm s t st).pending = s.pending ∧ (setStrm s t st).sec.otp = s.sec.otp := ⟨rfl, rfl⟩

@[simp] theorem evtOn_keep (s : State) (c : Nat) (l : EvtLine) : (evtOn s c l).pending = s.pending ∧ (evtOn s c l).sec.otp = s.sec.otp := by
  unfold evtOn; split <;> simp

@[simp] theorem evtLine_keep (s : State) (l : EvtLine) : (evtLine s l).pending = s.pending ∧ (evtLine s l).sec.otp = s.sec.otp := by simp [evtLine]

@[simp] theorem logEvent_keep (s : State) (e : ElogEvent) : (logEvent s e).pending = s.pending ∧ (logEvent s e).sec.otp = s.sec.otp := ⟨rfl, rfl⟩

@[simp] theorem reqGrain_keep (s : State) (g : GReq) : (reqGrain s g).pending = s.pending ∧ (reqGrain s g).sec.otp = s.sec.otp := ⟨rfl, rfl⟩

@[simp] theorem reqD_keep (s : State) (g : GReq) : (reqD s g).pending = s.pending ∧ (reqD s g).sec.otp = s.sec.otp := by simp [reqD]

@[simp] theorem eventAt_keep (s : State) (typ kind code : Nat) (par : List Nat) (tai u cjn : Nat) : (eventAt s typ kind code par tai u cjn).pending = s.pending ∧ (eventAt s typ kind code par tai u cjn).sec.otp = s.sec.otp := by simp [eventAt]

@[simp] theorem eventD_keep (s : State) (typ kind code : Nat) (par : List Nat) (cjn : Nat) : (eventD s typ kind code par cjn).pending = s.pending ∧ (eventD s typ kind code par cjn).sec.otp = s.sec.otp := by simp [eventD]

@[simp] theorem eventT_keep (s : State) (t typ kind : Nat) (body : List Byte) (tai u book cjn : Nat) : (eventT s t typ kind body tai u book cjn).pending = s.pending ∧ (eventT s t typ kind body tai u book cjn).sec.otp = s.sec.otp := by simp [eventT]

@[simp] theorem eventOwn_keep (s : State) (t typ kind code : Nat) (par : List Nat) (tai u book cjn flags : Nat) : (eventOwn s t typ kind code par tai u book cjn flags).pending = s.pending ∧ (eventOwn s t typ kind code par tai u book cjn flags).sec.otp = s.sec.otp := by simp [eventOwn]

@[simp] theorem eventAll_keep (s : State) (typ kind code : Nat) (par : List Nat) (cjn : Nat) : (eventAll s typ kind code par cjn).pending = s.pending ∧ (eventAll s typ kind code par cjn).sec.otp = s.sec.otp := by simp [eventAll]

@[simp] theorem noteOcc_keep (s : State) : (noteOcc s).pending = s.pending ∧ (noteOcc s).sec.otp = s.sec.otp := ⟨rfl, rfl⟩

@[simp] theorem drainOver_keep (s : State) : (drainOver s).pending = s.pending ∧ (drainOver s).sec.otp = s.sec.otp := by simp [drainOver]

@[simp] theorem chainGrainRec_keep (s : State) (t : Nat) (g : GReq) (recBytes : Nat) (flash : Bool) (recd : Option Input) : (chainGrainRec s t g recBytes flash recd).pending = s.pending ∧ (chainGrainRec s t g recBytes flash recd).sec.otp = s.sec.otp := by simp [chainGrainRec]

@[simp] theorem chainGrain_keep (s : State) (t : Nat) (g : GReq) (recBytes : Nat) (flash : Bool) : (chainGrain s t g recBytes flash).pending = s.pending ∧ (chainGrain s t g recBytes flash).sec.otp = s.sec.otp := by simp [chainGrain]

@[simp] theorem cascade_keep  (x0 : Nat) (s : State) (x2 : Nat) : (cascade  x0 s x2).pending = s.pending ∧ (cascade  x0 s x2).sec.otp = s.sec.otp := by
  induction x0 generalizing s with
  | zero => simp [cascade]
  | succ k ih => unfold cascade; dsimp only; split <;> simp [ih]

@[simp] theorem numberHead_keep (s : State) (t : Nat) : (numberHead s t).pending = s.pending ∧ (numberHead s t).sec.otp = s.sec.otp := by
  unfold numberHead; dsimp only; split <;> simp

@[simp] theorem setDur_keep (s : State) (t n : Nat) : (setDur s t n).pending = s.pending ∧ (setDur s t n).sec.otp = s.sec.otp := by simp [setDur]

@[simp] theorem putBook_keep (s : State) (t b : Nat) (k : Book) : (putBook s t b k).pending = s.pending ∧ (putBook s t b k).sec.otp = s.sec.otp := ⟨rfl, rfl⟩

@[simp] theorem changeBook_keep (s : State) (t b te : Nat) (f : Book → Book) : (changeBook s t b te f).pending = s.pending ∧ (changeBook s t b te f).sec.otp = s.sec.otp := ⟨rfl, rfl⟩

@[simp] theorem salesEvents_keep (s : State) (set mask : Nat) (bs : List (Nat × Nat)) (te cjn : Nat) : (salesEvents s set mask bs te cjn).pending = s.pending ∧ (salesEvents s set mask bs te cjn).sec.otp = s.sec.otp := by simp [salesEvents]

@[simp] theorem setCauses_keep (s : State) (mask : Nat) (bs : List (Nat × Nat)) (te cjn : Nat) : (setCauses s mask bs te cjn).pending = s.pending ∧ (setCauses s mask bs te cjn).sec.otp = s.sec.otp := by simp [setCauses]

@[simp] theorem setCauseAll_keep (s : State) (mask te cjn : Nat) : (setCauseAll s mask te cjn).pending = s.pending ∧ (setCauseAll s mask te cjn).sec.otp = s.sec.otp := by simp [setCauseAll]

@[simp] theorem setCauseTenant_keep (s : State) (t mask te cjn : Nat) : (setCauseTenant s t mask te cjn).pending = s.pending ∧ (setCauseTenant s t mask te cjn).sec.otp = s.sec.otp := by simp [setCauseTenant]

@[simp] theorem clearCauses_keep (s : State) (mask : Nat) (bs : List (Nat × Nat)) (mirrorOk : Nat → Bool) (te cjn : Nat) : (clearCauses s mask bs mirrorOk te cjn).pending = s.pending ∧ (clearCauses s mask bs mirrorOk te cjn).sec.otp = s.sec.otp := by simp [clearCauses]

@[simp] theorem openBook_keep (s : State) (t b te : Nat) : (openBook s t b te).pending = s.pending ∧ (openBook s t b te).sec.otp = s.sec.otp := ⟨rfl, rfl⟩

@[simp] theorem configBook_keep (s : State) (t b : Nat) (old : Book) (te cjn : Nat) : (configBook s t b old te cjn).pending = s.pending ∧ (configBook s t b old te cjn).sec.otp = s.sec.otp := by simp [configBook]

@[simp] theorem partBook_keep (s : State) (t b : Nat) (u : Nat) (stepped : Bool) (cjn : Nat) : (partBook s t b u stepped cjn).pending = s.pending ∧ (partBook s t b u stepped cjn).sec.otp = s.sec.otp := by simp [partBook]

@[simp] theorem numberPart_keep (s : State) (t b : Nat) (flags : Nat) : (numberPart s t b flags).pending = s.pending ∧ (numberPart s t b flags).sec.otp = s.sec.otp := by simp [numberPart]

@[simp] theorem updCon_keep (s : State) (c : Nat) (f : Console → Console) : (updCon s c f).pending = s.pending ∧ (updCon s c f).sec.otp = s.sec.otp := ⟨rfl, rfl⟩

@[simp] theorem flushEvt_keep (s : State) (c : Nat) : (flushEvt s c).pending = s.pending ∧ (flushEvt s c).sec.otp = s.sec.otp := by simp [flushEvt]

@[simp] theorem sendReply_keep (s : State) (c cjn : Nat) (r : ConReply) : (sendReply s c cjn r).pending = s.pending ∧ (sendReply s c cjn r).sec.otp = s.sec.otp := by simp [sendReply]

@[simp] theorem keepRecord_keep (s : State) (c : Cmd) : (keepRecord s c).pending = s.pending ∧ (keepRecord s c).sec.otp = s.sec.otp := by simp [keepRecord]

@[simp] theorem appendFormed_keep  (x0 : Nat) (s : State) : (appendFormed  x0 s).pending = s.pending ∧ (appendFormed  x0 s).sec.otp = s.sec.otp := by
  induction x0 generalizing s with
  | zero => simp [appendFormed]
  | succ k ih => unfold appendFormed; dsimp only; (repeat' split) <;> simp [ih]

@[simp] theorem formReply_keep (s : State) (cjn : Nat) (r : ConReply) : (formReply s cjn r).pending = s.pending ∧ (formReply s cjn r).sec.otp = s.sec.otp := by simp [formReply]

@[simp] theorem tryCj_keep (s : State) : (tryCj s).pending = s.pending ∧ (tryCj s).sec.otp = s.sec.otp := by
  unfold tryCj; constructor <;> (first | apply foldl_pending | apply foldl_otp) <;> intro a x <;> (repeat' split) <;> simp

@[simp] theorem ok_keep (s : State) (vals : List Int) : (ok s vals).st.pending = s.pending ∧ (ok s vals).st.sec.otp = s.sec.otp := ⟨rfl, rfl⟩

@[simp] theorem okB_keep (s : State) (vals : List Int) (b : List Byte) : (okB s vals b).st.pending = s.pending ∧ (okB s vals b).st.sec.otp = s.sec.otp := ⟨rfl, rfl⟩

@[simp] theorem err_keep (s : State) (code : Nat) (vals : List Int) : (err s code vals).st.pending = s.pending ∧ (err s code vals).st.sec.otp = s.sec.otp := ⟨rfl, rfl⟩

@[simp] theorem takeCjn_keep (s : State) (l : ConLine) : (takeCjn s l).2.pending = s.pending ∧ (takeCjn s l).2.sec.otp = s.sec.otp := ⟨rfl, rfl⟩

@[simp] theorem logOpen_keep (s : State) (par : List Nat) : (logOpen s par).pending = s.pending ∧ (logOpen s par).sec.otp = s.sec.otp := ⟨rfl, rfl⟩

@[simp] theorem earlyCmd_keep_pending (l : ConLine) (sp : CmdSpec) (act : Nat → State → ActRes) (s : State)  (hact : ∀ n a, (act n a).st.pending = a.pending) : (earlyCmd l sp act s).pending = s.pending := by
  unfold earlyCmd; repeat' (first | (with_reducible rfl) | (with_reducible assumption) | intro _ | apply And.intro | (simp [hact]; done) | split | dsimp only | simp [hact])

@[simp] theorem earlyCmd_keep_sec_otp (l : ConLine) (sp : CmdSpec) (act : Nat → State → ActRes) (s : State)  (hact : ∀ n a, (act n a).st.sec.otp = a.sec.otp) : (earlyCmd l sp act s).sec.otp = s.sec.otp := by
  unfold earlyCmd; repeat' (first | (with_reducible rfl) | (with_reducible assumption) | intro _ | apply And.intro | (simp [hact]; done) | split | dsimp only | simp [hact])

@[simp] theorem lateCmd_keep_pending (l : ConLine) (sp : CmdSpec) (act : Nat → State → ActRes) (cjn : Nat) (s : State)  (hact : ∀ n a, (act n a).st.pending = a.pending) : (lateCmd l sp act cjn s).pending = s.pending := by
  unfold lateCmd; repeat' (first | (with_reducible rfl) | (with_reducible assumption) | intro _ | apply And.intro | (simp [hact]; done) | split | dsimp only | simp [hact])

@[simp] theorem lateCmd_keep_sec_otp (l : ConLine) (sp : CmdSpec) (act : Nat → State → ActRes) (cjn : Nat) (s : State)  (hact : ∀ n a, (act n a).st.sec.otp = a.sec.otp) : (lateCmd l sp act cjn s).sec.otp = s.sec.otp := by
  unfold lateCmd; repeat' (first | (with_reducible rfl) | (with_reducible assumption) | intro _ | apply And.intro | (simp [hact]; done) | split | dsimp only | simp [hact])

@[simp] theorem tagged_keep_pending (l : ConLine) (sp : CmdSpec) (act : Nat → State → ActRes) (c : Cmd) (s : State)  (hact : ∀ n a, (act n a).st.pending = a.pending) : (tagged l sp act c s).pending = s.pending := by
  unfold tagged; repeat' (first | (with_reducible rfl) | (with_reducible assumption) | intro _ | apply And.intro | (simp [hact]; done) | split | dsimp only | with_reducible apply lateCmd_keep_pending | with_reducible apply lateCmd_keep_sec_otp | simp [hact])

@[simp] theorem tagged_keep_sec_otp (l : ConLine) (sp : CmdSpec) (act : Nat → State → ActRes) (c : Cmd) (s : State)  (hact : ∀ n a, (act n a).st.sec.otp = a.sec.otp) : (tagged l sp act c s).sec.otp = s.sec.otp := by
  unfold tagged; repeat' (first | (with_reducible rfl) | (with_reducible assumption) | intro _ | apply And.intro | (simp [hact]; done) | split | dsimp only | with_reducible apply lateCmd_keep_pending | with_reducible apply lateCmd_keep_sec_otp | simp [hact])

@[simp] theorem runCmd_keep_pending (l : ConLine) (sp : CmdSpec) (act : Nat → State → ActRes) (s : State)  (hact : ∀ n a, (act n a).st.pending = a.pending) : (runCmd l sp act s).pending = s.pending := by
  unfold runCmd; repeat' (first | (with_reducible rfl) | (with_reducible assumption) | intro _ | apply And.intro | (simp [hact]; done) | split | dsimp only | with_reducible apply earlyCmd_keep_pending | with_reducible apply earlyCmd_keep_sec_otp | with_reducible apply lateCmd_keep_pending | with_reducible apply lateCmd_keep_sec_otp | with_reducible apply tagged_keep_pending | with_reducible apply tagged_keep_sec_otp | simp [hact])

@[simp] theorem runCmd_keep_sec_otp (l : ConLine) (sp : CmdSpec) (act : Nat → State → ActRes) (s : State)  (hact : ∀ n a, (act n a).st.sec.otp = a.sec.otp) : (runCmd l sp act s).sec.otp = s.sec.otp := by
  unfold runCmd; repeat' (first | (with_reducible rfl) | (with_reducible assumption) | intro _ | apply And.intro | (simp [hact]; done) | split | dsimp only | with_reducible apply earlyCmd_keep_pending | with_reducible apply earlyCmd_keep_sec_otp | with_reducible apply lateCmd_keep_pending | with_reducible apply lateCmd_keep_sec_otp | with_reducible apply tagged_keep_pending | with_reducible apply tagged_keep_sec_otp | simp [hact])

@[simp] theorem completePhase_keep (s : State) (p : Phase → Bool) (f : Cmd → ConReply) : (completePhase s p f).pending = s.pending ∧ (completePhase s p f).sec.otp = s.sec.otp := by
  unfold completePhase; split <;> simp

@[simp] theorem putMode_keep (s : State) (m : DMode) : (putMode s m).pending = s.pending ∧ (putMode s m).sec.otp = s.sec.otp := ⟨rfl, rfl⟩

@[simp] theorem changeMode_keep (s : State) (m : DMode) (cause cjn : Nat) : (changeMode s m cause cjn).pending = s.pending ∧ (changeMode s m cause cjn).sec.otp = s.sec.otp := by simp [changeMode]

@[simp] theorem cutJournal_keep (s : State) : (cutJournal s).pending = s.pending ∧ (cutJournal s).sec.otp = s.sec.otp := by simp [cutJournal]

@[simp] theorem endPhases_keep (s : State) : (endPhases s).pending = s.pending ∧ (endPhases s).sec.otp = s.sec.otp := ⟨rfl, rfl⟩

@[simp] theorem enterHold_keep (s : State) (cause detail cjn : Nat) : (enterHold s cause detail cjn).pending = s.pending ∧ (enterHold s cause detail cjn).sec.otp = s.sec.otp := by simp [enterHold]

@[simp] theorem advance_keep (s : State) (n : Nat) : (advance s n).pending = s.pending ∧ (advance s n).sec.otp = s.sec.otp := by simp [advance]

@[simp] theorem updRef_keep (s : State) (r : Nat) (f : TimeRef → TimeRef) : (updRef s r f).pending = s.pending ∧ (updRef s r f).sec.otp = s.sec.otp := ⟨rfl, rfl⟩

@[simp] theorem putU_keep (s : State) : (putU s).pending = s.pending ∧ (putU s).sec.otp = s.sec.otp := ⟨rfl, rfl⟩

@[simp] theorem putQual_keep (s : State) : (putQual s).pending = s.pending ∧ (putQual s).sec.otp = s.sec.otp := by
  unfold putQual; dsimp only; (repeat' split) <;> simp

@[simp] theorem recompute_keep (s : State) : (recompute s).pending = s.pending ∧ (recompute s).sec.otp = s.sec.otp := by simp [recompute]

@[simp] theorem putLeap_keep (s : State) : (putLeap s).pending = s.pending ∧ (putLeap s).sec.otp = s.sec.otp := ⟨rfl, rfl⟩

@[simp] theorem acquireFirst_keep (s : State) (r : Nat) (off : Int) : (acquireFirst s r off).pending = s.pending ∧ (acquireFirst s r off).sec.otp = s.sec.otp := ⟨rfl, rfl⟩

@[simp] theorem validSample_keep (s : State) (r : Nat) (off : Int) : (validSample s r off).pending = s.pending ∧ (validSample s r off).sec.otp = s.sec.otp := by simp [validSample]

@[simp] theorem invalidSample_keep (s : State) (r : Nat) : (invalidSample s r).pending = s.pending ∧ (invalidSample s r).sec.otp = s.sec.otp := by simp [invalidSample]

@[simp] theorem updMir_keep (s : State) (t : Nat) (f : MirTen → MirTen) : (updMir s t f).pending = s.pending ∧ (updMir s t f).sec.otp = s.sec.otp := ⟨rfl, rfl⟩

@[simp] theorem linkEvent_keep (s : State) : (linkEvent s).pending = s.pending ∧ (linkEvent s).sec.otp = s.sec.otp := by simp [linkEvent]

@[simp] theorem linkClear_keep (s : State) : (linkClear s).pending = s.pending ∧ (linkClear s).sec.otp = s.sec.otp := ⟨rfl, rfl⟩

@[simp] theorem linkTo_keep (s : State) (new : Nat) : (linkTo s new).pending = s.pending ∧ (linkTo s new).sec.otp = s.sec.otp := by
  unfold linkTo; dsimp only; (repeat' split) <;> simp

@[simp] theorem sendHello_keep (s : State) : (sendHello s).pending = s.pending ∧ (sendHello s).sec.otp = s.sec.otp := by simp [sendHello]

@[simp] theorem linkFollow_keep (s : State) : (linkFollow s).pending = s.pending ∧ (linkFollow s).sec.otp = s.sec.otp := by simp [linkFollow]

@[simp] theorem mirDetach_keep (s : State) : (mirDetach s).pending = s.pending ∧ (mirDetach s).sec.otp = s.sec.otp := ⟨rfl, rfl⟩

@[simp] theorem mirSend_keep (s : State) (kind tenant : Nat) (body : List Byte) : (mirSend s kind tenant body).pending = s.pending ∧ (mirSend s kind tenant body).sec.otp = s.sec.otp := ⟨rfl, rfl⟩

@[simp] theorem sendAck_keep (s : State) : (sendAck s).pending = s.pending ∧ (sendAck s).sec.otp = s.sec.otp := by simp [sendAck]

@[simp] theorem sendNack_keep (s : State) : (sendNack s).pending = s.pending ∧ (sendNack s).sec.otp = s.sec.otp := by simp [sendNack]

@[simp] theorem mirPump_keep  (x0 : Nat) (s : State) (x2 : Nat) : (mirPump  x0 s x2).pending = s.pending ∧ (mirPump  x0 s x2).sec.otp = s.sec.otp := by
  induction x0 generalizing s with
  | zero => simp [mirPump]
  | succ k ih => unfold mirPump; refine ⟨?_, ?_⟩ <;> dsimp only <;> (repeat' split) <;> simp [ih]

@[simp] theorem mirrorPump_keep (s : State) (t : Nat) : (mirrorPump s t).pending = s.pending ∧ (mirrorPump s t).sec.otp = s.sec.otp := by simp [mirrorPump]

@[simp] theorem mirrorPumpAll_keep (s : State) : (mirrorPumpAll s).pending = s.pending ∧ (mirrorPumpAll s).sec.otp = s.sec.otp := by simp [mirrorPumpAll]

@[simp] theorem freeIfDone_keep (s : State) (key : Nat) : (freeIfDone s key).pending = s.pending ∧ (freeIfDone s key).sec.otp = s.sec.otp := by
  unfold freeIfDone; split <;> simp

@[simp] theorem replyGone_keep (s : State) (t session : Nat) : (replyGone s t session).pending = s.pending ∧ (replyGone s t session).sec.otp = s.sec.otp := by
  unfold replyGone; split <;> simp

@[simp] theorem mirrorCause_keep (s : State) (t : Nat) : (mirrorCause s t).pending = s.pending ∧ (mirrorCause s t).sec.otp = s.sec.otp := by simp [mirrorCause]

@[simp] theorem lagTest_keep (s : State) (t : Nat) : (lagTest s t).pending = s.pending ∧ (lagTest s t).sec.otp = s.sec.otp := by simp [lagTest]

@[simp] theorem releaseInputs_keep (s : State) (t : Nat) : (releaseInputs s t).pending = s.pending ∧ (releaseInputs s t).sec.otp = s.sec.otp := ⟨rfl, rfl⟩

@[simp] theorem durableEffect_keep (s : State) (t : Nat) (g : Grain) : (durableEffect s t g).pending = s.pending ∧ (durableEffect s t g).sec.otp = s.sec.otp := by simp [durableEffect]

@[simp] theorem nowDurable_keep (s : State) (t n : Nat) : (nowDurable s t n).pending = s.pending ∧ (nowDurable s t n).sec.otp = s.sec.otp := by
  unfold nowDurable; refine ⟨?_, ?_⟩ <;> dsimp only <;> (repeat' split) <;> simp

@[simp] theorem deferredPartings_keep (s : State) : (deferredPartings s).pending = s.pending ∧ (deferredPartings s).sec.otp = s.sec.otp := by simp [deferredPartings]

@[simp] theorem settleParting_keep (s : State) (t b : Nat) : (settleParting s t b).pending = s.pending ∧ (settleParting s t b).sec.otp = s.sec.otp := by
  unfold settleParting; dsimp only; (repeat' split) <;> simp

@[simp] theorem sealedExit_keep (s : State) (cjn : Nat) : (sealedExit s cjn).pending = s.pending ∧ (sealedExit s cjn).sec.otp = s.sec.otp := by simp [sealedExit]

@[simp] theorem transit_keep (s : State) (m : DMode) (cause cjn : Nat) : (transit s m cause cjn).pending = s.pending ∧ (transit s m cause cjn).sec.otp = s.sec.otp := by
  unfold transit; (repeat' split) <;> simp

@[simp] theorem auditEnds_keep (s : State) (cause : Nat) : (auditEnds s cause).pending = s.pending ∧ (auditEnds s cause).sec.otp = s.sec.otp := by simp [auditEnds]

@[simp] theorem modeWrite_keep (s : State) (code : Nat) : (modeWrite s code).pending = s.pending ∧ (modeWrite s code).sec.otp = s.sec.otp := by
  unfold modeWrite; split <;> simp

@[simp] theorem putActive_keep (s : State) (b off v : Nat) : (putActive s b off v).pending = s.pending ∧ (putActive s b off v).sec.otp = s.sec.otp := by simp [putActive]

@[simp] theorem stageGroup_keep (s : State) (g : Nat) : (stageGroup s g).pending = s.pending ∧ (stageGroup s g).sec.otp = s.sec.otp := by
  unfold stageGroup; repeat' (first | (with_reducible rfl) | (with_reducible assumption) | intro _ | apply And.intro | (simp; done) | split | dsimp only | (with_reducible refine (foldl_pending _ _ _ ?_).trans ?_) | (with_reducible refine (foldl_otp _ _ _ ?_).trans ?_) | (with_reducible refine (foldl_fst_pending _ _ _ ?_).trans ?_) | (with_reducible refine (foldl_fst_otp _ _ _ ?_).trans ?_) | simp)

@[simp] theorem unstageBlock_keep (s : State) (b : Nat) : (unstageBlock s b).pending = s.pending ∧ (unstageBlock s b).sec.otp = s.sec.otp := by
  unfold unstageBlock; repeat' (first | (with_reducible rfl) | (with_reducible assumption) | intro _ | apply And.intro | (simp; done) | split | dsimp only | (with_reducible refine (foldl_pending _ _ _ ?_).trans ?_) | (with_reducible refine (foldl_otp _ _ _ ?_).trans ?_) | (with_reducible refine (foldl_fst_pending _ _ _ ?_).trans ?_) | (with_reducible refine (foldl_fst_otp _ _ _ ?_).trans ?_) | simp)

@[simp] theorem putPosted_keep (s : State) (b : Nat) (p : Posted) : (putPosted s b p).pending = s.pending ∧ (putPosted s b p).sec.otp = s.sec.otp := ⟨rfl, rfl⟩

@[simp] theorem copyReactions_keep (s : State) : (copyReactions s).pending = s.pending ∧ (copyReactions s).sec.otp = s.sec.otp := ⟨rfl, rfl⟩

@[simp] theorem updateGrains_keep (s : State) (gs : List Nat) (req cjn : Nat) : (updateGrains s gs req cjn).pending = s.pending ∧ (updateGrains s gs req cjn).sec.otp = s.sec.otp := by simp [updateGrains]

@[simp] theorem baudPending_keep (s : State) : (baudPending s).pending = s.pending ∧ (baudPending s).sec.otp = s.sec.otp := by simp [baudPending]

@[simp] theorem bookStat_keep (s : State) (reason nref te : Nat) : (bookStat s reason nref te).pending = s.pending ∧ (bookStat s reason nref te).sec.otp = s.sec.otp := ⟨rfl, rfl⟩

@[simp] theorem cmdOpen_keep (s : State) (scope t b cjn : Nat) : (cmdOpen s scope t b cjn).pending = s.pending ∧ (cmdOpen s scope t b cjn).sec.otp = s.sec.otp := by simp [cmdOpen]

@[simp] theorem cmdSetCause_keep (s : State) (scope t b mask cjn : Nat) : (cmdSetCause s scope t b mask cjn).pending = s.pending ∧ (cmdSetCause s scope t b mask cjn).sec.otp = s.sec.otp := by simp [cmdSetCause]

@[simp] theorem cmdClearCause_keep (s : State) (scope t b mask : Nat) (mirrorOk : Nat → Bool) (cjn : Nat) : (cmdClearCause s scope t b mask mirrorOk cjn).pending = s.pending ∧ (cmdClearCause s scope t b mask mirrorOk cjn).sec.otp = s.sec.otp := by simp [cmdClearCause]

@[simp] theorem cmdRelease_keep (s : State) (scope t b cjn : Nat) : (cmdRelease s scope t b cjn).pending = s.pending ∧ (cmdRelease s scope t b cjn).sec.otp = s.sec.otp := by simp [cmdRelease]

@[simp] theorem cmdRestore_keep (s : State) (scope t b st cause : Nat) : (cmdRestore s scope t b st cause).pending = s.pending ∧ (cmdRestore s scope t b st cause).sec.otp = s.sec.otp := by simp [cmdRestore]

@[simp] theorem bookCmd_keep (s : State) (w : Nat) (mirrorOk : Nat → Bool) (cjn : Nat) : (bookCmd s w mirrorOk cjn).pending = s.pending ∧ (bookCmd s w mirrorOk cjn).sec.otp = s.sec.otp := by
  unfold bookCmd; dsimp only; (repeat' split) <;> simp

@[simp] theorem entryWrite_keep (s : State) (t b pb margin cjn : Nat) : (entryWrite s t b pb margin cjn).pending = s.pending ∧ (entryWrite s t b pb margin cjn).sec.otp = s.sec.otp := by simp [entryWrite]

@[simp] theorem busErr_keep (s : State) (req addr : Nat) (wr : Bool) (reason : Nat) : (busErr s req addr wr reason).st.pending = s.pending ∧ (busErr s req addr wr reason).st.sec.otp = s.sec.otp := by simp [busErr]

@[simp] theorem unlockWrite_keep (s : State) (req b v : Nat) : (unlockWrite s req b v).pending = s.pending ∧ (unlockWrite s req b v).sec.otp = s.sec.otp := by simp [unlockWrite]

@[simp] theorem disarm_keep (s : State) (b : Nat) : (disarm s b).pending = s.pending ∧ (disarm s b).sec.otp = s.sec.otp := ⟨rfl, rfl⟩

@[simp] theorem putPair_keep (s : State) (b off : Nat) (p : Pair) : (putPair s b off p).pending = s.pending ∧ (putPair s b off p).sec.otp = s.sec.otp := ⟨rfl, rfl⟩

@[simp] theorem addrWrite_keep (s : State) (req b : Nat) (sp : Space) (v : Nat) : (addrWrite s req b sp v).pending = s.pending ∧ (addrWrite s req b sp v).sec.otp = s.sec.otp := by simp [addrWrite]

@[simp] theorem dataRead_keep (s : State) (req addr b : Nat) (sp : Space) : (dataRead s req addr b sp).st.pending = s.pending ∧ (dataRead s req addr b sp).st.sec.otp = s.sec.otp := by
  unfold dataRead; dsimp only; (repeat' split) <;> simp

@[simp] theorem ptDataWrite_keep (s : State) (req addr : Nat) (sp : Space) (v : Nat) : (ptDataWrite s req addr sp v).st.pending = s.pending ∧ (ptDataWrite s req addr sp v).st.sec.otp = s.sec.otp := by
  unfold ptDataWrite; dsimp only; (repeat' split) <;> simp

@[simp] theorem postWrite_keep (s : State) (req b off v : Nat) : (postWrite s req b off v).pending = s.pending ∧ (postWrite s req b off v).sec.otp = s.sec.otp := by simp [postWrite]

@[simp] theorem busRead_keep (s : State) (req b off width : Nat) : (busRead s req b off width).st.pending = s.pending ∧ (busRead s req b off width).st.sec.otp = s.sec.otp := by
  unfold busRead; dsimp only; (repeat' split) <;> simp

@[simp] theorem profileReset_keep (s : State) (p : Nat) : (profileReset s p).pending = s.pending ∧ (profileReset s p).sec.otp = s.sec.otp := by simp [profileReset]

@[simp] theorem plainWrite_keep (s : State) (b off w : Nat) : (plainWrite s b off w).pending = s.pending ∧ (plainWrite s b off w).sec.otp = s.sec.otp := by simp [plainWrite]

@[simp] theorem snapAll_keep (s : State) : (snapAll s).pending = s.pending ∧ (snapAll s).sec.otp = s.sec.otp := by
  unfold snapAll
  constructor
  · simp only [bumpWrap_keep]
    refine foldl_pending _ _ _ ?_
    intro a b
    refine foldl_pending _ _ _ ?_
    intro a f
    refine foldl_pending _ _ _ ?_
    intro a i
    refine foldl_pending _ _ _ ?_
    intro a j
    rfl
  · simp only [bumpWrap_keep]
    refine foldl_otp _ _ _ ?_
    intro a b
    refine foldl_otp _ _ _ ?_
    intro a f
    refine foldl_otp _ _ _ ?_
    intro a i
    refine foldl_otp _ _ _ ?_
    intro a j
    rfl

@[simp] theorem refenWrite_keep (s : State) (v cjn : Nat) : (refenWrite s v cjn).pending = s.pending ∧ (refenWrite s v cjn).sec.otp = s.sec.otp := by simp [refenWrite]

@[simp] theorem putPort_keep (s : State) (q p : Nat) (x : PortSt) : (putPort s q p x).pending = s.pending ∧ (putPort s q p x).sec.otp = s.sec.otp := ⟨rfl, rfl⟩

@[simp] theorem putLane_keep (s : State) (k : Nat) (x : LaneInfo) : (putLane s k x).pending = s.pending ∧ (putLane s k x).sec.otp = s.sec.otp := ⟨rfl, rfl⟩

@[simp] theorem gmLost_keep (s : State) (q p : Nat) : (gmLost s q p).pending = s.pending ∧ (gmLost s q p).sec.otp = s.sec.otp := by simp [gmLost]

@[simp] theorem laneStateEvent_keep (s : State) (q p old new further : Nat) : (laneStateEvent s q p old new further).pending = s.pending ∧ (laneStateEvent s q p old new further).sec.otp = s.sec.otp := by simp [laneStateEvent]

@[simp] theorem changePort_keep (s : State) (q p new : Nat) : (changePort s q p new).pending = s.pending ∧ (changePort s q p new).sec.otp = s.sec.otp := by
  unfold changePort
  constructor
  · dsimp only
    have h2 : ∀ (s1 : State), (List.foldl (fun a i =>
        if (getPort s q p).state = 3 then bumpSat (putLane a (q * 4 + i) { getLane a (q * 4 + i) with frozen := false, degraded := false, lows := [], goods := 0 }) (bLQ + q) (laneOff i 0x2C) 0 32 1
        else if new = 3 then putLane a (q * 4 + i) { getLane a (q * 4 + i) with frozen := fget a (bLQ + q) (laneOff i 0) 0 1 == 1, lows := [], goods := 0 }
        else a) s1 (portLanes s q p)).pending = s1.pending := by
      intro s1
      refine foldl_pending _ _ _ ?_
      intro a x
      (repeat' split) <;> simp
    (repeat' split) <;> simp [h2]
  · dsimp only
    have h2 : ∀ (s1 : State), (List.foldl (fun a i =>
        if (getPort s q p).state = 3 then bumpSat (putLane a (q * 4 + i) { getLane a (q * 4 + i) with frozen := false, degraded := false, lows := [], goods := 0 }) (bLQ + q) (laneOff i 0x2C) 0 32 1
        else if new = 3 then putLane a (q * 4 + i) { getLane a (q * 4 + i) with frozen := fget a (bLQ + q) (laneOff i 0) 0 1 == 1, lows := [], goods := 0 }
        else a) s1 (portLanes s q p)).sec.otp = s1.sec.otp := by
      intro s1
      refine foldl_otp _ _ _ ?_
      intro a x
      (repeat' split) <;> simp
    (repeat' split) <;> simp [h2]

@[simp] theorem restartQuad_keep (s : State) (q : Nat) : (restartQuad s q).pending = s.pending ∧ (restartQuad s q).sec.otp = s.sec.otp := by
  unfold restartQuad; first | (((repeat' split) <;> simp); done) | (repeat' (first | (with_reducible rfl) | (with_reducible assumption) | intro _ | apply And.intro | (simp; done) | split | dsimp only | (with_reducible refine (foldl_pending _ _ _ ?_).trans ?_) | (with_reducible refine (foldl_otp _ _ _ ?_).trans ?_) | (with_reducible refine (foldl_fst_pending _ _ _ ?_).trans ?_) | (with_reducible refine (foldl_fst_otp _ _ _ ?_).trans ?_) | simp))

@[simp] theorem phyTake_keep (s : State) (q i v : Nat) : (phyTake s q i v).pending = s.pending ∧ (phyTake s q i v).sec.otp = s.sec.otp := by simp [phyTake]

@[simp] theorem freezeWrite_keep (s : State) (q i v : Nat) : (freezeWrite s q i v).pending = s.pending ∧ (freezeWrite s q i v).sec.otp = s.sec.otp := by simp [freezeWrite]

@[simp] theorem lmargWrite_keep (s : State) (q i v cjn : Nat) : (lmargWrite s q i v cjn).pending = s.pending ∧ (lmargWrite s q i v cjn).sec.otp = s.sec.otp := by simp [lmargWrite]

@[simp] theorem mirrorWindowEnd_keep (s : State) : (mirrorWindowEnd s).pending = s.pending ∧ (mirrorWindowEnd s).sec.otp = s.sec.otp := by
  unfold mirrorWindowEnd; split <;> simp

@[simp] theorem updDie_keep (s : State) (d : Nat) (f : Die → Die) : (updDie s d f).pending = s.pending ∧ (updDie s d f).sec.otp = s.sec.otp := ⟨rfl, rfl⟩

@[simp] theorem updBlk_keep (s : State) (k : Nat) (f : Blk → Blk) : (updBlk s k f).pending = s.pending ∧ (updBlk s k f).sec.otp = s.sec.otp := ⟨rfl, rfl⟩

@[simp] theorem mediaGate_keep_pending (s : State) (t : Nat) (s' : State)  (hh : s'.pending = s.pending) : (mediaGate s t s').pending = s.pending := by
  unfold mediaGate; repeat' (first | (with_reducible rfl) | (with_reducible assumption) | intro _ | apply And.intro | (simp [hh]; done) | split | dsimp only | simp [hh])

@[simp] theorem mediaGate_keep_sec_otp (s : State) (t : Nat) (s' : State)  (hh : s'.sec.otp = s.sec.otp) : (mediaGate s t s').sec.otp = s.sec.otp := by
  unfold mediaGate; repeat' (first | (with_reducible rfl) | (with_reducible assumption) | intro _ | apply And.intro | (simp [hh]; done) | split | dsimp only | simp [hh])

@[simp] theorem takeBlock_keep (s : State) (k : Nat) (tlc : Bool) : (takeBlock s k tlc).pending = s.pending ∧ (takeBlock s k tlc).sec.otp = s.sec.otp := ⟨rfl, rfl⟩

theorem allocSuper_keep (s : State) (t : Nat) (tlc : Bool)   (x : State) (hx : allocSuper s t tlc = some x) : x.pending = s.pending ∧ x.sec.otp = s.sec.otp := by
  unfold allocSuper at hx; (try dsimp only at hx); (repeat' split at hx) <;> simp at hx <;> (try subst hx) <;> simp

@[simp] theorem mediaOverride_keep (s : State) (d b reason val floor : Nat) : (mediaOverride s d b reason val floor).pending = s.pending ∧ (mediaOverride s d b reason val floor).sec.otp = s.sec.otp := by simp [mediaOverride]

@[simp] theorem putFailcnt_keep (s : State) : (putFailcnt s).pending = s.pending ∧ (putFailcnt s).sec.otp = s.sec.otp := ⟨rfl, rfl⟩

@[simp] theorem dieFail_keep (s : State) (d reason : Nat) : (dieFail s d reason).pending = s.pending ∧ (dieFail s d reason).sec.otp = s.sec.otp := by simp [dieFail]

@[simp] theorem growBad_keep (s : State) (k : Nat) : (growBad s k).pending = s.pending ∧ (growBad s k).sec.otp = s.sec.otp := by simp [growBad]

@[simp] theorem failMember_keep (s : State) (x : Super) (c : Nat) (again : Bool) : (failMember s x c again).1.pending = s.pending ∧ (failMember s x c again).1.sec.otp = s.sec.otp := by
  unfold failMember; dsimp only; (repeat' split) <;> simp

theorem programRow_keep (s : State) (t : Nat) (tlc : Bool) (seg : Nat) (fails again : List Nat)   (x : State) (hx : programRow s t tlc seg fails again = some x) : x.pending = s.pending ∧ x.sec.otp = s.sec.otp := by
  unfold programRow at hx
  dsimp only at hx
  split at hx
  · cases hx
  · rename_i s1 h1
    have e1 : s1.pending = s.pending ∧ s1.sec.otp = s.sec.otp := by
      split at h1
      · cases h1; exact ⟨rfl, rfl⟩
      · exact allocSuper_keep s t tlc s1 h1
    split at hx
    · cases hx
    · cases hx
      simp [e1]

@[simp] theorem mediaError_keep (s : State) (t n d b : Nat) : (mediaError s t n d b).pending = s.pending ∧ (mediaError s t n d b).sec.otp = s.sec.otp := by
  unfold mediaError; split <;> simp

@[simp] theorem measure_keep (s : State) (k level rber : Nat) : (measure s k level rber).pending = s.pending ∧ (measure s k level rber).sec.otp = s.sec.otp := ⟨rfl, rfl⟩

@[simp] theorem flashRead_keep (s : State) (r : FlashRead) : (flashRead s r).pending = s.pending ∧ (flashRead s r).sec.otp = s.sec.otp := by simp [flashRead]

@[simp] theorem flashReads_keep (s : State) (l : List FlashRead) : (flashReads s l).pending = s.pending ∧ (flashReads s l).sec.otp = s.sec.otp := by simp [flashReads]

@[simp] theorem beginStep_keep (s : State) (n : Nat) : (beginStep s n).pending = s.pending ∧ (beginStep s n).sec.otp = s.sec.otp := ⟨rfl, rfl⟩

@[simp] theorem endS8_keep (s : State) : (endS8 s).pending = s.pending ∧ (endS8 s).sec.otp = s.sec.otp := by simp [endS8]

@[simp] theorem checkS8_keep (s : State) : (checkS8 s).pending = s.pending ∧ (checkS8 s).sec.otp = s.sec.otp := by simp [checkS8]

@[simp] theorem ptpIgnored_keep (s : State) (lane : Nat) : (ptpIgnored s lane).pending = s.pending ∧ (ptpIgnored s lane).sec.otp = s.sec.otp := ⟨rfl, rfl⟩

@[simp] theorem ptpMsg_keep_pending (s : State) (m : PtpMsg) (f : Nat → State)  (hh : ∀ r, (f r).pending = s.pending) : (ptpMsg s m f).pending = s.pending := by
  unfold ptpMsg; repeat' (first | (with_reducible rfl) | (with_reducible assumption) | intro _ | apply And.intro | (simp [hh]; done) | split | dsimp only | simp [hh])

@[simp] theorem ptpMsg_keep_sec_otp (s : State) (m : PtpMsg) (f : Nat → State)  (hh : ∀ r, (f r).sec.otp = s.sec.otp) : (ptpMsg s m f).sec.otp = s.sec.otp := by
  unfold ptpMsg; repeat' (first | (with_reducible rfl) | (with_reducible assumption) | intro _ | apply And.intro | (simp [hh]; done) | split | dsimp only | simp [hh])

@[simp] theorem ptpSample_keep (s : State) (r : Nat) (t1 t2 delay : Int) : (ptpSample s r t1 t2 delay).pending = s.pending ∧ (ptpSample s r t1 t2 delay).sec.otp = s.sec.otp := by simp [ptpSample]

@[simp] theorem syncDone_keep (s : State) (r : Nat) (t1 : Int) : (syncDone s r t1).pending = s.pending ∧ (syncDone s r t1).sec.otp = s.sec.otp := by
  unfold syncDone; dsimp only; (repeat' split) <;> simp

@[simp] theorem lineLost_keep (s : State) (r : Nat) : (lineLost s r).pending = s.pending ∧ (lineLost s r).sec.otp = s.sec.otp := by simp [lineLost]

@[simp] theorem switchInput_keep (s : State) (i : Nat) : (switchInput s i).pending = s.pending ∧ (switchInput s i).sec.otp = s.sec.otp := by simp [switchInput]

@[simp] theorem inputUsable_keep (s : State) (i : Nat) : (inputUsable s i).pending = s.pending ∧ (inputUsable s i).sec.otp = s.sec.otp := ⟨rfl, rfl⟩

@[simp] theorem rjAppend_keep (s : State) (t : Nat) (g : ImpGrain) : (rjAppend s t g).pending = s.pending ∧ (rjAppend s t g).sec.otp = s.sec.otp := ⟨rfl, rfl⟩

@[simp] theorem replayStart_keep (s : State) : (replayStart s).pending = s.pending ∧ (replayStart s).sec.otp = s.sec.otp := by simp [replayStart]

@[simp] theorem closeStream_keep (s : State) (t : Nat) : (closeStream s t).pending = s.pending ∧ (closeStream s t).sec.otp = s.sec.otp := by
  unfold closeStream; dsimp only; split <;> simp

@[simp] theorem copyDrives_keep (s : State) : (copyDrives s).pending = s.pending ∧ (copyDrives s).sec.otp = s.sec.otp := ⟨rfl, rfl⟩

@[simp] theorem applyGroups_keep (s : State) (gs : List Nat) : (applyGroups s gs).pending = s.pending ∧ (applyGroups s gs).sec.otp = s.sec.otp := by simp [applyGroups]

@[simp] theorem applyWith_keep (s : State) (gs : List Nat) (req cjn : Nat) : (applyWith s gs req cjn).pending = s.pending ∧ (applyWith s gs req cjn).sec.otp = s.sec.otp := by simp [applyWith]

@[simp] theorem updateWrite_keep (s : State) (req w cjn : Nat) : (updateWrite s req w cjn).pending = s.pending ∧ (updateWrite s req w cjn).sec.otp = s.sec.otp := by simp [updateWrite]

@[simp] theorem eclassWrite_keep (s : State) (v cjn : Nat) : (eclassWrite s v cjn).pending = s.pending ∧ (eclassWrite s v cjn).sec.otp = s.sec.otp := by simp [eclassWrite]

@[simp] theorem rplRunWrite_keep (s : State) (v : Nat) : (rplRunWrite s v).pending = s.pending ∧ (rplRunWrite s v).sec.otp = s.sec.otp := by simp [rplRunWrite]

@[simp] theorem locksWrite_keep (s : State) (v : Nat) : (locksWrite s v).pending = s.pending ∧ (locksWrite s v).sec.otp = s.sec.otp := ⟨rfl, rfl⟩

@[simp] theorem guardedWrite_keep (s : State) (b off v cjn : Nat) : (guardedWrite s b off v cjn).pending = s.pending ∧ (guardedWrite s b off v cjn).sec.otp = s.sec.otp := by
  unfold guardedWrite; (repeat' split) <;> simp

@[simp] theorem openWrite_keep (s : State) (req b off v cjn : Nat) : (openWrite s req b off v cjn).pending = s.pending ∧ (openWrite s req b off v cjn).sec.otp = s.sec.otp := by
  unfold openWrite; (repeat' split) <;> simp

@[simp] theorem phyDataWrite_keep (s : State) (req addr b : Nat) (sp : Space) (v : Nat) : (phyDataWrite s req addr b sp v).st.pending = s.pending ∧ (phyDataWrite s req addr b sp v).st.sec.otp = s.sec.otp := by
  unfold phyDataWrite; dsimp only; (repeat' split) <;> simp

@[simp] theorem busWrite_keep (s : State) (req b off width v : Nat) (console : Bool) (cjn : Nat) : (busWrite s req b off width v console cjn).st.pending = s.pending ∧ (busWrite s req b off width v console cjn).st.sec.otp = s.sec.otp := by
  unfold busWrite; dsimp only; (repeat' split) <;> simp

@[simp] theorem postedTaken_keep (s : State) (b : Nat) : (postedTaken s b).pending = s.pending ∧ (postedTaken s b).sec.otp = s.sec.otp := by
  unfold postedTaken
  constructor
  · dsimp only
    split
    · rfl
    · refine (foldl_pending _ _ _ ?_).trans ?_
      · intro a x
        (repeat' split) <;> simp
      · split <;> simp
  · dsimp only
    split
    · rfl
    · refine (foldl_otp _ _ _ ?_).trans ?_
      · intro a x
        (repeat' split) <;> simp
      · split <;> simp

end Sys2Proof.Machine
end

