-- ==== Sys2Proof/Laws/KeepB.lean ====
section
/-! SUPPORT. What no operation changes, the queue of commands and one-time storage: the cores and their instructions. -/
set_option linter.unusedTactic false
set_option linter.unreachableTactic false
set_option linter.unusedSimpArgs false
set_option linter.unnecessarySeqFocus false
set_option linter.unnecessarySimpa false
set_option linter.unusedVariables false
namespace Sys2Proof.Machine

open Sys2Proof

@[simp] theorem setCore_keep (s : State) (c : Nat) (k : Core) : (setCore s c k).pending = s.pending ∧ (setCore s c k).sec.otp = s.sec.otp := ⟨rfl, rfl⟩

@[simp] theorem updCore_keep (s : State) (c : Nat) (f : Core → Core) : (updCore s c f).pending = s.pending ∧ (updCore s c f).sec.otp = s.sec.otp := ⟨rfl, rfl⟩

@[simp] theorem putReg_keep (s : State) (c w : Nat) (v : TWord) : (putReg s c w v).pending = s.pending ∧ (putReg s c w v).sec.otp = s.sec.otp := ⟨rfl, rfl⟩

@[simp] theorem deliver_keep (s : State) (c w : Nat) (v : TWord) : (deliver s c w v).st.pending = s.pending ∧ (deliver s c w v).st.sec.otp = s.sec.otp := by
  unfold deliver; split <;> simp

@[simp] theorem putMem_keep (s : State) (a : Nat) (w : TWord) : (putMem s a w).pending = s.pending ∧ (putMem s a w).sec.otp = s.sec.otp := ⟨rfl, rfl⟩

@[simp] theorem setAD_keep (s : State) (c n : Nat) (e : TlbEnt) (write : Bool) (miss : Trap) : (setAD s c n e write miss).st.pending = s.pending ∧ (setAD s c n e write miss).st.sec.otp = s.sec.otp := by
  unfold setAD; (repeat' split) <;> simp

@[simp] theorem xlate_keep (s : State) (c va kind : Nat) : (xlate s c va kind).st.pending = s.pending ∧ (xlate s c va kind).st.sec.otp = s.sec.otp := by
  unfold xlate; repeat' (first | (with_reducible rfl) | (with_reducible assumption) | intro _ | apply And.intro | (simp; done) | split | dsimp only | (with_reducible refine (Acs.bind_pending _ _ ?_).trans ?_) | (with_reducible refine (Acs.bind_otp _ _ ?_).trans ?_) | (with_reducible refine (Acs.fin_pending _ _ ?_).trans ?_) | (with_reducible refine (Acs.fin_otp _ _ ?_).trans ?_) | (with_reducible refine (Acs.each_pending _ _ _ ?_).trans ?_) | (with_reducible refine (Acs.each_otp _ _ _ ?_).trans ?_) | simp)

@[simp] theorem srPut_keep (s : State) (c va : Nat) (w : TWord) : (srPut s c va w).pending = s.pending ∧ (srPut s c va w).sec.otp = s.sec.otp := ⟨rfl, rfl⟩

@[simp] theorem devRead_keep (s : State) (c : Nat) (x : Xl) (width : Nat) : (devRead s c x width).st.pending = s.pending ∧ (devRead s c x width).st.sec.otp = s.sec.otp := by
  unfold devRead; dsimp only; split <;> simp

@[simp] theorem devWrite_keep (s : State) (c : Nat) (x : Xl) (w : TWord) (width : Nat) : (devWrite s c x w width).st.pending = s.pending ∧ (devWrite s c x w width).st.sec.otp = s.sec.otp := by
  unfold devWrite; dsimp only; (repeat' split) <;> simp

@[simp] theorem rdAt_keep (s : State) (c : Nat) (x : Xl) (width : Nat) : (rdAt s c x width).st.pending = s.pending ∧ (rdAt s c x width).st.sec.otp = s.sec.otp := by
  unfold rdAt; dsimp only; (repeat' split) <;> simp

@[simp] theorem wrAt_keep (s : State) (c : Nat) (x : Xl) (w : TWord) (width : Nat) : (wrAt s c x w width).st.pending = s.pending ∧ (wrAt s c x w width).st.sec.otp = s.sec.otp := by
  unfold wrAt; split <;> simp

@[simp] theorem wrAll_keep (s : State) (c : Nat) (l : List (Xl × TWord)) : (wrAll s c l).st.pending = s.pending ∧ (wrAll s c l).st.sec.otp = s.sec.otp := by
  unfold wrAll; repeat' (first | (with_reducible rfl) | (with_reducible assumption) | intro _ | apply And.intro | (simp; done) | split | dsimp only | (with_reducible refine (Acs.bind_pending _ _ ?_).trans ?_) | (with_reducible refine (Acs.bind_otp _ _ ?_).trans ?_) | (with_reducible refine (Acs.fin_pending _ _ ?_).trans ?_) | (with_reducible refine (Acs.fin_otp _ _ ?_).trans ?_) | (with_reducible refine (Acs.each_pending _ _ _ ?_).trans ?_) | (with_reducible refine (Acs.each_otp _ _ _ ?_).trans ?_) | simp)

@[simp] theorem ptrChk_keep (s : State) (v : BitVec 64) (kind : Nat) : (ptrChk s v kind).st.pending = s.pending ∧ (ptrChk s v kind).st.sec.otp = s.sec.otp := by
  unfold ptrChk; split <;> simp

@[simp] theorem addrChk_keep (s : State) (a : Int) (kind : Nat) : (addrChk s a kind).st.pending = s.pending ∧ (addrChk s a kind).st.sec.otp = s.sec.otp := by
  unfold addrChk; split <;> simp

@[simp] theorem ldWord_keep (s : State) (c va kind width : Nat) : (ldWord s c va kind width).st.pending = s.pending ∧ (ldWord s c va kind width).st.sec.otp = s.sec.otp := by
  unfold ldWord; repeat' (first | (with_reducible rfl) | (with_reducible assumption) | intro _ | apply And.intro | (simp; done) | split | dsimp only | (with_reducible refine (Acs.bind_pending _ _ ?_).trans ?_) | (with_reducible refine (Acs.bind_otp _ _ ?_).trans ?_) | (with_reducible refine (Acs.fin_pending _ _ ?_).trans ?_) | (with_reducible refine (Acs.fin_otp _ _ ?_).trans ?_) | (with_reducible refine (Acs.each_pending _ _ _ ?_).trans ?_) | (with_reducible refine (Acs.each_otp _ _ _ ?_).trans ?_) | simp)

@[simp] theorem ldCard_keep (s : State) (c va : Nat) : (ldCard s c va).st.pending = s.pending ∧ (ldCard s c va).st.sec.otp = s.sec.otp := by
  unfold ldCard; repeat' (first | (with_reducible rfl) | (with_reducible assumption) | intro _ | apply And.intro | (simp; done) | split | dsimp only | (with_reducible refine (Acs.bind_pending _ _ ?_).trans ?_) | (with_reducible refine (Acs.bind_otp _ _ ?_).trans ?_) | (with_reducible refine (Acs.fin_pending _ _ ?_).trans ?_) | (with_reducible refine (Acs.fin_otp _ _ ?_).trans ?_) | (with_reducible refine (Acs.each_pending _ _ _ ?_).trans ?_) | (with_reducible refine (Acs.each_otp _ _ _ ?_).trans ?_) | simp)

@[simp] theorem cardOf_keep (s : State) (c : Nat) (x : Xl) (w : TWord) : (cardOf s c x w).st.pending = s.pending ∧ (cardOf s c x w).st.sec.otp = s.sec.otp := by
  unfold cardOf
  constructor
  · split
    · refine (Acs.bind_pending _ _ ?_).trans ?_
      · intro a v
        refine (Acs.bind_pending _ _ ?_).trans ?_
        · intro a v
          split <;> rfl
        · simp only [ldCard_keep]
      · simp only [addrChk_keep]
    · rfl
  · split
    · refine (Acs.bind_otp _ _ ?_).trans ?_
      · intro a v
        refine (Acs.bind_otp _ _ ?_).trans ?_
        · intro a v
          split <;> rfl
        · simp only [ldCard_keep]
      · simp only [addrChk_keep]
    · rfl

@[simp] theorem stWord_keep (s : State) (c va : Nat) (w : TWord) (width : Nat) : (stWord s c va w width).st.pending = s.pending ∧ (stWord s c va w width).st.sec.otp = s.sec.otp := by
  unfold stWord; repeat' (first | (with_reducible rfl) | (with_reducible assumption) | intro _ | apply And.intro | (simp; done) | split | dsimp only | (with_reducible refine (Acs.bind_pending _ _ ?_).trans ?_) | (with_reducible refine (Acs.bind_otp _ _ ?_).trans ?_) | (with_reducible refine (Acs.fin_pending _ _ ?_).trans ?_) | (with_reducible refine (Acs.fin_otp _ _ ?_).trans ?_) | (with_reducible refine (Acs.each_pending _ _ _ ?_).trans ?_) | (with_reducible refine (Acs.each_otp _ _ _ ?_).trans ?_) | simp)

@[simp] theorem stWords_keep (s : State) (c : Nat) (l : List (Nat × TWord)) : (stWords s c l).st.pending = s.pending ∧ (stWords s c l).st.sec.otp = s.sec.otp := by
  unfold stWords; repeat' (first | (with_reducible rfl) | (with_reducible assumption) | intro _ | apply And.intro | (simp; done) | split | dsimp only | (with_reducible refine (Acs.bind_pending _ _ ?_).trans ?_) | (with_reducible refine (Acs.bind_otp _ _ ?_).trans ?_) | (with_reducible refine (Acs.fin_pending _ _ ?_).trans ?_) | (with_reducible refine (Acs.fin_otp _ _ ?_).trans ?_) | (with_reducible refine (Acs.each_pending _ _ _ ?_).trans ?_) | (with_reducible refine (Acs.each_otp _ _ _ ?_).trans ?_) | simp)

@[simp] theorem heal_keep (s : State) (c : Nat) (x : Xl) (old new : TWord) : (heal s c x old new).st.pending = s.pending ∧ (heal s c x old new).st.sec.otp = s.sec.otp := by
  unfold heal; repeat' (first | (with_reducible rfl) | (with_reducible assumption) | intro _ | apply And.intro | (simp; done) | split | dsimp only | (with_reducible refine (Acs.bind_pending _ _ ?_).trans ?_) | (with_reducible refine (Acs.bind_otp _ _ ?_).trans ?_) | (with_reducible refine (Acs.fin_pending _ _ ?_).trans ?_) | (with_reducible refine (Acs.fin_otp _ _ ?_).trans ?_) | (with_reducible refine (Acs.each_pending _ _ _ ?_).trans ?_) | (with_reducible refine (Acs.each_otp _ _ _ ?_).trans ?_) | simp)

@[simp] theorem barrierLoad_keep (s : State) (c : Nat) (x : Xl) (w : TWord) : (barrierLoad s c x w).st.pending = s.pending ∧ (barrierLoad s c x w).st.sec.otp = s.sec.otp := by
  unfold barrierLoad; repeat' (first | (with_reducible rfl) | (with_reducible assumption) | intro _ | apply And.intro | (simp; done) | split | dsimp only | (with_reducible refine (Acs.bind_pending _ _ ?_).trans ?_) | (with_reducible refine (Acs.bind_otp _ _ ?_).trans ?_) | (with_reducible refine (Acs.fin_pending _ _ ?_).trans ?_) | (with_reducible refine (Acs.fin_otp _ _ ?_).trans ?_) | (with_reducible refine (Acs.each_pending _ _ _ ?_).trans ?_) | (with_reducible refine (Acs.each_otp _ _ _ ?_).trans ?_) | simp)

@[simp] theorem tagChk_keep (s : State) (c : Nat) (w : TWord) : (tagChk s c w).st.pending = s.pending ∧ (tagChk s c w).st.sec.otp = s.sec.otp := by
  unfold tagChk; (repeat' split) <;> simp

@[simp] theorem loadSlot_keep (s : State) (c rd va width : Nat) : (loadSlot s c rd va width).st.pending = s.pending ∧ (loadSlot s c rd va width).st.sec.otp = s.sec.otp := by
  unfold loadSlot; repeat' (first | (with_reducible rfl) | (with_reducible assumption) | intro _ | apply And.intro | (simp; done) | split | dsimp only | (with_reducible refine (Acs.bind_pending _ _ ?_).trans ?_) | (with_reducible refine (Acs.bind_otp _ _ ?_).trans ?_) | (with_reducible refine (Acs.fin_pending _ _ ?_).trans ?_) | (with_reducible refine (Acs.fin_otp _ _ ?_).trans ?_) | (with_reducible refine (Acs.each_pending _ _ _ ?_).trans ?_) | (with_reducible refine (Acs.each_otp _ _ _ ?_).trans ?_) | simp)

@[simp] theorem setService_keep (s : State) (c : Nat) (on : Bool) : (setService s c on).pending = s.pending ∧ (setService s c on).sec.otp = s.sec.otp := ⟨rfl, rfl⟩

@[simp] theorem setPairService_keep (s : State) (k : Nat) (on : Bool) : (setPairService s k on).pending = s.pending ∧ (setPairService s k on).sec.otp = s.sec.otp := ⟨rfl, rfl⟩

@[simp] theorem updInput_keep (s : State) (t n : Nat) (f : Input → Input) : (updInput s t n f).pending = s.pending ∧ (updInput s t n f).sec.otp = s.sec.otp := ⟨rfl, rfl⟩

@[simp] theorem dropBind_keep (s : State) (c : Nat) : (dropBind s c).pending = s.pending ∧ (dropBind s c).sec.otp = s.sec.otp := ⟨rfl, rfl⟩

@[simp] theorem abandon_keep (s : State) (c cause reason : Nat) (pair : Bool) : (abandon s c cause reason pair).pending = s.pending ∧ (abandon s c cause reason pair).sec.otp = s.sec.otp := by
  unfold abandon; split <;> simp

@[simp] theorem coreFault_keep (s : State) (c cause reason : Nat) : (coreFault s c cause reason).pending = s.pending ∧ (coreFault s c cause reason).sec.otp = s.sec.otp := by simp [coreFault]

@[simp] theorem voidInput_keep (s : State) (t n reason : Nat) : (voidInput s t n reason).pending = s.pending ∧ (voidInput s t n reason).sec.otp = s.sec.otp := by
  unfold voidInput; split <;> simp

@[simp] theorem ackFor_keep (s : State) (froms : List Nat) : (ackFor s froms).pending = s.pending ∧ (ackFor s froms).sec.otp = s.sec.otp := by simp [ackFor]

@[simp] theorem stopCore_keep (s : State) (c cause reason : Nat) : (stopCore s c cause reason).pending = s.pending ∧ (stopCore s c cause reason).sec.otp = s.sec.otp := by simp [stopCore]

@[simp] theorem escalate_keep (s : State) (c cause reason target esc ret info : Nat) : (escalate s c cause reason target esc ret info).pending = s.pending ∧ (escalate s c cause reason target esc ret info).sec.otp = s.sec.otp := by simp [escalate]

@[simp] theorem raiseAt_keep (s : State) (c : Nat) (t : Trap) (ret : Nat) : (raiseAt s c t ret).pending = s.pending ∧ (raiseAt s c t ret).sec.otp = s.sec.otp := by simp [raiseAt]

@[simp] theorem raiseTrap_keep (s : State) (c : Nat) (t : Trap) : (raiseTrap s c t).pending = s.pending ∧ (raiseTrap s c t).sec.otp = s.sec.otp := by simp [raiseTrap]

@[simp] theorem deliverRestart_keep (s : State) (c : Nat) : (deliverRestart s c).pending = s.pending ∧ (deliverRestart s c).sec.otp = s.sec.otp := by simp [deliverRestart]

@[simp] theorem restartPartner_keep (s0 s1 : State) (c : Nat) : (restartPartner s0 s1 c).pending = s1.pending ∧ (restartPartner s0 s1 c).sec.otp = s1.sec.otp := by
  unfold restartPartner; (repeat' split) <;> simp

@[simp] theorem trapCore_keep (s : State) (c : Nat) (t : Trap) : (trapCore s c t).pending = s.pending ∧ (trapCore s c t).sec.otp = s.sec.otp := by simp [trapCore]

@[simp] theorem removePair_keep (s : State) (p kind : Nat) : (removePair s p kind).pending = s.pending ∧ (removePair s p kind).sec.otp = s.sec.otp := by simp [removePair]

@[simp] theorem pairFault_keep (s : State) (c kind pos unit op : Nat) : (pairFault s c kind pos unit op).pending = s.pending ∧ (pairFault s c kind pos unit op).sec.otp = s.sec.otp := by simp [pairFault]

@[simp] theorem fetch_keep (s : State) (c : Nat) : (fetch s c).st.pending = s.pending ∧ (fetch s c).st.sec.otp = s.sec.otp := by
  unfold fetch; repeat' (first | (with_reducible rfl) | (with_reducible assumption) | intro _ | apply And.intro | (simp; done) | split | dsimp only | (with_reducible refine (Acs.bind_pending _ _ ?_).trans ?_) | (with_reducible refine (Acs.bind_otp _ _ ?_).trans ?_) | (with_reducible refine (Acs.fin_pending _ _ ?_).trans ?_) | (with_reducible refine (Acs.fin_otp _ _ ?_).trans ?_) | (with_reducible refine (Acs.each_pending _ _ _ ?_).trans ?_) | (with_reducible refine (Acs.each_otp _ _ _ ?_).trans ?_) | simp)

@[simp] theorem retire_keep (s : State) (c lvl pc : Nat) : (retire s c lvl pc).pending = s.pending ∧ (retire s c lvl pc).sec.otp = s.sec.otp := ⟨rfl, rfl⟩

@[simp] theorem endInsn_keep (s0 : State) (c : Nat) (r : IRes) : (endInsn s0 c r).pending = r.st.pending ∧ (endInsn s0 c r).sec.otp = r.st.sec.otp := by
  unfold endInsn; cases r <;> simp

theorem runInsn_keep (c enc : Nat) (body : State → IRes) (s : State) (h1 : ∀ a, (body a).st.pending = a.pending)
    (h2 : ∀ a, (body a).st.sec.otp = a.sec.otp) : ∃ x, runInsn c enc body s = .next x ∧ x.pending = s.pending ∧ x.sec.otp = s.sec.otp := by
  have hf := fetch_keep s c
  unfold runInsn
  split
  · exact ⟨s, rfl, rfl, rfl⟩
  · split
    · rename_i s1 t e; rw [e] at hf; exact ⟨_, rfl, by simpa using hf⟩
    · rename_i s1 w e; rw [e] at hf
      split
      · exact ⟨_, rfl, by simpa using hf⟩
      · split
        · exact ⟨_, rfl, rfl, rfl⟩
        · exact ⟨_, rfl, by simp [h1, h2]; simpa using hf⟩

@[simp] theorem chk_keep_pending (s : State) (l : List (Bool × Trap)) (f : IRes)  (hh : f.st.pending = s.pending) : (chk s l f).st.pending = s.pending := by
  unfold chk; repeat' (first | (with_reducible rfl) | (with_reducible assumption) | intro _ | apply And.intro | (simp [hh]; done) | split | dsimp only | simp [hh])

@[simp] theorem chk_keep_sec_otp (s : State) (l : List (Bool × Trap)) (f : IRes)  (hh : f.st.sec.otp = s.sec.otp) : (chk s l f).st.sec.otp = s.sec.otp := by
  unfold chk; repeat' (first | (with_reducible rfl) | (with_reducible assumption) | intro _ | apply And.intro | (simp [hh]; done) | split | dsimp only | simp [hh])

@[simp] theorem consume_keep_pending (s : State) (ws : List TWord) (f : IRes)  (hh : f.st.pending = s.pending) : (consume s ws f).st.pending = s.pending := by
  unfold consume; repeat' (first | (with_reducible rfl) | (with_reducible assumption) | intro _ | apply And.intro | (simp [hh]; done) | split | dsimp only | simp [hh])

@[simp] theorem consume_keep_sec_otp (s : State) (ws : List TWord) (f : IRes)  (hh : f.st.sec.otp = s.sec.otp) : (consume s ws f).st.sec.otp = s.sec.otp := by
  unfold consume; repeat' (first | (with_reducible rfl) | (with_reducible assumption) | intro _ | apply And.intro | (simp [hh]; done) | split | dsimp only | simp [hh])

@[simp] theorem objWord_keep (s : State) (c a i : Nat) : (objWord s c a i).st.pending = s.pending ∧ (objWord s c a i).st.sec.otp = s.sec.otp := by
  unfold objWord; first | (((repeat' split) <;> simp); done) | (repeat' (first | (with_reducible rfl) | (with_reducible assumption) | intro _ | apply And.intro | (simp; done) | split | dsimp only | (with_reducible refine (Acs.bind_pending _ _ ?_).trans ?_) | (with_reducible refine (Acs.bind_otp _ _ ?_).trans ?_) | (with_reducible refine (Acs.fin_pending _ _ ?_).trans ?_) | (with_reducible refine (Acs.fin_otp _ _ ?_).trans ?_) | (with_reducible refine (Acs.each_pending _ _ _ ?_).trans ?_) | (with_reducible refine (Acs.each_otp _ _ _ ?_).trans ?_) | simp))

@[simp] theorem objWords_keep (s : State) (c a : Nat) (is : List Nat) : (objWords s c a is).st.pending = s.pending ∧ (objWords s c a is).st.sec.otp = s.sec.otp := by
  unfold objWords; repeat' (first | (with_reducible rfl) | (with_reducible assumption) | intro _ | apply And.intro | (simp; done) | split | dsimp only | (with_reducible refine (Acs.bind_pending _ _ ?_).trans ?_) | (with_reducible refine (Acs.bind_otp _ _ ?_).trans ?_) | (with_reducible refine (Acs.fin_pending _ _ ?_).trans ?_) | (with_reducible refine (Acs.fin_otp _ _ ?_).trans ?_) | (with_reducible refine (Acs.each_pending _ _ _ ?_).trans ?_) | (with_reducible refine (Acs.each_otp _ _ _ ?_).trans ?_) | simp)

@[simp] theorem objHeader_keep (s : State) (c : Nat) (w : TWord) : (objHeader s c w).st.pending = s.pending ∧ (objHeader s c w).st.sec.otp = s.sec.otp := by
  unfold objHeader; repeat' (first | (with_reducible rfl) | (with_reducible assumption) | intro _ | apply And.intro | (simp; done) | split | dsimp only | (with_reducible refine (Acs.bind_pending _ _ ?_).trans ?_) | (with_reducible refine (Acs.bind_otp _ _ ?_).trans ?_) | (with_reducible refine (Acs.fin_pending _ _ ?_).trans ?_) | (with_reducible refine (Acs.fin_otp _ _ ?_).trans ?_) | (with_reducible refine (Acs.each_pending _ _ _ ?_).trans ?_) | (with_reducible refine (Acs.each_otp _ _ _ ?_).trans ?_) | simp)

@[simp] theorem readInt_keep (s : State) (c : Nat) (w : TWord) : (readInt s c w).st.pending = s.pending ∧ (readInt s c w).st.sec.otp = s.sec.otp := by
  unfold readInt; repeat' (first | (with_reducible rfl) | (with_reducible assumption) | intro _ | apply And.intro | (simp; done) | split | dsimp only | (with_reducible refine (Acs.bind_pending _ _ ?_).trans ?_) | (with_reducible refine (Acs.bind_otp _ _ ?_).trans ?_) | (with_reducible refine (Acs.fin_pending _ _ ?_).trans ?_) | (with_reducible refine (Acs.fin_otp _ _ ?_).trans ?_) | (with_reducible refine (Acs.each_pending _ _ _ ?_).trans ?_) | (with_reducible refine (Acs.each_otp _ _ _ ?_).trans ?_) | simp)

@[simp] theorem readNum_keep (s : State) (c : Nat) (w : TWord) : (readNum s c w).st.pending = s.pending ∧ (readNum s c w).st.sec.otp = s.sec.otp := by
  unfold readNum; repeat' (first | (with_reducible rfl) | (with_reducible assumption) | intro _ | apply And.intro | (simp; done) | split | dsimp only | (with_reducible refine (Acs.bind_pending _ _ ?_).trans ?_) | (with_reducible refine (Acs.bind_otp _ _ ?_).trans ?_) | (with_reducible refine (Acs.fin_pending _ _ ?_).trans ?_) | (with_reducible refine (Acs.fin_otp _ _ ?_).trans ?_) | (with_reducible refine (Acs.each_pending _ _ _ ?_).trans ?_) | (with_reducible refine (Acs.each_otp _ _ _ ?_).trans ?_) | simp)

@[simp] theorem plainWords_keep (s : State) (c : Nat) (l : List (Nat × TWord)) : (plainWords s c l).st.pending = s.pending ∧ (plainWords s c l).st.sec.otp = s.sec.otp := by
  unfold plainWords; repeat' (first | (with_reducible rfl) | (with_reducible assumption) | intro _ | apply And.intro | (simp; done) | split | dsimp only | (with_reducible refine (Acs.bind_pending _ _ ?_).trans ?_) | (with_reducible refine (Acs.bind_otp _ _ ?_).trans ?_) | (with_reducible refine (Acs.fin_pending _ _ ?_).trans ?_) | (with_reducible refine (Acs.fin_otp _ _ ?_).trans ?_) | (with_reducible refine (Acs.each_pending _ _ _ ?_).trans ?_) | (with_reducible refine (Acs.each_otp _ _ _ ?_).trans ?_) | simp)

@[simp] theorem putRegs_keep (s : State) (c : Nat) (dests : List (Nat × TWord)) : (putRegs s c dests).pending = s.pending ∧ (putRegs s c dests).sec.otp = s.sec.otp := by simp [putRegs]

@[simp] theorem allocDeliver_keep (s : State) (c reserve : Nat) (barrier : Bool) (objs : List NewObj) (dests : List (Nat × TWord)) : (allocDeliver s c reserve barrier objs dests).st.pending = s.pending ∧ (allocDeliver s c reserve barrier objs dests).st.sec.otp = s.sec.otp := by
  unfold allocDeliver; repeat' (first | (with_reducible rfl) | (with_reducible assumption) | intro _ | apply And.intro | (simp; done) | split | dsimp only | (with_reducible refine (Acs.bind_pending _ _ ?_).trans ?_) | (with_reducible refine (Acs.bind_otp _ _ ?_).trans ?_) | (with_reducible refine (Acs.fin_pending _ _ ?_).trans ?_) | (with_reducible refine (Acs.fin_otp _ _ ?_).trans ?_) | (with_reducible refine (Acs.each_pending _ _ _ ?_).trans ?_) | (with_reducible refine (Acs.each_otp _ _ _ ?_).trans ?_) | simp)

@[simp] theorem deliverNum_keep (s : State) (c rd : Nat) (n d : Int) (reserve : Nat) : (deliverNum s c rd n d reserve).st.pending = s.pending ∧ (deliverNum s c rd n d reserve).st.sec.otp = s.sec.otp := by
  unfold deliverNum; dsimp only; (repeat' split) <;> simp

@[simp] theorem deliverMoney_keep (s : State) (c rd : Nat) (n : Int) : (deliverMoney s c rd n).st.pending = s.pending ∧ (deliverMoney s c rd n).st.sec.otp = s.sec.otp := by
  unfold deliverMoney; split <;> simp

@[simp] theorem deliverTime_keep (s : State) (c rd : Nat) (n : Int) : (deliverTime s c rd n).st.pending = s.pending ∧ (deliverTime s c rd n).st.sec.otp = s.sec.otp := by
  unfold deliverTime; split <;> simp

@[simp] theorem genSum_keep (s : State) (c rd : Nat) (x y : TWord) (neg : Bool) : (genSum s c rd x y neg).st.pending = s.pending ∧ (genSum s c rd x y neg).st.sec.otp = s.sec.otp := by
  unfold genSum; repeat' (first | (with_reducible rfl) | (with_reducible assumption) | intro _ | apply And.intro | (simp; done) | split | dsimp only | (with_reducible refine (Acs.bind_pending _ _ ?_).trans ?_) | (with_reducible refine (Acs.bind_otp _ _ ?_).trans ?_) | (with_reducible refine (Acs.fin_pending _ _ ?_).trans ?_) | (with_reducible refine (Acs.fin_otp _ _ ?_).trans ?_) | (with_reducible refine (Acs.each_pending _ _ _ ?_).trans ?_) | (with_reducible refine (Acs.each_otp _ _ _ ?_).trans ?_) | with_reducible apply consume_keep_pending | with_reducible apply consume_keep_sec_otp | simp)

@[simp] theorem moneyByInt_keep (s : State) (c rd : Nat) (m y : TWord) : (moneyByInt s c rd m y).st.pending = s.pending ∧ (moneyByInt s c rd m y).st.sec.otp = s.sec.otp := by
  unfold moneyByInt; repeat' (first | (with_reducible rfl) | (with_reducible assumption) | intro _ | apply And.intro | (simp; done) | split | dsimp only | (with_reducible refine (Acs.bind_pending _ _ ?_).trans ?_) | (with_reducible refine (Acs.bind_otp _ _ ?_).trans ?_) | (with_reducible refine (Acs.fin_pending _ _ ?_).trans ?_) | (with_reducible refine (Acs.fin_otp _ _ ?_).trans ?_) | (with_reducible refine (Acs.each_pending _ _ _ ?_).trans ?_) | (with_reducible refine (Acs.each_otp _ _ _ ?_).trans ?_) | simp)

@[simp] theorem moneyByRatio_keep (s : State) (c rd rd2 : Nat) (m y : TWord) : (moneyByRatio s c rd rd2 m y).st.pending = s.pending ∧ (moneyByRatio s c rd rd2 m y).st.sec.otp = s.sec.otp := by
  unfold moneyByRatio; repeat' (first | (with_reducible rfl) | (with_reducible assumption) | intro _ | apply And.intro | (simp; done) | split | dsimp only | (with_reducible refine (Acs.bind_pending _ _ ?_).trans ?_) | (with_reducible refine (Acs.bind_otp _ _ ?_).trans ?_) | (with_reducible refine (Acs.fin_pending _ _ ?_).trans ?_) | (with_reducible refine (Acs.fin_otp _ _ ?_).trans ?_) | (with_reducible refine (Acs.each_pending _ _ _ ?_).trans ?_) | (with_reducible refine (Acs.each_otp _ _ _ ?_).trans ?_) | simp)

@[simp] theorem genMul_keep (s : State) (c rd rd2 : Nat) (x y : TWord) : (genMul s c rd rd2 x y).st.pending = s.pending ∧ (genMul s c rd rd2 x y).st.sec.otp = s.sec.otp := by
  unfold genMul; repeat' (first | (with_reducible rfl) | (with_reducible assumption) | intro _ | apply And.intro | (simp; done) | split | dsimp only | (with_reducible refine (Acs.bind_pending _ _ ?_).trans ?_) | (with_reducible refine (Acs.bind_otp _ _ ?_).trans ?_) | (with_reducible refine (Acs.fin_pending _ _ ?_).trans ?_) | (with_reducible refine (Acs.fin_otp _ _ ?_).trans ?_) | (with_reducible refine (Acs.each_pending _ _ _ ?_).trans ?_) | (with_reducible refine (Acs.each_otp _ _ _ ?_).trans ?_) | with_reducible apply consume_keep_pending | with_reducible apply consume_keep_sec_otp | simp)

@[simp] theorem genDiv_keep (s : State) (c rd : Nat) (x y : TWord) : (genDiv s c rd x y).st.pending = s.pending ∧ (genDiv s c rd x y).st.sec.otp = s.sec.otp := by
  unfold genDiv; repeat' (first | (with_reducible rfl) | (with_reducible assumption) | intro _ | apply And.intro | (simp; done) | split | dsimp only | (with_reducible refine (Acs.bind_pending _ _ ?_).trans ?_) | (with_reducible refine (Acs.bind_otp _ _ ?_).trans ?_) | (with_reducible refine (Acs.fin_pending _ _ ?_).trans ?_) | (with_reducible refine (Acs.fin_otp _ _ ?_).trans ?_) | (with_reducible refine (Acs.each_pending _ _ _ ?_).trans ?_) | (with_reducible refine (Acs.each_otp _ _ _ ?_).trans ?_) | with_reducible apply consume_keep_pending | with_reducible apply consume_keep_sec_otp | simp)

@[simp] theorem genMdivi_keep (s : State) (c rd rd2 : Nat) (x y : TWord) : (genMdivi s c rd rd2 x y).st.pending = s.pending ∧ (genMdivi s c rd rd2 x y).st.sec.otp = s.sec.otp := by
  unfold genMdivi; repeat' (first | (with_reducible rfl) | (with_reducible assumption) | intro _ | apply And.intro | (simp; done) | split | dsimp only | with_reducible apply consume_keep_pending | with_reducible apply consume_keep_sec_otp | simp)

@[simp] theorem genCmp_keep (s : State) (c rd : Nat) (x y : TWord) : (genCmp s c rd x y).st.pending = s.pending ∧ (genCmp s c rd x y).st.sec.otp = s.sec.otp := by
  unfold genCmp; repeat' (first | (with_reducible rfl) | (with_reducible assumption) | intro _ | apply And.intro | (simp; done) | split | dsimp only | (with_reducible refine (Acs.bind_pending _ _ ?_).trans ?_) | (with_reducible refine (Acs.bind_otp _ _ ?_).trans ?_) | (with_reducible refine (Acs.fin_pending _ _ ?_).trans ?_) | (with_reducible refine (Acs.fin_otp _ _ ?_).trans ?_) | (with_reducible refine (Acs.each_pending _ _ _ ?_).trans ?_) | (with_reducible refine (Acs.each_otp _ _ _ ?_).trans ?_) | with_reducible apply consume_keep_pending | with_reducible apply consume_keep_sec_otp | simp)

@[simp] theorem bitOp_keep (s : State) (c rd : Nat) (x y : TWord) (op : BitVec 64 → BitVec 64 → BitVec 64) : (bitOp s c rd x y op).st.pending = s.pending ∧ (bitOp s c rd x y op).st.sec.otp = s.sec.otp := by
  unfold bitOp; repeat' (first | (with_reducible rfl) | (with_reducible assumption) | intro _ | apply And.intro | (simp; done) | split | dsimp only | with_reducible apply consume_keep_pending | with_reducible apply consume_keep_sec_otp | simp)

@[simp] theorem shiftOp_keep (s : State) (c rd : Nat) (x y : TWord) (op : BitVec 64 → Nat → BitVec 64) : (shiftOp s c rd x y op).st.pending = s.pending ∧ (shiftOp s c rd x y op).st.sec.otp = s.sec.otp := by
  unfold shiftOp; repeat' (first | (with_reducible rfl) | (with_reducible assumption) | intro _ | apply And.intro | (simp; done) | split | dsimp only | with_reducible apply consume_keep_pending | with_reducible apply consume_keep_sec_otp | simp)

theorem bitInsn_keep (core : Nat) (f : RF) (func : Nat) (op : BitVec 64 → BitVec 64 → BitVec 64)  (s : State) : ∃ x, bitInsn core f func op s = .next x ∧ x.pending = s.pending ∧ x.sec.otp = s.sec.otp := by
  unfold bitInsn; with_reducible apply runInsn_keep <;> (repeat' (first | (with_reducible rfl) | (with_reducible assumption) | intro _ | apply And.intro | (simp; done) | split | dsimp only | with_reducible apply chk_keep_pending | with_reducible apply chk_keep_sec_otp | simp))

theorem shiftInsn_keep (core : Nat) (f : RF) (func : Nat) (op : BitVec 64 → Nat → BitVec 64)  (s : State) : ∃ x, shiftInsn core f func op s = .next x ∧ x.pending = s.pending ∧ x.sec.otp = s.sec.otp := by
  unfold shiftInsn; with_reducible apply runInsn_keep <;> (repeat' (first | (with_reducible rfl) | (with_reducible assumption) | intro _ | apply And.intro | (simp; done) | split | dsimp only | with_reducible apply chk_keep_pending | with_reducible apply chk_keep_sec_otp | simp))

@[simp] theorem cellRead_keep (s : State) (c rd : Nat) (x : TWord) (i : Nat) : (cellRead s c rd x i).st.pending = s.pending ∧ (cellRead s c rd x i).st.sec.otp = s.sec.otp := by
  unfold cellRead; repeat' (first | (with_reducible rfl) | (with_reducible assumption) | intro _ | apply And.intro | (simp; done) | split | dsimp only | (with_reducible refine (Acs.bind_pending _ _ ?_).trans ?_) | (with_reducible refine (Acs.bind_otp _ _ ?_).trans ?_) | (with_reducible refine (Acs.fin_pending _ _ ?_).trans ?_) | (with_reducible refine (Acs.fin_otp _ _ ?_).trans ?_) | (with_reducible refine (Acs.each_pending _ _ _ ?_).trans ?_) | (with_reducible refine (Acs.each_otp _ _ _ ?_).trans ?_) | with_reducible apply consume_keep_pending | with_reducible apply consume_keep_sec_otp | simp)

@[simp] theorem cellWrite_keep (s : State) (c : Nat) (x v : TWord) (i : Nat) : (cellWrite s c x v i).st.pending = s.pending ∧ (cellWrite s c x v i).st.sec.otp = s.sec.otp := by
  unfold cellWrite; repeat' (first | (with_reducible rfl) | (with_reducible assumption) | intro _ | apply And.intro | (simp; done) | split | dsimp only | (with_reducible refine (Acs.bind_pending _ _ ?_).trans ?_) | (with_reducible refine (Acs.bind_otp _ _ ?_).trans ?_) | (with_reducible refine (Acs.fin_pending _ _ ?_).trans ?_) | (with_reducible refine (Acs.fin_otp _ _ ?_).trans ?_) | (with_reducible refine (Acs.each_pending _ _ _ ?_).trans ?_) | (with_reducible refine (Acs.each_otp _ _ _ ?_).trans ?_) | with_reducible apply consume_keep_pending | with_reducible apply consume_keep_sec_otp | simp)

@[simp] theorem lenCells_keep  (x0 : Nat) (s : State) (x2 : Nat) (x3 : TWord) (x4 : Nat) : (lenCells  x0 s x2 x3 x4).st.pending = s.pending ∧ (lenCells  x0 s x2 x3 x4).st.sec.otp = s.sec.otp := by
  induction x0 generalizing s x3 x4 with
  | zero => unfold lenCells; (repeat' split) <;> first | contradiction | exact ⟨rfl, rfl⟩ | simp_all
  | succ k ih =>
    unfold lenCells
    dsimp only
    refine ⟨?_, ?_⟩
    · split
      · rfl
      · split
        · rfl
        · split
          · rfl
          · refine (Acs.bind_pending _ _ ?_).trans (by simp)
            intro a v
            refine (Acs.bind_pending _ _ ?_).trans (by simp)
            intro a v
            refine (Acs.bind_pending _ _ ?_).trans (by simp)
            intro a v
            refine (Acs.bind_pending _ _ ?_).trans (by simp)
            intro a v
            exact (ih _ _ _).1
    · split
      · rfl
      · split
        · rfl
        · split
          · rfl
          · refine (Acs.bind_otp _ _ ?_).trans (by simp)
            intro a v
            refine (Acs.bind_otp _ _ ?_).trans (by simp)
            intro a v
            refine (Acs.bind_otp _ _ ?_).trans (by simp)
            intro a v
            refine (Acs.bind_otp _ _ ?_).trans (by simp)
            intro a v
            exact (ih _ _ _).2

@[simp] theorem strLen_keep (s : State) (c : Nat) (w : TWord) : (strLen s c w).st.pending = s.pending ∧ (strLen s c w).st.sec.otp = s.sec.otp := by
  unfold strLen; repeat' (first | (with_reducible rfl) | (with_reducible assumption) | intro _ | apply And.intro | (simp; done) | split | dsimp only | (with_reducible refine (Acs.bind_pending _ _ ?_).trans ?_) | (with_reducible refine (Acs.bind_otp _ _ ?_).trans ?_) | (with_reducible refine (Acs.fin_pending _ _ ?_).trans ?_) | (with_reducible refine (Acs.fin_otp _ _ ?_).trans ?_) | (with_reducible refine (Acs.each_pending _ _ _ ?_).trans ?_) | (with_reducible refine (Acs.each_otp _ _ _ ?_).trans ?_) | simp)

@[simp] theorem bodyAddr_keep (s : State) (c : Nat) (x i : TWord) : (bodyAddr s c x i).st.pending = s.pending ∧ (bodyAddr s c x i).st.sec.otp = s.sec.otp := by
  unfold bodyAddr; repeat' (first | (with_reducible rfl) | (with_reducible assumption) | intro _ | apply And.intro | (simp; done) | split | dsimp only | (with_reducible refine (Acs.bind_pending _ _ ?_).trans ?_) | (with_reducible refine (Acs.bind_otp _ _ ?_).trans ?_) | (with_reducible refine (Acs.fin_pending _ _ ?_).trans ?_) | (with_reducible refine (Acs.fin_otp _ _ ?_).trans ?_) | (with_reducible refine (Acs.each_pending _ _ _ ?_).trans ?_) | (with_reducible refine (Acs.each_otp _ _ _ ?_).trans ?_) | simp)

@[simp] theorem strWord_keep (s : State) (c : Nat) (x i : TWord) : (strWord s c x i).st.pending = s.pending ∧ (strWord s c x i).st.sec.otp = s.sec.otp := by
  unfold strWord; repeat' (first | (with_reducible rfl) | (with_reducible assumption) | intro _ | apply And.intro | (simp; done) | split | dsimp only | (with_reducible refine (Acs.bind_pending _ _ ?_).trans ?_) | (with_reducible refine (Acs.bind_otp _ _ ?_).trans ?_) | (with_reducible refine (Acs.fin_pending _ _ ?_).trans ?_) | (with_reducible refine (Acs.fin_otp _ _ ?_).trans ?_) | (with_reducible refine (Acs.each_pending _ _ _ ?_).trans ?_) | (with_reducible refine (Acs.each_otp _ _ _ ?_).trans ?_) | simp)

@[simp] theorem newObject_keep (s : State) (c rd : Nat) (tag : BitVec 8) (barrier : Bool) (body : List TWord) : (newObject s c rd tag barrier body).st.pending = s.pending ∧ (newObject s c rd tag barrier body).st.sec.otp = s.sec.otp := by simp [newObject]

@[simp] theorem poisonWord_keep (s : State) (pa : Nat) : (poisonWord s pa).pending = s.pending ∧ (poisonWord s pa).sec.otp = s.sec.otp := ⟨rfl, rfl⟩

@[simp] theorem dramUe_keep (s : State) (pa src : Nat) : (dramUe s pa src).pending = s.pending ∧ (dramUe s pa src).sec.otp = s.sec.otp := by simp [dramUe]

@[simp] theorem dramCe_keep (s : State) (ch dev : Nat) : (dramCe s ch dev).pending = s.pending ∧ (dramCe s ch dev).sec.otp = s.sec.otp := by simp [dramCe]

@[simp] theorem cluBump_keep (s : State) (c off : Nat) : (cluBump s c off).pending = s.pending ∧ (cluBump s c off).sec.otp = s.sec.otp := by simp [cluBump]

@[simp] theorem cluBumpSat_keep (s : State) (c off : Nat) : (cluBumpSat s c off).pending = s.pending ∧ (cluBumpSat s c off).sec.otp = s.sec.otp := by simp [cluBumpSat]

@[simp] theorem memEvent_keep (s : State) (c : Nat) (e : MemEv) : (memEvent s c e).1.pending = s.pending ∧ (memEvent s c e).1.sec.otp = s.sec.otp := by
  unfold memEvent; split <;> simp

@[simp] theorem memEvents_keep (s : State) (c : Nat) (l : List MemEv) : (memEvents s c l).1.pending = s.pending ∧ (memEvents s c l).1.sec.otp = s.sec.otp := by simp [memEvents]

theorem withEvents_keep_pending (s : State) (c : Nat) (ev : List MemEv) (va : State → Nat) (f : State → IRes) (hh : ∀ a, (f a).st.pending = a.pending) :
    (withEvents s c ev va f).st.pending = s.pending := by
  unfold withEvents
  dsimp only
  split
  · simp
  · split
    · simp
    · have h := hh (memEvents s c ev).1
      split
      · rename_i e; rw [e] at h; simpa using h
      · split
        · simp
        · simpa using h

theorem withEvents_keep_sec_otp (s : State) (c : Nat) (ev : List MemEv) (va : State → Nat) (f : State → IRes) (hh : ∀ a, (f a).st.sec.otp = a.sec.otp) :
    (withEvents s c ev va f).st.sec.otp = s.sec.otp := by
  unfold withEvents
  dsimp only
  split
  · simp
  · split
    · simp
    · have h := hh (memEvents s c ev).1
      split
      · rename_i e; rw [e] at h; simpa using h
      · split
        · simp
        · simpa using h

@[simp] theorem effAddr_keep (s : State) (c : Nat) (w : TWord) (imm : Int) (kind : Nat) : (effAddr s c w imm kind).st.pending = s.pending ∧ (effAddr s c w imm kind).st.sec.otp = s.sec.otp := by
  unfold effAddr; (repeat' split) <;> simp

@[simp] theorem alignChk_keep (s : State) (c a kind : Nat) : (alignChk s c a kind).st.pending = s.pending ∧ (alignChk s c a kind).st.sec.otp = s.sec.otp := by
  unfold alignChk; dsimp only; (repeat' split) <;> simp

@[simp] theorem wordAddr_keep (s : State) (c : Nat) (w : TWord) (imm : Int) (kind : Nat) : (wordAddr s c w imm kind).st.pending = s.pending ∧ (wordAddr s c w imm kind).st.sec.otp = s.sec.otp := by
  unfold wordAddr; repeat' (first | (with_reducible rfl) | (with_reducible assumption) | intro _ | apply And.intro | (simp; done) | split | dsimp only | (with_reducible refine (Acs.bind_pending _ _ ?_).trans ?_) | (with_reducible refine (Acs.bind_otp _ _ ?_).trans ?_) | (with_reducible refine (Acs.fin_pending _ _ ?_).trans ?_) | (with_reducible refine (Acs.fin_otp _ _ ?_).trans ?_) | (with_reducible refine (Acs.each_pending _ _ _ ?_).trans ?_) | (with_reducible refine (Acs.each_otp _ _ _ ?_).trans ?_) | simp)

theorem loadInsn_keep (core op : Nat) (f : IF) (ev : List MemEv)  (s : State) : ∃ x, loadInsn core op f ev s = .next x ∧ x.pending = s.pending ∧ x.sec.otp = s.sec.otp := by
  unfold loadInsn; with_reducible apply runInsn_keep <;> (repeat' (first | (with_reducible rfl) | (with_reducible assumption) | intro _ | apply And.intro | (simp; done) | split | dsimp only | (with_reducible refine (Acs.bind_pending _ _ ?_).trans ?_) | (with_reducible refine (Acs.bind_otp _ _ ?_).trans ?_) | (with_reducible refine (Acs.fin_pending _ _ ?_).trans ?_) | (with_reducible refine (Acs.fin_otp _ _ ?_).trans ?_) | (with_reducible refine (Acs.each_pending _ _ _ ?_).trans ?_) | (with_reducible refine (Acs.each_otp _ _ _ ?_).trans ?_) | with_reducible apply chk_keep_pending | with_reducible apply chk_keep_sec_otp | with_reducible apply consume_keep_pending | with_reducible apply consume_keep_sec_otp | with_reducible apply withEvents_keep_pending | with_reducible apply withEvents_keep_sec_otp | simp))

theorem storeInsn_keep (core op : Nat) (f : IF) (ev : List MemEv)  (s : State) : ∃ x, storeInsn core op f ev s = .next x ∧ x.pending = s.pending ∧ x.sec.otp = s.sec.otp := by
  unfold storeInsn; with_reducible apply runInsn_keep <;> (repeat' (first | (with_reducible rfl) | (with_reducible assumption) | intro _ | apply And.intro | (simp; done) | split | dsimp only | (with_reducible refine (Acs.bind_pending _ _ ?_).trans ?_) | (with_reducible refine (Acs.bind_otp _ _ ?_).trans ?_) | (with_reducible refine (Acs.fin_pending _ _ ?_).trans ?_) | (with_reducible refine (Acs.fin_otp _ _ ?_).trans ?_) | (with_reducible refine (Acs.each_pending _ _ _ ?_).trans ?_) | (with_reducible refine (Acs.each_otp _ _ _ ?_).trans ?_) | with_reducible apply chk_keep_pending | with_reducible apply chk_keep_sec_otp | with_reducible apply consume_keep_pending | with_reducible apply consume_keep_sec_otp | with_reducible apply withEvents_keep_pending | with_reducible apply withEvents_keep_sec_otp | simp))

@[simp] theorem setProg_keep (s : State) (c n : Nat) : (setProg s c n).pending = s.pending ∧ (setProg s c n).sec.otp = s.sec.otp := ⟨rfl, rfl⟩

@[simp] theorem endSlots_keep (s : State) (c total : Nat) (stop : Option Nat) : (endSlots s c total stop).st.pending = s.pending ∧ (endSlots s c total stop).st.sec.otp = s.sec.otp := by
  unfold endSlots; (repeat' split) <;> simp

@[simp] theorem probe_keep (s : State) (c : Nat) (load : Bool) (p : Nat × Nat) : (probe s c load p).st.pending = s.pending ∧ (probe s c load p).st.sec.otp = s.sec.otp := by
  unfold probe; first | (((repeat' split) <;> simp); done) | (repeat' (first | (with_reducible rfl) | (with_reducible assumption) | intro _ | apply And.intro | (simp; done) | split | dsimp only | (with_reducible refine (Acs.bind_pending _ _ ?_).trans ?_) | (with_reducible refine (Acs.bind_otp _ _ ?_).trans ?_) | (with_reducible refine (Acs.fin_pending _ _ ?_).trans ?_) | (with_reducible refine (Acs.fin_otp _ _ ?_).trans ?_) | (with_reducible refine (Acs.each_pending _ _ _ ?_).trans ?_) | (with_reducible refine (Acs.each_otp _ _ _ ?_).trans ?_) | simp))

@[simp] theorem multi_keep (s : State) (c : Nat) (f : RF) (load : Bool) (stop : Option Nat) : (multi s c f load stop).st.pending = s.pending ∧ (multi s c f load stop).st.sec.otp = s.sec.otp := by
  unfold multi; repeat' (first | (with_reducible rfl) | (with_reducible assumption) | intro _ | apply And.intro | (simp; done) | split | dsimp only | (with_reducible refine (Acs.bind_pending _ _ ?_).trans ?_) | (with_reducible refine (Acs.bind_otp _ _ ?_).trans ?_) | (with_reducible refine (Acs.fin_pending _ _ ?_).trans ?_) | (with_reducible refine (Acs.fin_otp _ _ ?_).trans ?_) | (with_reducible refine (Acs.each_pending _ _ _ ?_).trans ?_) | (with_reducible refine (Acs.each_otp _ _ _ ?_).trans ?_) | with_reducible apply chk_keep_pending | with_reducible apply chk_keep_sec_otp | with_reducible apply consume_keep_pending | with_reducible apply consume_keep_sec_otp | simp)

@[simp] theorem areaXl_keep (s : State) (c : Nat) (v : BitVec 64) (kind : Nat) : (areaXl s c v kind).st.pending = s.pending ∧ (areaXl s c v kind).st.sec.otp = s.sec.otp := by
  unfold areaXl; repeat' (first | (with_reducible rfl) | (with_reducible assumption) | intro _ | apply And.intro | (simp; done) | split | dsimp only | (with_reducible refine (Acs.bind_pending _ _ ?_).trans ?_) | (with_reducible refine (Acs.bind_otp _ _ ?_).trans ?_) | (with_reducible refine (Acs.fin_pending _ _ ?_).trans ?_) | (with_reducible refine (Acs.fin_otp _ _ ?_).trans ?_) | (with_reducible refine (Acs.each_pending _ _ _ ?_).trans ?_) | (with_reducible refine (Acs.each_otp _ _ _ ?_).trans ?_) | simp)

@[simp] theorem saveHalf_keep (s : State) (c : Nat) (f : RF) (half : Nat) : (saveHalf s c f half).st.pending = s.pending ∧ (saveHalf s c f half).st.sec.otp = s.sec.otp := by
  unfold saveHalf; repeat' (first | (with_reducible rfl) | (with_reducible assumption) | intro _ | apply And.intro | (simp; done) | split | dsimp only | (with_reducible refine (Acs.bind_pending _ _ ?_).trans ?_) | (with_reducible refine (Acs.bind_otp _ _ ?_).trans ?_) | (with_reducible refine (Acs.fin_pending _ _ ?_).trans ?_) | (with_reducible refine (Acs.fin_otp _ _ ?_).trans ?_) | (with_reducible refine (Acs.each_pending _ _ _ ?_).trans ?_) | (with_reducible refine (Acs.each_otp _ _ _ ?_).trans ?_) | with_reducible apply chk_keep_pending | with_reducible apply chk_keep_sec_otp | with_reducible apply consume_keep_pending | with_reducible apply consume_keep_sec_otp | simp)

@[simp] theorem loadHalf_keep (s : State) (c : Nat) (f : RF) (half : Nat) : (loadHalf s c f half).st.pending = s.pending ∧ (loadHalf s c f half).st.sec.otp = s.sec.otp := by
  unfold loadHalf; repeat' (first | (with_reducible rfl) | (with_reducible assumption) | intro _ | apply And.intro | (simp; done) | split | dsimp only | (with_reducible refine (Acs.bind_pending _ _ ?_).trans ?_) | (with_reducible refine (Acs.bind_otp _ _ ?_).trans ?_) | (with_reducible refine (Acs.fin_pending _ _ ?_).trans ?_) | (with_reducible refine (Acs.fin_otp _ _ ?_).trans ?_) | (with_reducible refine (Acs.each_pending _ _ _ ?_).trans ?_) | (with_reducible refine (Acs.each_otp _ _ _ ?_).trans ?_) | with_reducible apply chk_keep_pending | with_reducible apply chk_keep_sec_otp | simp)

theorem branch_keep (core op : Nat) (f : BF) (one : Bool) (cond : TWord → TWord → Option Bool)  (s : State) : ∃ x, branch core op f one cond s = .next x ∧ x.pending = s.pending ∧ x.sec.otp = s.sec.otp := by
  unfold branch; with_reducible apply runInsn_keep <;> (repeat' (first | (with_reducible rfl) | (with_reducible assumption) | intro _ | apply And.intro | (simp; done) | split | dsimp only | with_reducible apply chk_keep_pending | with_reducible apply chk_keep_sec_otp | with_reducible apply consume_keep_pending | with_reducible apply consume_keep_sec_otp | simp))

@[simp] theorem callTo_keep (s : State) (c dest : Nat) : (callTo s c dest).st.pending = s.pending ∧ (callTo s c dest).st.sec.otp = s.sec.otp := by
  unfold callTo; repeat' (first | (with_reducible rfl) | (with_reducible assumption) | intro _ | apply And.intro | (simp; done) | split | dsimp only | (with_reducible refine (Acs.bind_pending _ _ ?_).trans ?_) | (with_reducible refine (Acs.bind_otp _ _ ?_).trans ?_) | (with_reducible refine (Acs.fin_pending _ _ ?_).trans ?_) | (with_reducible refine (Acs.fin_otp _ _ ?_).trans ?_) | (with_reducible refine (Acs.each_pending _ _ _ ?_).trans ?_) | (with_reducible refine (Acs.each_otp _ _ _ ?_).trans ?_) | simp)

@[simp] theorem jumpReg_keep_pending (s : State) (w : TWord) (f : Nat → IRes)  (hh : ∀ n, (f n).st.pending = s.pending) : (jumpReg s w f).st.pending = s.pending := by
  unfold jumpReg; repeat' (first | (with_reducible rfl) | (with_reducible assumption) | intro _ | apply And.intro | (simp [hh]; done) | split | dsimp only | with_reducible apply chk_keep_pending | with_reducible apply chk_keep_sec_otp | with_reducible apply consume_keep_pending | with_reducible apply consume_keep_sec_otp | simp [hh])

@[simp] theorem jumpReg_keep_sec_otp (s : State) (w : TWord) (f : Nat → IRes)  (hh : ∀ n, (f n).st.sec.otp = s.sec.otp) : (jumpReg s w f).st.sec.otp = s.sec.otp := by
  unfold jumpReg; repeat' (first | (with_reducible rfl) | (with_reducible assumption) | intro _ | apply And.intro | (simp [hh]; done) | split | dsimp only | with_reducible apply chk_keep_pending | with_reducible apply chk_keep_sec_otp | with_reducible apply consume_keep_pending | with_reducible apply consume_keep_sec_otp | simp [hh])

@[simp] theorem raiseIpi_keep (s : State) (d cause init : Nat) : (raiseIpi s d cause init).pending = s.pending ∧ (raiseIpi s d cause init).sec.otp = s.sec.otp := ⟨rfl, rfl⟩

@[simp] theorem ipiWrite_keep (s : State) (c v : Nat) : (ipiWrite s c v).pending = s.pending ∧ (ipiWrite s c v).sec.otp = s.sec.otp := by simp [ipiWrite]

@[simp] theorem crWrite_keep (s : State) (c n : Nat) (w : TWord) : (crWrite s c n w).st.pending = s.pending ∧ (crWrite s c n w).st.sec.otp = s.sec.otp := by
  unfold crWrite; split <;> simp

@[simp] theorem registerBank_keep (s : State) (b : Bank) : (registerBank s b).pending = s.pending ∧ (registerBank s b).sec.otp = s.sec.otp := ⟨rfl, rfl⟩

@[simp] theorem reseed_keep (s : State) (cl : Nat) : (reseed s cl).pending = s.pending ∧ (reseed s cl).sec.otp = s.sec.otp := ⟨rfl, rfl⟩

@[simp] theorem copCount_keep (s : State) (cl unit which : Nat) : (copCount s cl unit which).pending = s.pending ∧ (copCount s cl unit which).sec.otp = s.sec.otp := by simp [copCount]

end Sys2Proof.Machine
end

