-- ==== Sys2Proof/Laws/KeepC.lean ====
section
/-! SUPPORT. What no operation changes, the queue of commands and one-time storage: replay and the coprocessors. -/
set_option linter.unusedTactic false
set_option linter.unreachableTactic false
set_option linter.unusedSimpArgs false
set_option linter.unnecessarySeqFocus false
set_option linter.unnecessarySimpa false
set_option linter.unusedVariables false
namespace Sys2Proof.Machine

open Sys2Proof

@[simp] theorem applyBook_keep (s : State) (t : Nat) (h : Hdr) (body : List Byte) : (applyBook s t h body).pending = s.pending ∧ (applyBook s t h body).sec.otp = s.sec.otp := ⟨rfl, rfl⟩

@[simp] theorem applySales_keep (s : State) (t : Nat) (h : Hdr) (body : List Byte) : (applySales s t h body).pending = s.pending ∧ (applySales s t h body).sec.otp = s.sec.otp := by simp [applySales]

@[simp] theorem applyChained_keep (s : State) (t n : Nat) : (applyChained s t n).pending = s.pending ∧ (applyChained s t n).sec.otp = s.sec.otp := by simp [applyChained]

@[simp] theorem dormantAll_keep (s : State) (t : Nat) : (dormantAll s t).pending = s.pending ∧ (dormantAll s t).sec.otp = s.sec.otp := by simp [dormantAll]

@[simp] theorem finishRun_keep (s : State) (st : Nat) : (finishRun s st).pending = s.pending ∧ (finishRun s st).sec.otp = s.sec.otp := by
  unfold finishRun; split <;> simp

@[simp] theorem captureDiv_keep (s : State) (f : Finding) : (captureDiv s f).pending = s.pending ∧ (captureDiv s f).sec.otp = s.sec.otp := by simp [captureDiv]

@[simp] theorem divergence_keep (s : State) (f : Finding) : (divergence s f).pending = s.pending ∧ (divergence s f).sec.otp = s.sec.otp := by
  unfold divergence; split <;> simp

@[simp] theorem advanceRun_keep (s : State) : (advanceRun s).pending = s.pending ∧ (advanceRun s).sec.otp = s.sec.otp := by
  unfold advanceRun; split <;> simp

@[simp] theorem writeRecorded_keep (s : State) : (writeRecorded s).pending = s.pending ∧ (writeRecorded s).sec.otp = s.sec.otp := by
  unfold writeRecorded; (repeat' split) <;> simp

@[simp] theorem divergeAt_keep (s : State) (c kind pos : Nat) (rep : Option Digest) : (divergeAt s c kind pos rep).pending = s.pending ∧ (divergeAt s c kind pos rep).sec.otp = s.sec.otp := by
  unfold divergeAt; split <;> simp

@[simp] theorem wantTag_keep (s : State) (w : TWord) (t : BitVec 8) : (wantTag s w t).st.pending = s.pending ∧ (wantTag s w t).st.sec.otp = s.sec.otp := by
  unfold wantTag; (repeat' split) <;> simp

@[simp] theorem strBytes_keep (s : State) (c : Nat) (w : TWord) : (strBytes s c w).st.pending = s.pending ∧ (strBytes s c w).st.sec.otp = s.sec.otp := by
  unfold strBytes; repeat' (first | (with_reducible rfl) | (with_reducible assumption) | intro _ | apply And.intro | (simp; done) | split | dsimp only | (with_reducible refine (Acs.bind_pending _ _ ?_).trans ?_) | (with_reducible refine (Acs.bind_otp _ _ ?_).trans ?_) | (with_reducible refine (Acs.fin_pending _ _ ?_).trans ?_) | (with_reducible refine (Acs.fin_otp _ _ ?_).trans ?_) | (with_reducible refine (Acs.each_pending _ _ _ ?_).trans ?_) | (with_reducible refine (Acs.each_otp _ _ _ ?_).trans ?_) | simp)

@[simp] theorem outStr_keep (s : State) (c : Nat) (w : TWord) (n : Nat) : (outStr s c w n).st.pending = s.pending ∧ (outStr s c w n).st.sec.otp = s.sec.otp := by
  unfold outStr; repeat' (first | (with_reducible rfl) | (with_reducible assumption) | intro _ | apply And.intro | (simp; done) | split | dsimp only | (with_reducible refine (Acs.bind_pending _ _ ?_).trans ?_) | (with_reducible refine (Acs.bind_otp _ _ ?_).trans ?_) | (with_reducible refine (Acs.fin_pending _ _ ?_).trans ?_) | (with_reducible refine (Acs.fin_otp _ _ ?_).trans ?_) | (with_reducible refine (Acs.each_pending _ _ _ ?_).trans ?_) | (with_reducible refine (Acs.each_otp _ _ _ ?_).trans ?_) | simp)

@[simp] theorem vecElems_keep (s : State) (c : Nat) (w : TWord) (n : Nat) : (vecElems s c w n).st.pending = s.pending ∧ (vecElems s c w n).st.sec.otp = s.sec.otp := by
  unfold vecElems; repeat' (first | (with_reducible rfl) | (with_reducible assumption) | intro _ | apply And.intro | (simp; done) | split | dsimp only | (with_reducible refine (Acs.bind_pending _ _ ?_).trans ?_) | (with_reducible refine (Acs.bind_otp _ _ ?_).trans ?_) | (with_reducible refine (Acs.fin_pending _ _ ?_).trans ?_) | (with_reducible refine (Acs.fin_otp _ _ ?_).trans ?_) | (with_reducible refine (Acs.each_pending _ _ _ ?_).trans ?_) | (with_reducible refine (Acs.each_otp _ _ _ ?_).trans ?_) | simp)

@[simp] theorem outWords_keep (s : State) (c a n : Nat) : (outWords s c a n).st.pending = s.pending ∧ (outWords s c a n).st.sec.otp = s.sec.otp := by
  unfold outWords; repeat' (first | (with_reducible rfl) | (with_reducible assumption) | intro _ | apply And.intro | (simp; done) | split | dsimp only | (with_reducible refine (Acs.bind_pending _ _ ?_).trans ?_) | (with_reducible refine (Acs.bind_otp _ _ ?_).trans ?_) | (with_reducible refine (Acs.fin_pending _ _ ?_).trans ?_) | (with_reducible refine (Acs.fin_otp _ _ ?_).trans ?_) | (with_reducible refine (Acs.each_pending _ _ _ ?_).trans ?_) | (with_reducible refine (Acs.each_otp _ _ _ ?_).trans ?_) | simp)

@[simp] theorem writeOut_keep (s : State) (c a : Nat) (out : List Byte) : (writeOut s c a out).st.pending = s.pending ∧ (writeOut s c a out).st.sec.otp = s.sec.otp := by
  unfold writeOut; repeat' (first | (with_reducible rfl) | (with_reducible assumption) | intro _ | apply And.intro | (simp; done) | split | dsimp only | (with_reducible refine (Acs.bind_pending _ _ ?_).trans ?_) | (with_reducible refine (Acs.bind_otp _ _ ?_).trans ?_) | (with_reducible refine (Acs.fin_pending _ _ ?_).trans ?_) | (with_reducible refine (Acs.fin_otp _ _ ?_).trans ?_) | (with_reducible refine (Acs.each_pending _ _ _ ?_).trans ?_) | (with_reducible refine (Acs.each_otp _ _ _ ?_).trans ?_) | simp)

@[simp] theorem keyOf_keep (s : State) (c : Nat) (w : TWord) : (keyOf s c w).st.pending = s.pending ∧ (keyOf s c w).st.sec.otp = s.sec.otp := by
  unfold keyOf; repeat' (first | (with_reducible rfl) | (with_reducible assumption) | intro _ | apply And.intro | (simp; done) | split | dsimp only | (with_reducible refine (Acs.bind_pending _ _ ?_).trans ?_) | (with_reducible refine (Acs.bind_otp _ _ ?_).trans ?_) | (with_reducible refine (Acs.fin_pending _ _ ?_).trans ?_) | (with_reducible refine (Acs.fin_otp _ _ ?_).trans ?_) | (with_reducible refine (Acs.each_pending _ _ _ ?_).trans ?_) | (with_reducible refine (Acs.each_otp _ _ _ ?_).trans ?_) | simp)

@[simp] theorem strOf_keep (s : State) (c : Nat) (w : TWord) (n : Nat) : (strOf s c w n).st.pending = s.pending ∧ (strOf s c w n).st.sec.otp = s.sec.otp := by
  unfold strOf; repeat' (first | (with_reducible rfl) | (with_reducible assumption) | intro _ | apply And.intro | (simp; done) | split | dsimp only | (with_reducible refine (Acs.bind_pending _ _ ?_).trans ?_) | (with_reducible refine (Acs.bind_otp _ _ ?_).trans ?_) | (with_reducible refine (Acs.fin_pending _ _ ?_).trans ?_) | (with_reducible refine (Acs.fin_otp _ _ ?_).trans ?_) | (with_reducible refine (Acs.each_pending _ _ _ ?_).trans ?_) | (with_reducible refine (Acs.each_otp _ _ _ ?_).trans ?_) | simp)

theorem pureCop_keep (c : Nat) (f : CF) (unit op : Nat) (e : CopEnd) (checks : State → List (Bool × Trap)) (run : State → Acs PureRes) (s : State)
    (h1 : ∀ a, (run a).st.pending = a.pending) (h2 : ∀ a, (run a).st.sec.otp = a.sec.otp) :
    ∃ x, pureCop c f unit op e checks run s = .next x ∧ x.pending = s.pending ∧ x.sec.otp = s.sec.otp := by
  unfold pureCop; dsimp only
  split
  · refine ⟨_, rfl, ?_, ?_⟩ <;> split <;> simp
  · apply runInsn_keep
    · intro a
      refine chk_keep_pending _ _ _ ?_
      refine (Acs.fin_pending _ _ ?_).trans (h1 a)
      intro a v
      (repeat' split) <;> first | simp; done | skip
      all_goals (rename_i e; have h := congrArg (fun r => r.st.pending) e; revert h; (repeat' split) <;> intro h <;> simp at h <;> simp [h.symm])
    · intro a
      refine chk_keep_sec_otp _ _ _ ?_
      refine (Acs.fin_otp _ _ ?_).trans (h2 a)
      intro a v
      (repeat' split) <;> first | simp; done | skip
      all_goals (rename_i e; have h := congrArg (fun r => r.st.sec.otp) e; revert h; (repeat' split) <;> intro h <;> simp at h <;> simp [h.symm])

@[simp] theorem hashRun_keep (c : Nat) (f : CF) (h : List Byte → Digest) (s : State) : (hashRun c f h s).st.pending = s.pending ∧ (hashRun c f h s).st.sec.otp = s.sec.otp := by
  unfold hashRun; repeat' (first | (with_reducible rfl) | (with_reducible assumption) | intro _ | apply And.intro | (simp; done) | split | dsimp only | (with_reducible refine (Acs.bind_pending _ _ ?_).trans ?_) | (with_reducible refine (Acs.bind_otp _ _ ?_).trans ?_) | (with_reducible refine (Acs.fin_pending _ _ ?_).trans ?_) | (with_reducible refine (Acs.fin_otp _ _ ?_).trans ?_) | (with_reducible refine (Acs.each_pending _ _ _ ?_).trans ?_) | (with_reducible refine (Acs.each_otp _ _ _ ?_).trans ?_) | simp)

@[simp] theorem gcmArgs_keep (s : State) (c : Nat) (w : TWord) : (gcmArgs s c w).st.pending = s.pending ∧ (gcmArgs s c w).st.sec.otp = s.sec.otp := by
  unfold gcmArgs; repeat' (first | (with_reducible rfl) | (with_reducible assumption) | intro _ | apply And.intro | (simp; done) | split | dsimp only | (with_reducible refine (Acs.bind_pending _ _ ?_).trans ?_) | (with_reducible refine (Acs.bind_otp _ _ ?_).trans ?_) | (with_reducible refine (Acs.fin_pending _ _ ?_).trans ?_) | (with_reducible refine (Acs.fin_otp _ _ ?_).trans ?_) | (with_reducible refine (Acs.each_pending _ _ _ ?_).trans ?_) | (with_reducible refine (Acs.each_otp _ _ _ ?_).trans ?_) | simp)

@[simp] theorem verifyRun_keep (c : Nat) (f : CF) (curve kl : Nat) (ml : Option Nat) (sl : Nat) (s : State) : (verifyRun c f curve kl ml sl s).st.pending = s.pending ∧ (verifyRun c f curve kl ml sl s).st.sec.otp = s.sec.otp := by
  unfold verifyRun; repeat' (first | (with_reducible rfl) | (with_reducible assumption) | intro _ | apply And.intro | (simp; done) | split | dsimp only | (with_reducible refine (Acs.bind_pending _ _ ?_).trans ?_) | (with_reducible refine (Acs.bind_otp _ _ ?_).trans ?_) | (with_reducible refine (Acs.fin_pending _ _ ?_).trans ?_) | (with_reducible refine (Acs.fin_otp _ _ ?_).trans ?_) | (with_reducible refine (Acs.each_pending _ _ _ ?_).trans ?_) | (with_reducible refine (Acs.each_otp _ _ _ ?_).trans ?_) | simp)

@[simp] theorem give_keep (s : State) (c : Nat) (f : CF) (out : Option Nat) (g : Grant) : (give s c f out g).st.pending = s.pending ∧ (give s c f out g).st.sec.otp = s.sec.otp := by
  unfold give; repeat' (first | (with_reducible rfl) | (with_reducible assumption) | intro _ | apply And.intro | (simp; done) | split | dsimp only | (with_reducible refine (foldl_pending _ _ _ ?_).trans ?_) | (with_reducible refine (foldl_otp _ _ _ ?_).trans ?_) | (with_reducible refine (foldl_fst_pending _ _ _ ?_).trans ?_) | (with_reducible refine (foldl_fst_otp _ _ _ ?_).trans ?_) | (with_reducible refine (Acs.bind_pending _ _ ?_).trans ?_) | (with_reducible refine (Acs.bind_otp _ _ ?_).trans ?_) | (with_reducible refine (Acs.fin_pending _ _ ?_).trans ?_) | (with_reducible refine (Acs.fin_otp _ _ ?_).trans ?_) | (with_reducible refine (Acs.each_pending _ _ _ ?_).trans ?_) | (with_reducible refine (Acs.each_otp _ _ _ ?_).trans ?_) | simp)

@[simp] theorem updBound_keep (s : State) (b : Bind) (f : Input → Input) : (updBound s b f).pending = s.pending ∧ (updBound s b f).sec.otp = s.sec.otp := by simp [updBound]

@[simp] theorem nextPos_keep (s : State) (c : Nat) : (nextPos s c).pending = s.pending ∧ (nextPos s c).sec.otp = s.sec.otp := by simp [nextPos]

@[simp] theorem shareOut_keep (s : State) (c : Nat) (f : CF) (paired : Bool) (o : EffOp) (g : Grant) : (shareOut s c f paired o g).st.pending = s.pending ∧ (shareOut s c f paired o g).st.sec.otp = s.sec.otp := by simp [shareOut]

@[simp] theorem issueLogged_keep_pending (s : State) (c : Nat) (f : CF) (b : Bind) (o : EffOp) (issue : State → Issued)  (hh : ∀ a, (issue a).st.pending = a.pending) : (issueLogged s c f b o issue).st.pending = s.pending := by
  unfold issueLogged
  have h := hh s
  split <;> (rename_i e; rw [e] at h; simpa using h)

@[simp] theorem issueLogged_keep_sec_otp (s : State) (c : Nat) (f : CF) (b : Bind) (o : EffOp) (issue : State → Issued)  (hh : ∀ a, (issue a).st.sec.otp = a.sec.otp) : (issueLogged s c f b o issue).st.sec.otp = s.sec.otp := by
  unfold issueLogged
  have h := hh s
  split <;> (rename_i e; rw [e] at h; simpa using h)

@[simp] theorem logMismatch_keep (s : State) (c : Nat) (b : Bind) (o : EffOp) (kind : Nat) : (logMismatch s c b o kind).st.pending = s.pending ∧ (logMismatch s c b o kind).st.sec.otp = s.sec.otp := by
  unfold logMismatch; split <;> simp

@[simp] theorem resolveEff_keep_pending (s : State) (c : Nat) (f : CF) (b : Bind) (o : EffOp) (issue : State → Issued)  (hh : ∀ a, (issue a).st.pending = a.pending) : (resolveEff s c f b o issue).st.pending = s.pending := by
  unfold resolveEff; repeat' (first | (with_reducible rfl) | (with_reducible assumption) | intro _ | apply And.intro | (simp [hh]; done) | split | dsimp only | with_reducible apply issueLogged_keep_pending | with_reducible apply issueLogged_keep_sec_otp | simp [hh])

@[simp] theorem resolveEff_keep_sec_otp (s : State) (c : Nat) (f : CF) (b : Bind) (o : EffOp) (issue : State → Issued)  (hh : ∀ a, (issue a).st.sec.otp = a.sec.otp) : (resolveEff s c f b o issue).st.sec.otp = s.sec.otp := by
  unfold resolveEff; repeat' (first | (with_reducible rfl) | (with_reducible assumption) | intro _ | apply And.intro | (simp [hh]; done) | split | dsimp only | with_reducible apply issueLogged_keep_pending | with_reducible apply issueLogged_keep_sec_otp | simp [hh])

@[simp] theorem comparator_keep_pending (s : State) (c pos : Nat) (o : EffOp) (go : State → IRes)  (hh : ∀ a, (go a).st.pending = a.pending) : (comparator s c pos o go).st.pending = s.pending := by
  unfold comparator; repeat' (first | (with_reducible rfl) | (with_reducible assumption) | intro _ | apply And.intro | (simp [hh]; done) | split | dsimp only | simp [hh])

@[simp] theorem comparator_keep_sec_otp (s : State) (c pos : Nat) (o : EffOp) (go : State → IRes)  (hh : ∀ a, (go a).st.sec.otp = a.sec.otp) : (comparator s c pos o go).st.sec.otp = s.sec.otp := by
  unfold comparator; repeat' (first | (with_reducible rfl) | (with_reducible assumption) | intro _ | apply And.intro | (simp [hh]; done) | split | dsimp only | simp [hh])

@[simp] theorem effCop_keep_pending (c : Nat) (f : CF) (n : Nat) (o : EffOp) (issue : State → Issued) (s : State)  (hh : ∀ a, (issue a).st.pending = a.pending) : (effCop c f n o issue s).st.pending = s.pending := by
  unfold effCop
  dsimp only
  split
  · rfl
  · split
    · split <;> simp [hh]
    · split
      · have h := hh s
        split <;> (rename_i e; rw [e] at h; simpa using h)
      · split
        · rfl
        · split
          · rfl
          · split
            · rw [comparator_keep_pending]
              intro a; exact resolveEff_keep_pending _ _ _ _ _ _ hh
            · exact resolveEff_keep_pending _ _ _ _ _ _ hh

@[simp] theorem effCop_keep_sec_otp (c : Nat) (f : CF) (n : Nat) (o : EffOp) (issue : State → Issued) (s : State)  (hh : ∀ a, (issue a).st.sec.otp = a.sec.otp) : (effCop c f n o issue s).st.sec.otp = s.sec.otp := by
  unfold effCop
  dsimp only
  split
  · rfl
  · split
    · split <;> simp [hh]
    · split
      · have h := hh s
        split <;> (rename_i e; rw [e] at h; simpa using h)
      · split
        · rfl
        · split
          · rfl
          · split
            · rw [comparator_keep_sec_otp]
              intro a; exact resolveEff_keep_sec_otp _ _ _ _ _ _ hh
            · exact resolveEff_keep_sec_otp _ _ _ _ _ _ hh

@[simp] theorem unitIssue_keep_pending (c unit : Nat) (e : CopEnd) (run : State → State × List TWord) (s : State)  (hh : ∀ a, (run a).1.pending = a.pending) : (unitIssue c unit e run s).st.pending = s.pending := by
  unfold unitIssue; repeat' (first | (with_reducible rfl) | (with_reducible assumption) | intro _ | apply And.intro | (simp [hh]; done) | split | dsimp only | simp [hh])

@[simp] theorem unitIssue_keep_sec_otp (c unit : Nat) (e : CopEnd) (run : State → State × List TWord) (s : State)  (hh : ∀ a, (run a).1.sec.otp = a.sec.otp) : (unitIssue c unit e run s).st.sec.otp = s.sec.otp := by
  unfold unitIssue; repeat' (first | (with_reducible rfl) | (with_reducible assumption) | intro _ | apply And.intro | (simp [hh]; done) | split | dsimp only | simp [hh])

@[simp] theorem drawOf_keep (s : State) (cl : Nat) : (drawOf s cl).2.pending = s.pending ∧ (drawOf s cl).2.sec.otp = s.sec.otp := by simp [drawOf]

@[simp] theorem bindTake_keep (s : State) (t : Nat) (paired : Bool) (i : Input) : (bindTake s t paired i).1.pending = s.pending ∧ (bindTake s t paired i).1.sec.otp = s.sec.otp := by simp [bindTake]

@[simp] theorem voidBad_keep (s : State) (bad : List Nat) (l : List Input) : (voidBad s bad l).pending = s.pending ∧ (voidBad s bad l).sec.otp = s.sec.otp := by simp [voidBad]

@[simp] theorem descrOf_keep (s : State) (c : Nat) (w : TWord) : (descrOf s c w).st.pending = s.pending ∧ (descrOf s c w).st.sec.otp = s.sec.otp := by
  unfold descrOf; repeat' (first | (with_reducible rfl) | (with_reducible assumption) | intro _ | apply And.intro | (simp; done) | split | dsimp only | (with_reducible refine (Acs.bind_pending _ _ ?_).trans ?_) | (with_reducible refine (Acs.bind_otp _ _ ?_).trans ?_) | (with_reducible refine (Acs.fin_pending _ _ ?_).trans ?_) | (with_reducible refine (Acs.fin_otp _ _ ?_).trans ?_) | (with_reducible refine (Acs.each_pending _ _ _ ?_).trans ?_) | (with_reducible refine (Acs.each_otp _ _ _ ?_).trans ?_) | simp)

@[simp] theorem latentStep_keep (s : State) (c t n : Nat) : (latentStep s c t n).pending = s.pending ∧ (latentStep s c t n).sec.otp = s.sec.otp := by simp [latentStep]

@[simp] theorem appendStream_keep (s : State) (b : Bind) (i : Input) (g : GReq) : (appendStream s b i g).1.pending = s.pending ∧ (appendStream s b i g).1.sec.otp = s.sec.otp := by simp [appendStream]

@[simp] theorem appendReplay_keep (s : State) (b : Bind) (g : GReq) : (appendReplay s b g).1.pending = s.pending ∧ (appendReplay s b g).1.sec.otp = s.sec.otp := by
  unfold appendReplay; dsimp only; (repeat' split) <;> simp

@[simp] theorem holdAppend_keep (s : State) (c : Nat) (b : Bind) (o : EffOp) (room : Bool) : (holdAppend s c b o room).pending = s.pending ∧ (holdAppend s c b o room).sec.otp = s.sec.otp := by simp [holdAppend]

@[simp] theorem endBinding_keep (s : State) (cs : List Nat) : (endBinding s cs).pending = s.pending ∧ (endBinding s cs).sec.otp = s.sec.otp := by simp [endBinding]

@[simp] theorem issueAppend_keep (s : State) (c : Nat) (f : CF) (b : Bind) (i : Input) (d : Descr) (o : EffOp) (e : CopEnd) : (issueAppend s c f b i d o e).st.pending = s.pending ∧ (issueAppend s c f b i d o e).st.sec.otp = s.sec.otp := by
  unfold issueAppend; dsimp only; (repeat' split) <;> simp

@[simp] theorem resolveAppend_keep (s : State) (c : Nat) (f : CF) (b : Bind) (d : Descr) (o : EffOp) (e : CopEnd) : (resolveAppend s c f b d o e).st.pending = s.pending ∧ (resolveAppend s c f b d o e).st.sec.otp = s.sec.otp := by
  unfold resolveAppend; (repeat' split) <;> simp

end Sys2Proof.Machine
end

