-- ==== Sys2Proof/Laws/KeepD.lean ====
section
/-! SUPPORT. What no operation changes, the queue of commands and one-time storage: frames, the mirror, the sequencer and flash. -/
set_option linter.unusedTactic false
set_option linter.unreachableTactic false
set_option linter.unusedSimpArgs false
set_option linter.unnecessarySeqFocus false
set_option linter.unnecessarySimpa false
set_option linter.unusedVariables false
namespace Sys2Proof.Machine

open Sys2Proof

theorem fabricWrite_keep (s : State) (req b off width v : Nat) : ∃ x, fabricWrite s req b off width v = .next x ∧ x.pending = s.pending ∧ x.sec.otp = s.sec.otp := by
  unfold fabricWrite wrote; split
  · exact ⟨s, rfl, rfl, rfl⟩
  · refine ⟨_, rfl, ?_, ?_⟩ <;> split <;> simp

@[simp] theorem resetBlock_keep (s : State) (b : Nat) : (resetBlock s b).pending = s.pending ∧ (resetBlock s b).sec.otp = s.sec.otp := ⟨rfl, rfl⟩

@[simp] theorem dropPairs_keep (s : State) (b : Nat) : (dropPairs s b).pending = s.pending ∧ (dropPairs s b).sec.otp = s.sec.otp := ⟨rfl, rfl⟩

@[simp] theorem domainReset_keep (s : State) (b : Nat) : (domainReset s b).pending = s.pending ∧ (domainReset s b).sec.otp = s.sec.otp := by simp [domainReset]

@[simp] theorem mirTake_keep_pending (s : State) (lseq : Nat) (tagOk : Bool) (f : State → State)  (hh : ∀ a, (f a).pending = a.pending) : (mirTake s lseq tagOk f).pending = s.pending := by
  unfold mirTake; repeat' (first | (with_reducible rfl) | (with_reducible assumption) | intro _ | apply And.intro | (simp [hh]; done) | split | dsimp only | simp [hh])

@[simp] theorem mirTake_keep_sec_otp (s : State) (lseq : Nat) (tagOk : Bool) (f : State → State)  (hh : ∀ a, (f a).sec.otp = a.sec.otp) : (mirTake s lseq tagOk f).sec.otp = s.sec.otp := by
  unfold mirTake; repeat' (first | (with_reducible rfl) | (with_reducible assumption) | intro _ | apply And.intro | (simp [hh]; done) | split | dsimp only | simp [hh])

@[simp] theorem mirrorDivergence_keep (s : State) (t n : Nat) (mine theirs : Digest) : (mirrorDivergence s t n mine theirs).pending = s.pending ∧ (mirrorDivergence s t n mine theirs).sec.otp = s.sec.otp := by simp [mirrorDivergence]

@[simp] theorem matchDigests_keep (t : Nat)  (s : State) (x1 : Nat) (x2 : List Digest) : (matchDigests t s x1 x2).pending = s.pending ∧ (matchDigests t s x1 x2).sec.otp = s.sec.otp := by
  induction x2 generalizing s x1 with
  | nil => simp [matchDigests]
  | cons d l ih => unfold matchDigests; (repeat' split) <;> simp [ih]

@[simp] theorem resendFrom_keep (s : State) (n : Nat) : (resendFrom s n).pending = s.pending ∧ (resendFrom s n).sec.otp = s.sec.otp := by simp [resendFrom]

@[simp] theorem resumeAt_keep (s : State) (t pos : Nat) : (resumeAt s t pos).pending = s.pending ∧ (resumeAt s t pos).sec.otp = s.sec.otp := by simp [resumeAt]

@[simp] theorem sendDigests_keep (s : State) (t : Nat) : (sendDigests s t).pending = s.pending ∧ (sendDigests s t).sec.otp = s.sec.otp := by simp [sendDigests]

@[simp] theorem updSess_keep (s : State) (key : Nat) (f : Session → Session) : (updSess s key f).pending = s.pending ∧ (updSess s key f).sec.otp = s.sec.otp := by
  unfold updSess; split <;> simp

@[simp] theorem countDrop_keep (s : State) (t session cls : Nat) : (countDrop s t session cls).pending = s.pending ∧ (countDrop s t session cls).sec.otp = s.sec.otp := by simp [countDrop]

@[simp] theorem sendAwp_keep (s : State) (t session : Nat) (r : Route) (typ : Nat) (payload : List Byte) : (sendAwp s t session r typ payload).pending = s.pending ∧ (sendAwp s t session r typ payload).sec.otp = s.sec.otp := by
  unfold sendAwp; split <;> simp

@[simp] theorem sendReject_keep (s : State) (t session : Nat) (r : Route) (reason : Nat) (body : List Byte) : (sendReject s t session r reason body).pending = s.pending ∧ (sendReject s t session r reason body).sec.otp = s.sec.otp := by simp [sendReject]

@[simp] theorem refuse_keep (s : State) (f : Frame) (reason cause st : Nat) : (refuse s f reason cause st).pending = s.pending ∧ (refuse s f reason cause st).sec.otp = s.sec.otp := by
  unfold refuse; split <;> simp

@[simp] theorem answer_keep (s : State) (f : Frame) (typ : Nat) (body : List Byte) : (answer s f typ body).pending = s.pending ∧ (answer s f typ body).sec.otp = s.sec.otp := by simp [answer]

@[simp] theorem poisoned_keep (s : State) (t session pa : Nat) : (poisoned s t session pa).pending = s.pending ∧ (poisoned s t session pa).sec.otp = s.sec.otp := by
  unfold poisoned; split <;> simp

@[simp] theorem ingress_keep_pending (s : State) (f : Frame) (mgmt : Bool) (classes : List SClass) (go : State → State)  (hh : ∀ a, (go a).pending = a.pending) : (ingress s f mgmt classes go).pending = s.pending := by
  unfold ingress; repeat' (first | (with_reducible rfl) | (with_reducible assumption) | intro _ | apply And.intro | (simp [hh]; done) | split | dsimp only | simp [hh])

@[simp] theorem ingress_keep_sec_otp (s : State) (f : Frame) (mgmt : Bool) (classes : List SClass) (go : State → State)  (hh : ∀ a, (go a).sec.otp = a.sec.otp) : (ingress s f mgmt classes go).sec.otp = s.sec.otp := by
  unfold ingress; repeat' (first | (with_reducible rfl) | (with_reducible assumption) | intro _ | apply And.intro | (simp [hh]; done) | split | dsimp only | simp [hh])

@[simp] theorem terminalFrame_keep_pending (s : State) (f : Frame) (go : State → State)  (hh : ∀ a, (go a).pending = a.pending) : (terminalFrame s f go).pending = s.pending := by
  unfold terminalFrame; repeat' (first | (with_reducible rfl) | (with_reducible assumption) | intro _ | apply And.intro | (simp [hh]; done) | split | dsimp only | with_reducible apply ingress_keep_pending | with_reducible apply ingress_keep_sec_otp | simp [hh])

@[simp] theorem terminalFrame_keep_sec_otp (s : State) (f : Frame) (go : State → State)  (hh : ∀ a, (go a).sec.otp = a.sec.otp) : (terminalFrame s f go).sec.otp = s.sec.otp := by
  unfold terminalFrame; repeat' (first | (with_reducible rfl) | (with_reducible assumption) | intro _ | apply And.intro | (simp [hh]; done) | split | dsimp only | with_reducible apply ingress_keep_pending | with_reducible apply ingress_keep_sec_otp | simp [hh])

@[simp] theorem sequence_keep (s : State) (f : Frame) (typ acc u : Nat) : (sequence s f typ acc u).pending = s.pending ∧ (sequence s f typ acc u).sec.otp = s.sec.otp := by simp [sequence]

@[simp] theorem countRefusal_keep (s : State) (f : Frame) (reason : Nat) : (countRefusal s f reason).pending = s.pending ∧ (countRefusal s f reason).sec.otp = s.sec.otp := by simp [countRefusal]

@[simp] theorem wager_keep (typ : Nat) (f : Frame) (s : State) : (wager typ f s).pending = s.pending ∧ (wager typ f s).sec.otp = s.sec.otp := by simp [wager]

@[simp] theorem query_keep (f : Frame) (reads : List FlashRead) (s : State) : (query f reads s).pending = s.pending ∧ (query f reads s).sec.otp = s.sec.otp := by simp [query]

@[simp] theorem sendReceipt_keep (s : State) (r : Reply) (g : Grain) : (sendReceipt s r g).pending = s.pending ∧ (sendReceipt s r g).sec.otp = s.sec.otp := by simp [sendReceipt]

@[simp] theorem mack_keep (s : State) (f : Frame) (status : Nat) : (mack s f status).pending = s.pending ∧ (mack s f status).sec.otp = s.sec.otp := by simp [mack]

@[simp] theorem mgmtFrame_keep_pending (s : State) (f : Frame) (classes : List SClass) (modes : List DMode) (go : State → State)  (hh : ∀ a, (go a).pending = a.pending) : (mgmtFrame s f classes modes go).pending = s.pending := by
  unfold mgmtFrame; repeat' (first | (with_reducible rfl) | (with_reducible assumption) | intro _ | apply And.intro | (simp [hh]; done) | split | dsimp only | with_reducible apply ingress_keep_pending | with_reducible apply ingress_keep_sec_otp | simp [hh])

@[simp] theorem mgmtFrame_keep_sec_otp (s : State) (f : Frame) (classes : List SClass) (modes : List DMode) (go : State → State)  (hh : ∀ a, (go a).sec.otp = a.sec.otp) : (mgmtFrame s f classes modes go).sec.otp = s.sec.otp := by
  unfold mgmtFrame; repeat' (first | (with_reducible rfl) | (with_reducible assumption) | intro _ | apply And.intro | (simp [hh]; done) | split | dsimp only | with_reducible apply ingress_keep_pending | with_reducible apply ingress_keep_sec_otp | simp [hh])

@[simp] theorem importKek_keep (s : State) (e : Envelope) (cjn : Nat) : (importKek s e cjn).pending = s.pending ∧ (importKek s e cjn).sec.otp = s.sec.otp := by simp [importKek]

@[simp] theorem sessload_keep (f : Frame) (key : Option (BitVec 256)) (s : State) : (sessload f key s).pending = s.pending ∧ (sessload f key s).sec.otp = s.sec.otp := by
  unfold sessload; dsimp only; (repeat' split) <;> simp

@[simp] theorem sendParts_keep (s : State) (f : Frame) (e : Export) (fromPart : Nat) : (sendParts s f e fromPart).pending = s.pending ∧ (sendParts s f e fromPart).sec.otp = s.sec.otp := by simp [sendParts]

@[simp] theorem expreq_keep (f : Frame) (s : State) : (expreq f s).pending = s.pending ∧ (expreq f s).sec.otp = s.sec.otp := by
  unfold expreq; dsimp only; (repeat' split) <;> simp

@[simp] theorem putStat_keep (s : State) (t : Nat) (x : ImpStat) : (putStat s t x).pending = s.pending ∧ (putStat s t x).sec.otp = s.sec.otp := ⟨rfl, rfl⟩

@[simp] theorem takePart_keep (s : State) (f : Frame) (setid part len tenant bytes : Nat) (last : Bool) : (takePart s f setid part len tenant bytes last).pending = s.pending ∧ (takePart s f setid part len tenant bytes last).sec.otp = s.sec.otp := by simp [takePart]

@[simp] theorem impdata_keep (f : Frame) (s : State) : (impdata f s).pending = s.pending ∧ (impdata f s).sec.otp = s.sec.otp := by
  unfold impdata; dsimp only; (repeat' split) <;> simp

@[simp] theorem padRow_keep (s : State) (t : Nat) : (padRow s t).pending = s.pending ∧ (padRow s t).sec.otp = s.sec.otp := ⟨rfl, rfl⟩

theorem copyRows_keep  (x0 : Nat) (s : State) (x2 : Nat) (x3 : Nat) (x4 : List Nat) (x5 : List Nat)  (x : State) (hx : copyRows  x0 s x2 x3 x4 x5 = some x) : x.pending = s.pending ∧ x.sec.otp = s.sec.otp := by
  induction x0 generalizing s with
  | zero => simp [copyRows] at hx; subst hx; exact ⟨rfl, rfl⟩
  | succ k ih =>
    unfold copyRows at hx
    split at hx
    · rename_i e; have h := programRow_keep (hx := e); have h2 := ih _ hx; exact ⟨h2.1.trans h.1, h2.2.trans h.2⟩
    · cases hx

@[simp] theorem eraseBlk_keep (s : State) (k : Nat) (fail : Bool) : (eraseBlk s k fail).pending = s.pending ∧ (eraseBlk s k fail).sec.otp = s.sec.otp := by simp [eraseBlk]

@[simp] theorem eraseSuper_keep (s : State) (x : Super) (bad : List Nat) : (eraseSuper s x bad).pending = s.pending ∧ (eraseSuper s x bad).sec.otp = s.sec.otp := by simp [eraseSuper]

@[simp] theorem swapBlk_keep (s : State) (old new : Nat) : (swapBlk s old new).pending = s.pending ∧ (swapBlk s old new).sec.otp = s.sec.otp := ⟨rfl, rfl⟩

@[simp] theorem moveBlk_keep (s : State) (old new reason : Nat) : (moveBlk s old new reason).pending = s.pending ∧ (moveBlk s old new reason).sec.otp = s.sec.otp := by simp [moveBlk]

theorem rebuildBlks_keep  (x0 : List Nat) (s : State)  (x : State) (hx : rebuildBlks  x0 s = some x) : x.pending = s.pending ∧ x.sec.otp = s.sec.otp := by
  induction x0 generalizing s with
  | nil => simp [rebuildBlks] at hx; subst hx; exact ⟨rfl, rfl⟩
  | cons k l ih =>
    unfold rebuildBlks at hx
    split at hx
    · cases hx
    · have h2 := ih _ hx; simpa using h2

@[simp] theorem queueBlk_keep (s : State) (k reason val floor : Nat) : (queueBlk s k reason val floor).pending = s.pending ∧ (queueBlk s k reason val floor).sec.otp = s.sec.otp := by
  unfold queueBlk; split <;> simp

@[simp] theorem wearBlocks_keep (s : State) : (wearBlocks s).pending = s.pending ∧ (wearBlocks s).sec.otp = s.sec.otp := by
  unfold wearBlocks; first | (((repeat' split) <;> simp); done) | (repeat' (first | (with_reducible rfl) | (with_reducible assumption) | intro _ | apply And.intro | (simp; done) | split | dsimp only | (with_reducible refine (foldl_pending _ _ _ ?_).trans ?_) | (with_reducible refine (foldl_otp _ _ _ ?_).trans ?_) | (with_reducible refine (foldl_fst_pending _ _ _ ?_).trans ?_) | (with_reducible refine (foldl_fst_otp _ _ _ ?_).trans ?_) | simp))

@[simp] theorem wearLevel_keep (s : State) (lo code setAt clearAt eol hours : Nat) : (wearLevel s lo code setAt clearAt eol hours).1.pending = s.pending ∧ (wearLevel s lo code setAt clearAt eol hours).1.sec.otp = s.sec.otp := by
  unfold wearLevel; dsimp only; (repeat' split) <;> simp

end Sys2Proof.Machine
end

