-- ==== Sys2Proof/Laws/KeepE.lean ====
section
/-! SUPPORT. What no operation changes, the queue of commands and one-time storage: tamper, power, the witness mesh and boot. -/
set_option linter.unusedTactic false
set_option linter.unreachableTactic false
set_option linter.unusedSimpArgs false
set_option linter.unnecessarySeqFocus false
set_option linter.unnecessarySimpa false
set_option linter.unusedVariables false
namespace Sys2Proof.Machine

open Sys2Proof

@[simp] theorem eventFlags_keep (s : State) (kind code : Nat) (par : List Nat) (tai u flags : Nat) : (eventFlags s kind code par tai u flags).pending = s.pending ∧ (eventFlags s kind code par tai u flags).sec.otp = s.sec.otp := by simp [eventFlags]

@[simp] theorem latch_keep (s : State) (r : Raise) : (latch s r).pending = s.pending ∧ (latch s r).sec.otp = s.sec.otp := by simp [latch]

@[simp] theorem reactSuspend_keep (s : State) : (reactSuspend s).pending = s.pending ∧ (reactSuspend s).sec.otp = s.sec.otp := by simp [reactSuspend]

@[simp] theorem zeroize_keep (s : State) : (zeroize s).pending = s.pending ∧ (zeroize s).sec.otp = s.sec.otp := ⟨rfl, rfl⟩

@[simp] theorem react_keep (s : State) (n : Nat) : (react s n).pending = s.pending ∧ (react s n).sec.otp = s.sec.otp := by simp [react]

@[simp] theorem tamper_keep (s : State) (l : List Raise) : (tamper s l).pending = s.pending ∧ (tamper s l).sec.otp = s.sec.otp := by simp [tamper]

@[simp] theorem throttle_keep (s : State) (hot : Int) (idx : Nat) : (throttle s hot idx).pending = s.pending ∧ (throttle s hot idx).sec.otp = s.sec.otp := by simp [throttle]

@[simp] theorem putVoted_keep (s : State) (b off key : Nat) (v : Voted) : (putVoted s b off key v).pending = s.pending ∧ (putVoted s b off key v).sec.otp = s.sec.otp := by
  unfold putVoted; (repeat' split) <;> simp

@[simp] theorem scrubField_keep (s : State) (b off key lo w : Nat) (us : List Upset) : (scrubField s b off key lo w us).1.pending = s.pending ∧ (scrubField s b off key lo w us).1.sec.otp = s.sec.otp := by
  unfold scrubField; dsimp only; (repeat' split) <;> simp

@[simp] theorem scrubAll_keep (s : State) (us : List Upset) : (scrubAll s us).1.pending = s.pending ∧ (scrubAll s us).1.sec.otp = s.sec.otp := by simp [scrubAll]

@[simp] theorem programRows_keep (s : State) (l : List Row) : (programRows s l).pending = s.pending ∧ (programRows s l).sec.otp = s.sec.otp := by
  unfold programRows; constructor
  · refine foldl_pending _ _ _ ?_
    intro a x
    cases e : programRow a x.stream false x.seg [] [] with
    | none => simp [e]
    | some y => simp [e, programRow_keep (hx := e)]
  · refine foldl_otp _ _ _ ?_
    intro a x
    cases e : programRow a x.stream false x.seg [] [] with
    | none => simp [e]
    | some y => simp [e, programRow_keep (hx := e)]

@[simp] theorem flushAll_keep (s : State) : (flushAll s).pending = s.pending ∧ (flushAll s).sec.otp = s.sec.otp := by simp [flushAll]

@[simp] theorem holdGrains_keep (s : State) (hf : HoldFlush) : (holdGrains s hf).pending = s.pending ∧ (holdGrains s hf).sec.otp = s.sec.otp := by
  unfold holdGrains; first | (((repeat' split) <;> simp); done) | (repeat' (first | (with_reducible rfl) | (with_reducible assumption) | intro _ | apply And.intro | (simp; done) | split | dsimp only | (with_reducible refine (foldl_pending _ _ _ ?_).trans ?_) | (with_reducible refine (foldl_otp _ _ _ ?_).trans ?_) | (with_reducible refine (foldl_fst_pending _ _ _ ?_).trans ?_) | (with_reducible refine (foldl_fst_otp _ _ _ ?_).trans ?_) | simp))

@[simp] theorem holdFlushDone_keep (s : State) : (holdFlushDone s).pending = s.pending ∧ (holdFlushDone s).sec.otp = s.sec.otp := by
  unfold holdFlushDone; split <;> simp

@[simp] theorem pfAppend_keep (s : State) (t : Nat) (body : List Byte) : (pfAppend s t body).pending = s.pending ∧ (pfAppend s t body).sec.otp = s.sec.otp := by simp [pfAppend]

@[simp] theorem flushWith_keep (s : State) (tenants : List Nat) (cause kept : Nat) : (flushWith s tenants cause kept).pending = s.pending ∧ (flushWith s tenants cause kept).sec.otp = s.sec.otp := by simp [flushWith]

@[simp] theorem powerFlush_keep (s : State) (cause kept : Nat) : (powerFlush s cause kept).pending = s.pending ∧ (powerFlush s cause kept).sec.otp = s.sec.otp := by
  unfold powerFlush; split <;> simp

@[simp] theorem bufferLost_keep (s : State) : (bufferLost s).pending = s.pending ∧ (bufferLost s).sec.otp = s.sec.otp := ⟨rfl, rfl⟩

@[simp] theorem resetTo_keep (s : State) (cause : Nat) : (resetTo s cause).pending = s.pending ∧ (resetTo s cause).sec.otp = s.sec.otp := ⟨rfl, rfl⟩

@[simp] theorem heldReset_keep (s : State) (done : Bool) : (heldReset s done).pending = s.pending ∧ (heldReset s done).sec.otp = s.sec.otp := ⟨rfl, rfl⟩

@[simp] theorem release_keep (s : State) : (release s).pending = s.pending ∧ (release s).sec.otp = s.sec.otp := ⟨rfl, rfl⟩

@[simp] theorem resetSource_keep (s : State) (cause : Nat) : (resetSource s cause).pending = s.pending ∧ (resetSource s cause).sec.otp = s.sec.otp := by simp [resetSource]

@[simp] theorem pfSequence_keep (s : State) (kept lat : Nat) : (pfSequence s kept lat).pending = s.pending ∧ (pfSequence s kept lat).sec.otp = s.sec.otp := by simp [pfSequence]

@[simp] theorem resetIfAsked_keep (s : State) : (resetIfAsked s).pending = s.pending ∧ (resetIfAsked s).sec.otp = s.sec.otp := by simp [resetIfAsked]

@[simp] theorem putCwin_keep (s : State) (c : Nat) : (putCwin s c).pending = s.pending ∧ (putCwin s c).sec.otp = s.sec.otp := ⟨rfl, rfl⟩

@[simp] theorem supersede_keep (s : State) (cjn : Nat) : (supersede s cjn).pending = s.pending ∧ (supersede s cjn).sec.otp = s.sec.otp := by simp [supersede]

@[simp] theorem modeRefused_keep (s : State) : (modeRefused s).st.pending = s.pending ∧ (modeRefused s).st.sec.otp = s.sec.otp := ⟨rfl, rfl⟩

@[simp] theorem stopRun_keep (s : State) : (stopRun s).pending = s.pending ∧ (stopRun s).sec.otp = s.sec.otp := by
  unfold stopRun; split <;> simp

@[simp] theorem updTag_keep (s : State) (a : Nat) (f : Tag → Tag) : (updTag s a f).pending = s.pending ∧ (updTag s a f).sec.otp = s.sec.otp := ⟨rfl, rfl⟩

@[simp] theorem meshStart_keep (s : State) : (meshStart s).pending = s.pending ∧ (meshStart s).sec.otp = s.sec.otp := by
  unfold meshStart; first | (((repeat' split) <;> simp); done) | (repeat' (first | (with_reducible rfl) | (with_reducible assumption) | intro _ | apply And.intro | (simp; done) | split | dsimp only | simp))

@[simp] theorem witApply_keep (s : State) : (witApply s).pending = s.pending ∧ (witApply s).sec.otp = s.sec.otp := by simp [witApply]

@[simp] theorem authFail_keep (s : State) : (authFail s).pending = s.pending ∧ (authFail s).sec.otp = s.sec.otp := ⟨rfl, rfl⟩

@[simp] theorem acceptFrame_keep (s : State) (a c : Nat) : (acceptFrame s a c).pending = s.pending ∧ (acceptFrame s a c).sec.otp = s.sec.otp := by simp [acceptFrame]

@[simp] theorem replayFrame_keep (s : State) (a : Nat) : (replayFrame s a).pending = s.pending ∧ (replayFrame s a).sec.otp = s.sec.otp := by simp [replayFrame]

@[simp] theorem counterRule_keep_pending (s : State) (a c : Nat) (f : State → State)  (hh : ∀ a, (f a).pending = a.pending) : (counterRule s a c f).pending = s.pending := by
  unfold counterRule; repeat' (first | (with_reducible rfl) | (with_reducible assumption) | intro _ | apply And.intro | (simp [hh]; done) | split | dsimp only | simp [hh])

@[simp] theorem counterRule_keep_sec_otp (s : State) (a c : Nat) (f : State → State)  (hh : ∀ a, (f a).sec.otp = a.sec.otp) : (counterRule s a c f).sec.otp = s.sec.otp := by
  unfold counterRule; repeat' (first | (with_reducible rfl) | (with_reducible assumption) | intro _ | apply And.intro | (simp [hh]; done) | split | dsimp only | simp [hh])

@[simp] theorem tagReport_keep (s : State) (f : WitFrame) : (tagReport s f).pending = s.pending ∧ (tagReport s f).sec.otp = s.sec.otp := by simp [tagReport]

@[simp] theorem tagFrame_keep (s : State) (f : WitFrame) : (tagFrame s f).pending = s.pending ∧ (tagFrame s f).sec.otp = s.sec.otp := by simp [tagFrame]

@[simp] theorem loopMeas_keep (s : State) (r : Option Nat) : (loopMeas s r).2.pending = s.pending ∧ (loopMeas s r).2.sec.otp = s.sec.otp := by
  unfold loopMeas; (repeat' split) <;> simp

@[simp] theorem loopPulse_keep (s : State) (n c meas : Nat) : (loopPulse s n c meas).pending = s.pending ∧ (loopPulse s n c meas).sec.otp = s.sec.otp := by simp [loopPulse]

@[simp] theorem loopCal_keep (s : State) (n : Nat) (l : List Nat) : (loopCal s n l).pending = s.pending ∧ (loopCal s n l).sec.otp = s.sec.otp := by simp [loopCal]

@[simp] theorem bootFail_keep (s : State) : (bootFail s).pending = s.pending ∧ (bootFail s).sec.otp = s.sec.otp := by simp [bootFail]

@[simp] theorem stepS0_keep (s : State) : (stepS0 s).pending = s.pending ∧ (stepS0 s).sec.otp = s.sec.otp := ⟨rfl, rfl⟩

@[simp] theorem stepS1_keep (f : BootFacts) (s : State) : (stepS1 f s).pending = s.pending ∧ (stepS1 f s).sec.otp = s.sec.otp := by
  unfold stepS1; dsimp only; split <;> simp

@[simp] theorem stepS2_keep (f : BootFacts) (s : State) : (stepS2 f s).pending = s.pending ∧ (stepS2 f s).sec.otp = s.sec.otp := by simp [stepS2]

@[simp] theorem stepS3_keep (f : BootFacts) (s : State) : (stepS3 f s).pending = s.pending ∧ (stepS3 f s).sec.otp = s.sec.otp := by
  unfold stepS3; dsimp only; split <;> simp

@[simp] theorem stepS4_keep (s : State) : (stepS4 s).pending = s.pending ∧ (stepS4 s).sec.otp = s.sec.otp := by
  unfold stepS4; (repeat' split) <;> simp

@[simp] theorem flashScan_keep (f : BootFacts) (s : State) : (flashScan f s).pending = s.pending ∧ (flashScan f s).sec.otp = s.sec.otp := by simp [flashScan]

@[simp] theorem rebuildGrain_keep (t : Nat) (s : State) (g : Grain) : (rebuildGrain t s g).pending = s.pending ∧ (rebuildGrain t s g).sec.otp = s.sec.otp := by simp [rebuildGrain]

@[simp] theorem rebuildBooks_keep (s : State) : (rebuildBooks s).pending = s.pending ∧ (rebuildBooks s).sec.otp = s.sec.otp := by
  unfold rebuildBooks; first | (((repeat' split) <;> simp); done) | (repeat' (first | (with_reducible rfl) | (with_reducible assumption) | intro _ | apply And.intro | (simp; done) | split | dsimp only | (with_reducible refine (foldl_pending _ _ _ ?_).trans ?_) | (with_reducible refine (foldl_otp _ _ _ ?_).trans ?_) | (with_reducible refine (foldl_fst_pending _ _ _ ?_).trans ?_) | (with_reducible refine (foldl_fst_otp _ _ _ ?_).trans ?_) | simp))

@[simp] theorem writeHeld_keep (s : State) : (writeHeld s).pending = s.pending ∧ (writeHeld s).sec.otp = s.sec.otp := by simp [writeHeld]

@[simp] theorem writeCjn_keep (s : State) (n : Nat) : (writeCjn s n).pending = s.pending ∧ (writeCjn s n).sec.otp = s.sec.otp := by
  unfold writeCjn; (repeat' split) <;> simp

@[simp] theorem writeCommands_keep (s : State) : (writeCommands s).pending = s.pending ∧ (writeCommands s).sec.otp = s.sec.otp := by simp [writeCommands]

@[simp] theorem rebuildTags_keep (s : State) : (rebuildTags s).pending = s.pending ∧ (rebuildTags s).sec.otp = s.sec.otp := ⟨rfl, rfl⟩

@[simp] theorem relog_keep (s : State) : (relog s).pending = s.pending ∧ (relog s).sec.otp = s.sec.otp := by simp [relog]

@[simp] theorem restoreLeap_keep (s : State) : (restoreLeap s).pending = s.pending ∧ (restoreLeap s).sec.otp = s.sec.otp := by
  unfold restoreLeap; split <;> simp

@[simp] theorem restoreArea_keep (f : BootFacts) (s : State) : (restoreArea f s).pending = s.pending ∧ (restoreArea f s).sec.otp = s.sec.otp := ⟨rfl, rfl⟩

@[simp] theorem restoreCommands_keep (s : State) : (restoreCommands s).pending = s.pending ∧ (restoreCommands s).sec.otp = s.sec.otp := by simp [restoreCommands]

@[simp] theorem restoreJournal_keep (s : State) : (restoreJournal s).pending = s.pending ∧ (restoreJournal s).sec.otp = s.sec.otp := by
  unfold restoreJournal; first | (((repeat' split) <;> simp); done) | (repeat' (first | (with_reducible rfl) | (with_reducible assumption) | intro _ | apply And.intro | (simp; done) | split | dsimp only | simp))

@[simp] theorem endS5_keep (f : BootFacts) (s : State) : (endS5 f s).pending = s.pending ∧ (endS5 f s).sec.otp = s.sec.otp := by
  unfold endS5; first | (((repeat' split) <;> simp); done) | (repeat' (first | (with_reducible rfl) | (with_reducible assumption) | intro _ | apply And.intro | (simp; done) | split | dsimp only | simp))

@[simp] theorem stepS5_keep (f : BootFacts) (s : State) : (stepS5 f s).pending = s.pending ∧ (stepS5 f s).sec.otp = s.sec.otp := by
  unfold stepS5; (repeat' split) <;> simp

@[simp] theorem applyDecl_keep (s : State) (d : Decl) (cjn : Nat) : (applyDecl s d cjn).pending = s.pending ∧ (applyDecl s d cjn).sec.otp = s.sec.otp := by simp [applyDecl]

@[simp] theorem stepS6_keep (s : State) : (stepS6 s).pending = s.pending ∧ (stepS6 s).sec.otp = s.sec.otp := by
  unfold stepS6; dsimp only; (repeat' split) <;> simp

@[simp] theorem stepS7_keep (f : BootFacts) (s : State) : (stepS7 f s).pending = s.pending ∧ (stepS7 f s).sec.otp = s.sec.otp := by simp [stepS7]

@[simp] theorem chainD_keep (s : State) (g : GReq) : (chainD s g).pending = s.pending ∧ (chainD s g).sec.otp = s.sec.otp := by simp [chainD]

@[simp] theorem stepS9_keep (s : State) : (stepS9 s).pending = s.pending := by simp [stepS9]

@[simp] theorem putCounts_keep (s : State) (t num : Nat) (es : List (Nat × List Nat)) : (putCounts s t num es).pending = s.pending ∧ (putCounts s t num es).sec.otp = s.sec.otp := by simp [putCounts]

@[simp] theorem putParts_keep  (x0 : Nat) (s : State) (x2 : Nat) (x3 : Nat) (x4 : Nat) (x5 : List (Nat × List Nat)) : (putParts  x0 s x2 x3 x4 x5).pending = s.pending ∧ (putParts  x0 s x2 x3 x4 x5).sec.otp = s.sec.otp := by
  induction x0 generalizing s x2 x3 x4 x5 with
  | zero => simp [putParts]
  | succ k ih => unfold putParts; split <;> simp [ih]

@[simp] theorem measCheck_keep (s : State) : (measCheck s).pending = s.pending ∧ (measCheck s).sec.otp = s.sec.otp := by
  unfold measCheck; split <;> simp

@[simp] theorem runGrain_keep (s : State) : (runGrain s).pending = s.pending ∧ (runGrain s).sec.otp = s.sec.otp := by
  unfold runGrain; (repeat' split) <;> simp

@[simp] theorem putSecond_keep (s : State) (sec ch : Nat) : (putSecond s sec ch).pending = s.pending ∧ (putSecond s sec ch).sec.otp = s.sec.otp := by
  unfold putSecond; split <;> simp

@[simp] theorem summarize_keep (s : State) (tier : Nat) : (summarize s tier).pending = s.pending ∧ (summarize s tier).sec.otp = s.sec.otp := by simp [summarize]

end Sys2Proof.Machine
end

