-- ==== Sys2Proof/Laws/KeepF.lean ====
section
/-! SUPPORT. What no operation changes, the queue of commands and one-time storage: the console. -/
set_option linter.unusedTactic false
set_option linter.unreachableTactic false
set_option linter.unusedSimpArgs false
set_option linter.unnecessarySeqFocus false
set_option linter.unnecessarySimpa false
set_option linter.unusedVariables false
namespace Sys2Proof.Machine

open Sys2Proof

@[simp] theorem toObserve_keep (s : State) (c : Nat) : (toObserve s c).pending = s.pending ∧ (toObserve s c).sec.otp = s.sec.otp := ⟨rfl, rfl⟩

@[simp] theorem dropAuth_keep (s : State) (c cause : Nat) : (dropAuth s c cause).pending = s.pending ∧ (dropAuth s c cause).sec.otp = s.sec.otp := by simp [dropAuth]

@[simp] theorem badLine_keep (s : State) (con code : Nat) : (badLine s con code).pending = s.pending ∧ (badLine s con code).sec.otp = s.sec.otp := by simp [badLine]

@[simp] theorem authLine_keep_pending (l : ConLine) (sp : CmdSpec) (act : Nat → State → ActRes) (s : State)  (hact : ∀ n a, (act n a).st.pending = a.pending) : (authLine l sp act s).pending = s.pending := by
  unfold authLine; repeat' (first | (with_reducible rfl) | (with_reducible assumption) | intro _ | apply And.intro | (simp [hact]; done) | split | dsimp only | with_reducible apply runCmd_keep_pending | with_reducible apply runCmd_keep_sec_otp | simp [hact])

@[simp] theorem authLine_keep_sec_otp (l : ConLine) (sp : CmdSpec) (act : Nat → State → ActRes) (s : State)  (hact : ∀ n a, (act n a).st.sec.otp = a.sec.otp) : (authLine l sp act s).sec.otp = s.sec.otp := by
  unfold authLine; repeat' (first | (with_reducible rfl) | (with_reducible assumption) | intro _ | apply And.intro | (simp [hact]; done) | split | dsimp only | with_reducible apply runCmd_keep_pending | with_reducible apply runCmd_keep_sec_otp | simp [hact])

@[simp] theorem challenge_keep (l : ConLine) (level : Auth) (cjn : Nat) (s : State) : (challenge l level cjn s).st.pending = s.pending ∧ (challenge l level cjn s).st.sec.otp = s.sec.otp := by
  unfold challenge; split <;> simp

@[simp] theorem authFailed_keep (s : State) (c : Nat) : (authFailed s c).pending = s.pending ∧ (authFailed s c).sec.otp = s.sec.otp := ⟨rfl, rfl⟩

@[simp] theorem cjWait_keep (from_ cjn : Nat) (s : State) : (cjWait from_ cjn s).st.pending = s.pending ∧ (cjWait from_ cjn s).st.sec.otp = s.sec.otp := by
  unfold cjWait; split <;> simp

@[simp] theorem consume1_keep_pending (l : ConLine) (f : List Byte → ActRes) (s : State)  (hh : ∀ b, (f b).st.pending = s.pending) : (consume1 l f s).st.pending = s.pending := by
  unfold consume1; repeat' (first | (with_reducible rfl) | (with_reducible assumption) | intro _ | apply And.intro | (simp [hh]; done) | split | dsimp only | simp [hh])

@[simp] theorem consume1_keep_sec_otp (l : ConLine) (f : List Byte → ActRes) (s : State)  (hh : ∀ b, (f b).st.sec.otp = s.sec.otp) : (consume1 l f s).st.sec.otp = s.sec.otp := by
  unfold consume1; repeat' (first | (with_reducible rfl) | (with_reducible assumption) | intro _ | apply And.intro | (simp [hh]; done) | split | dsimp only | simp [hh])

@[simp] theorem fuse_keep_pending (good : Bool) (s : State) (f : ActRes)  (hh : f.st.pending = s.pending) : (fuse good s f).st.pending = s.pending := by
  unfold fuse; repeat' (first | (with_reducible rfl) | (with_reducible assumption) | intro _ | apply And.intro | (simp [hh]; done) | split | dsimp only | simp [hh])

@[simp] theorem fuse_keep_sec_otp (good : Bool) (s : State) (f : ActRes)  (hh : f.st.sec.otp = s.sec.otp) : (fuse good s f).st.sec.otp = s.sec.otp := by
  unfold fuse; repeat' (first | (with_reducible rfl) | (with_reducible assumption) | intro _ | apply And.intro | (simp [hh]; done) | split | dsimp only | simp [hh])

@[simp] theorem writeGenesis_keep (s : State) : (writeGenesis s).pending = s.pending := by simp [writeGenesis]

@[simp] theorem envelopeErr_keep (s : State) (x : Nat) : (envelopeErr s x).st.pending = s.pending ∧ (envelopeErr s x).st.sec.otp = s.sec.otp := ⟨rfl, rfl⟩

@[simp] theorem setRules_keep (s : State) (t : Nat) (r : Rules) (cjn : Nat) : (setRules s t r cjn).pending = s.pending ∧ (setRules s t r cjn).sec.otp = s.sec.otp := by simp [setRules]

@[simp] theorem numberAll_keep (s : State) (t : Nat) : (numberAll s t).pending = s.pending ∧ (numberAll s t).sec.otp = s.sec.otp := by simp [numberAll]

@[simp] theorem stepTo_keep (s : State) (r : Nat) (off : Int) (cjn : Nat) : (stepTo s r off cjn).pending = s.pending ∧ (stepTo s r off cjn).sec.otp = s.sec.otp := by simp [stepTo]

theorem bookLine_keep (l : ConLine) (sp : CmdSpec) (act : Nat → State → ActRes) (s : State) (h1 : ∀ n a, (act n a).st.pending = a.pending)
    (h2 : ∀ n a, (act n a).st.sec.otp = a.sec.otp) : ∃ x, bookLine l sp act s = .next x ∧ x.pending = s.pending ∧ x.sec.otp = s.sec.otp := by
  unfold bookLine
  refine ⟨_, rfl, ?_, ?_⟩
  · apply runCmd_keep_pending; intro n a; split <;> simp [h1]
  · apply runCmd_keep_sec_otp; intro n a; split <;> simp [h2]

@[simp] theorem viaBook_keep (s : State) (op scope t b mask : Nat) (mirrorOk : Nat → Bool) (cjn : Nat) : (viaBook s op scope t b mask mirrorOk cjn).pending = s.pending ∧ (viaBook s op scope t b mask mirrorOk cjn).sec.otp = s.sec.otp := by simp [viaBook]

@[simp] theorem bookErr_keep (s : State) (r : Nat) : (bookErr s r).st.pending = s.pending ∧ (bookErr s r).st.sec.otp = s.sec.otp := by
  unfold bookErr; split <;> simp

@[simp] theorem bookDone_keep (s : State) (r : Nat) (vals : List Int) : (bookDone s r vals).st.pending = s.pending ∧ (bookDone s r vals).st.sec.otp = s.sec.otp := by
  unfold bookDone; split <;> simp

@[simp] theorem bookMoved_keep (s : State) (cjn k : Nat) : (bookMoved s cjn k).st.pending = s.pending ∧ (bookMoved s cjn k).st.sec.otp = s.sec.otp := by simp [bookMoved]

@[simp] theorem openBookAct_keep (t b cjn : Nat) (s : State) : (openBookAct t b cjn s).st.pending = s.pending ∧ (openBookAct t b cjn s).st.sec.otp = s.sec.otp := by simp [openBookAct]

@[simp] theorem suspendBookAct_keep (t b cjn : Nat) (s : State) : (suspendBookAct t b cjn s).st.pending = s.pending ∧ (suspendBookAct t b cjn s).st.sec.otp = s.sec.otp := by simp [suspendBookAct]

@[simp] theorem resumed_keep (s : State) (cjn : Nat) (counts : List Int) : (resumed s cjn counts).st.pending = s.pending ∧ (resumed s cjn counts).st.sec.otp = s.sec.otp := by simp [resumed]

@[simp] theorem resumeAct_keep (con scope t b : Nat) (causes : List Nat) (cjn : Nat) (s : State) : (resumeAct con scope t b causes cjn s).st.pending = s.pending ∧ (resumeAct con scope t b causes cjn s).st.sec.otp = s.sec.otp := by simp [resumeAct]

theorem resume_keep (l : ConLine) (scope t b : Nat) (causes : List Nat) (s : State) : ∃ x, resume l scope t b causes s = .next x ∧ x.pending = s.pending ∧ x.sec.otp = s.sec.otp := by
  unfold resume; with_reducible apply bookLine_keep <;> (repeat' (first | (with_reducible rfl) | (with_reducible assumption) | intro _ | apply And.intro | (simp; done) | split | dsimp only | simp))

@[simp] theorem retireTenant_keep (s : State) (t : Nat) (par : List Nat) (cjn : Nat) : (retireTenant s t par cjn).1.pending = s.pending ∧ (retireTenant s t par cjn).1.sec.otp = s.sec.otp := by
  unfold retireTenant; split <;> simp

@[simp] theorem retireNow_keep (s : State) (t cjn : Nat) (pre : List Segment) (a z : Segment) : (retireNow s t cjn pre a z).st.pending = s.pending ∧ (retireNow s t cjn pre a z).st.sec.otp = s.sec.otp := by simp [retireNow]

@[simp] theorem dropRetired_keep (s : State) (t n : Nat) : (dropRetired s t n).pending = s.pending ∧ (dropRetired s t n).sec.otp = s.sec.otp := by simp [dropRetired]

@[simp] theorem eraseRetired_keep (s : State) (t : Nat) (bad : List Nat) : (eraseRetired s t bad).1.pending = s.pending ∧ (eraseRetired s t bad).1.sec.otp = s.sec.otp := by simp [eraseRetired]

@[simp] theorem finishCmd_keep (s : State) (c : Cmd) (r : ConReply) : (finishCmd s c r).pending = s.pending ∧ (finishCmd s c r).sec.otp = s.sec.otp := by simp [finishCmd]

@[simp] theorem newEpoch_keep (s : State) (t : Nat) : (newEpoch s t).pending = s.pending ∧ (newEpoch s t).sec.otp = s.sec.otp := by simp [newEpoch]

@[simp] theorem runShow_keep_pending (l : ConLine) (argsOk : Bool) (f : State → ActRes) (s : State)  (hh : ∀ a, (f a).st.pending = a.pending) : (runShow l argsOk f s).pending = s.pending := by
  unfold runShow; repeat' (first | (with_reducible rfl) | (with_reducible assumption) | intro _ | apply And.intro | (simp [hh]; done) | split | dsimp only | with_reducible apply runCmd_keep_pending | with_reducible apply runCmd_keep_sec_otp | simp [hh])

@[simp] theorem runShow_keep_sec_otp (l : ConLine) (argsOk : Bool) (f : State → ActRes) (s : State)  (hh : ∀ a, (f a).st.sec.otp = a.sec.otp) : (runShow l argsOk f s).sec.otp = s.sec.otp := by
  unfold runShow; repeat' (first | (with_reducible rfl) | (with_reducible assumption) | intro _ | apply And.intro | (simp [hh]; done) | split | dsimp only | with_reducible apply runCmd_keep_pending | with_reducible apply runCmd_keep_sec_otp | simp [hh])

@[simp] theorem viewAs_keep (s : State) (c t : Nat) : (viewAs s c t).pending = s.pending ∧ (viewAs s c t).sec.otp = s.sec.otp := ⟨rfl, rfl⟩

@[simp] theorem savedField_keep (s : State) (t : Nat) (areas : List Nat) (r : Nat) : (savedField s t areas r).1.pending = s.pending ∧ (savedField s t areas r).1.sec.otp = s.sec.otp := by
  unfold savedField; (repeat' split) <;> simp

end Sys2Proof.Machine
end

