-- ==== Sys2Proof/Laws/OneTime.lean ====
section
/-! SUPPORT. One-time storage: the order between two of its states, and what a console line does with it. -/
namespace Sys2Proof.Machine

open Sys2Proof

theorem otple_of_eq {a b : OtpSt} (h : b = a) : OtpLe a b := by subst h; exact ⟨fun _ h => h, fun _ _ h => h, fun _ h => h, fun _ => rfl, Nat.le_refl _⟩

theorem otple_trans {a b c : OtpSt} (h : OtpLe a b) (k : OtpLe b c) : OtpLe a c :=
  ⟨fun x hx => k.1 x (h.1 x hx), fun i x hx => k.2.1 i x (h.2.1 i x hx), fun i hx => k.2.2.1 i (h.2.2.1 i hx), fun hr => (k.2.2.2.1 (by rw [h.2.2.2.1 hr]; exact hr)).trans (h.2.2.2.1 hr), Nat.le_trans h.2.2.2.2 k.2.2.2.2⟩

/-- The one-time storage of t is that of s, or what one run of a console line's action made of it. -/
def OtpAct (act : Nat → State → ActRes) (s t : State) : Prop := t.sec.otp = s.sec.otp ∨ ∃ n a, a.sec.otp = s.sec.otp ∧ t.sec.otp = (act n a).st.sec.otp

theorem early_otp (l : ConLine) (sp : CmdSpec) (act : Nat → State → ActRes) (s : State) : OtpAct act s (earlyCmd l sp act s) := by
  unfold earlyCmd; split
  · left; simp
  · split
    · left; simp
    · split
      · left; simp
      · right; refine ⟨0, if sp.early then logOpen s [] else s, ?_, ?_⟩
        · split <;> simp
        · dsimp only; repeat' split
          all_goals simp

theorem late_otp (l : ConLine) (sp : CmdSpec) (act : Nat → State → ActRes) (n : Nat) (s : State) : OtpAct act s (lateCmd l sp act n s) := by
  unfold lateCmd; split
  · left; simp
  · split
    · left; simp
    · right; refine ⟨n, s, rfl, ?_⟩
      dsimp only; split
      · simp
      · rfl

theorem tagged_otp (l : ConLine) (sp : CmdSpec) (act : Nat → State → ActRes) (c : Cmd) (s : State) : OtpAct act s (tagged l sp act c s) := by
  unfold tagged; split
  · split
    · left; simp
    · exact late_otp ..
  · split
    · split
      · left; simp
      · left; simp
    · left; simp

theorem otpAct_of {act : Nat → State → ActRes} {s u t : State} (h : u.sec.otp = s.sec.otp) (k : OtpAct act u t) : OtpAct act s t := by
  rcases k with k | ⟨n, a, k, e⟩
  · exact Or.inl (k.trans h)
  · exact Or.inr ⟨n, a, k.trans h, e⟩

theorem runCmd_otp (l : ConLine) (sp : CmdSpec) (act : Nat → State → ActRes) (s : State) : OtpAct act s (runCmd l sp act s) := by
  unfold runCmd; split
  · exact Or.inl rfl
  · dsimp only; split
    · exact otpAct_of (by simp) (early_otp ..)
    · split
      · exact otpAct_of (by simp) (late_otp ..)
      · exact otpAct_of (by simp) (tagged_otp ..)

end Sys2Proof.Machine
end

