-- ==== Sys2Proof/Laws/Operands.lean ====
section
/-! SUPPORT. Operands of instructions: consuming them, addresses, delivering a result. -/
namespace Sys2Proof.Machine

open Sys2Proof

theorem tg : tINT = 0 ∧ tMONEY = 1 ∧ tCHAR = 2 ∧ tBOOL = 3 ∧ tSYMBOL = 4 ∧ tNIL = 5 ∧ tUNBOUND = 6 ∧ tTIME = 7 ∧ tCONS = 0x10 ∧ tVECTOR = 0x11 ∧ tSTRING = 0x12 ∧
  tBIGNUM = 0x13 ∧ tRECORD = 0x14 ∧ tCLOSURE = 0x15 ∧ tCODE = 0x16 ∧ tFORWARD = 0x17 ∧ tHEADER = 0x18 ∧ tRATIO = 0x19 ∧ tSAVELINK = 0x1F ∧ tRETADDR = 0x20 ∧ tSTACKPTR = 0x21 ∧
  tCTXREF = 0x22 ∧ tRAW = 0x30 ∧ tPOISON = 0xFF := by decide

theorem tPOISON_def : tPOISON = 0xFF := rfl

theorem cons_rat {x y : TWord} (hx : isRational x = true) (hy : isRational y = true) : consumeTrap [x, y] = none := by
  obtain ⟨a, b⟩ := x; obtain ⟨d, e⟩ := y
  simp [isRational, isInteger] at hx hy
  rcases hx with (rfl | rfl) | rfl <;> rcases hy with (rfl | rfl) | rfl <;> rfl

theorem sval_simm (g : IF) : sval (wInt (simm g)) = simm g := by
  have := g.imm.toInt_lt; have := g.imm.le_toInt
  simp only [sval, wInt, simm, BitVec.toInt_ofInt]
  apply Int.bmod_eq_of_le <;> omega

theorem destBad_tag' {s : State} {c d : Nat} (h : destBad s c d wNil = false) (v : TWord) (hv : v.tag ≠ tSTACKPTR) : destBad s c d v = false := by
  have h2 : wNil.tag ≠ tSTACKPTR := by decide
  simpa [destBad, hv, h2] using h

theorem lenCells_nil (n : Nat) (s : State) (c : Nat) (w : TWord) (k : Nat) (h : w.tag = tNIL) : lenCells n s c w k = .ok s k := by
  cases n <;> simp [lenCells, h]

theorem ptrChk_ok {s : State} {v : BitVec 64} {k : Nat} (h : ptrOk v = true) : ptrChk s v k = .ok s v.toNat := by
  unfold ptrChk; rw [if_pos h]

theorem addrChk_ok {s : State} {a : Nat} {k : Nat} (h : a < 2 ^ 48) : addrChk s (a : Int) k = .ok s a := by
  have : (0 : Int) ≤ a ∧ (a : Int) < 2 ^ 48 := by omega
  unfold addrChk; rw [if_pos this]; rfl

theorem ptr_lt {v : BitVec 64} (h : ptrOk v = true) : v.toNat < 2 ^ 48 := by
  simp only [ptrOk, Bool.and_eq_true, decide_eq_true_eq] at h; exact h.1

theorem deliverInt {s : State} {c d : Nat} (n : Int) (h : destBad s c d wNil = false) : deliver s c d (wInt n) = .done (putReg s c d (wInt n)) := by
  have := destBad_tag' h (wInt n) (by show tINT ≠ _; decide)
  simp [deliver, this]

theorem effAddr_ok {s : State} {c a k : Nat} {w : TWord} {i : Int} (h1 : w.tag ∈ baseTags (lvlOf s c)) (h2 : w.tag = tRAW ∨ ptrOk w.val = true)
    (h3 : (a : Int) = w.val.toNat + i) (h4 : a < 2 ^ 48) : effAddr s c w i k = .ok s a := by
  unfold effAddr
  rw [if_neg (by simp [h1]), if_neg (by rcases h2 with h2 | h2 <;> simp [h2]), ← h3]
  exact addrChk_ok h4

theorem base_consume {n : Nat} {w : TWord} (h : w.tag ∈ baseTags n) : w.tag ≠ tPOISON ∧ w.tag ≠ tUNBOUND := by
  unfold baseTags at h; split at h
  · simp at h; rw [h]; decide
  · simp at h; rcases h with h | h | h | h | h | h | h | h | h | h | h <;> rw [h] <;> decide

theorem consume_one {s : State} {w : TWord} {f : IRes} (h : w.tag ≠ tPOISON ∧ w.tag ≠ tUNBOUND) : consume s [w] f = f := by
  simp [consume, consumeTrap, h.1, h.2]

theorem consume_two {s : State} {w v : TWord} {f : IRes} (h : w.tag ≠ tPOISON ∧ w.tag ≠ tUNBOUND) (h2 : v.tag ≠ tPOISON ∧ v.tag ≠ tUNBOUND) : consume s [w, v] f = f := by
  simp [consume, consumeTrap, h.1, h.2, h2.1, h2.2]

theorem chk_no {s : State} {l : List (Bool × Trap)} {f : IRes} (h : firstTrap l = none) : chk s l f = f := by simp [chk, h]

end Sys2Proof.Machine
end

