-- ==== Sys2Proof/Laws/State.lean ====
section
/-! SUPPORT. What each update of State writes and what it leaves as it was, one lemma per field. -/
namespace Sys2Proof.Machine

open Sys2Proof

/-! ### rawSet -/

@[simp] theorem rawSet_sys_regs (s : State) (b off v : Nat) : (rawSet s b off v).sys.regs = ins s.sys.regs (rkey b off) (BitVec.ofNat 32 v) := rfl
@[simp] theorem rawSet_tim (s : State) (b off v : Nat) : (rawSet s b off v).tim = s.tim := rfl
@[simp] theorem rawSet_books (s : State) (b off v : Nat) : (rawSet s b off v).books = s.books := rfl
@[simp] theorem rawSet_jrn (s : State) (b off v : Nat) : (rawSet s b off v).jrn = s.jrn := rfl
@[simp] theorem rawSet_awp (s : State) (b off v : Nat) : (rawSet s b off v).awp = s.awp := rfl
@[simp] theorem rawSet_hlt (s : State) (b off v : Nat) : (rawSet s b off v).hlt = s.hlt := rfl
@[simp] theorem rawSet_con (s : State) (b off v : Nat) : (rawSet s b off v).con = s.con := rfl
@[simp] theorem rawSet_sec (s : State) (b off v : Nat) : (rawSet s b off v).sec = s.sec := rfl
@[simp] theorem rawSet_lane (s : State) (b off v : Nat) : (rawSet s b off v).lane = s.lane := rfl
@[simp] theorem rawSet_cpu (s : State) (b off v : Nat) : (rawSet s b off v).cpu = s.cpu := rfl
@[simp] theorem rawSet_pwr (s : State) (b off v : Nat) : (rawSet s b off v).pwr = s.pwr := rfl
@[simp] theorem rawSet_rpl (s : State) (b off v : Nat) : (rawSet s b off v).rpl = s.rpl := rfl
@[simp] theorem rawSet_mir (s : State) (b off v : Nat) : (rawSet s b off v).mir = s.mir := rfl
@[simp] theorem rawSet_fla (s : State) (b off v : Nat) : (rawSet s b off v).fla = s.fla := rfl
@[simp] theorem rawSet_wit (s : State) (b off v : Nat) : (rawSet s b off v).wit = s.wit := rfl
@[simp] theorem rawSet_free (s : State) (b off v : Nat) : (rawSet s b off v).free = s.free := rfl
@[simp] theorem rawSet_out (s : State) (b off v : Nat) : (rawSet s b off v).out = s.out := rfl
@[simp] theorem rawSet_pending (s : State) (b off v : Nat) : (rawSet s b off v).pending = s.pending := rfl

/-! ### fset -/

@[simp] theorem fset_tim (s : State) (b off lo w v : Nat) : (fset s b off lo w v).tim = s.tim := rfl
@[simp] theorem fset_books (s : State) (b off lo w v : Nat) : (fset s b off lo w v).books = s.books := rfl
@[simp] theorem fset_jrn (s : State) (b off lo w v : Nat) : (fset s b off lo w v).jrn = s.jrn := rfl
@[simp] theorem fset_awp (s : State) (b off lo w v : Nat) : (fset s b off lo w v).awp = s.awp := rfl
@[simp] theorem fset_hlt (s : State) (b off lo w v : Nat) : (fset s b off lo w v).hlt = s.hlt := rfl
@[simp] theorem fset_con (s : State) (b off lo w v : Nat) : (fset s b off lo w v).con = s.con := rfl
@[simp] theorem fset_sec (s : State) (b off lo w v : Nat) : (fset s b off lo w v).sec = s.sec := rfl
@[simp] theorem fset_lane (s : State) (b off lo w v : Nat) : (fset s b off lo w v).lane = s.lane := rfl
@[simp] theorem fset_cpu (s : State) (b off lo w v : Nat) : (fset s b off lo w v).cpu = s.cpu := rfl
@[simp] theorem fset_pwr (s : State) (b off lo w v : Nat) : (fset s b off lo w v).pwr = s.pwr := rfl
@[simp] theorem fset_rpl (s : State) (b off lo w v : Nat) : (fset s b off lo w v).rpl = s.rpl := rfl
@[simp] theorem fset_mir (s : State) (b off lo w v : Nat) : (fset s b off lo w v).mir = s.mir := rfl
@[simp] theorem fset_fla (s : State) (b off lo w v : Nat) : (fset s b off lo w v).fla = s.fla := rfl
@[simp] theorem fset_wit (s : State) (b off lo w v : Nat) : (fset s b off lo w v).wit = s.wit := rfl
@[simp] theorem fset_free (s : State) (b off lo w v : Nat) : (fset s b off lo w v).free = s.free := rfl
@[simp] theorem fset_out (s : State) (b off lo w v : Nat) : (fset s b off lo w v).out = s.out := rfl
@[simp] theorem fset_pending (s : State) (b off lo w v : Nat) : (fset s b off lo w v).pending = s.pending := rfl

/-! ### set64 -/

@[simp] theorem set64_tim (s : State) (b off v : Nat) : (set64 s b off v).tim = s.tim := rfl
@[simp] theorem set64_books (s : State) (b off v : Nat) : (set64 s b off v).books = s.books := rfl
@[simp] theorem set64_jrn (s : State) (b off v : Nat) : (set64 s b off v).jrn = s.jrn := rfl
@[simp] theorem set64_awp (s : State) (b off v : Nat) : (set64 s b off v).awp = s.awp := rfl
@[simp] theorem set64_hlt (s : State) (b off v : Nat) : (set64 s b off v).hlt = s.hlt := rfl
@[simp] theorem set64_con (s : State) (b off v : Nat) : (set64 s b off v).con = s.con := rfl
@[simp] theorem set64_sec (s : State) (b off v : Nat) : (set64 s b off v).sec = s.sec := rfl
@[simp] theorem set64_lane (s : State) (b off v : Nat) : (set64 s b off v).lane = s.lane := rfl
@[simp] theorem set64_cpu (s : State) (b off v : Nat) : (set64 s b off v).cpu = s.cpu := rfl
@[simp] theorem set64_pwr (s : State) (b off v : Nat) : (set64 s b off v).pwr = s.pwr := rfl
@[simp] theorem set64_rpl (s : State) (b off v : Nat) : (set64 s b off v).rpl = s.rpl := rfl
@[simp] theorem set64_mir (s : State) (b off v : Nat) : (set64 s b off v).mir = s.mir := rfl
@[simp] theorem set64_fla (s : State) (b off v : Nat) : (set64 s b off v).fla = s.fla := rfl
@[simp] theorem set64_wit (s : State) (b off v : Nat) : (set64 s b off v).wit = s.wit := rfl
@[simp] theorem set64_free (s : State) (b off v : Nat) : (set64 s b off v).free = s.free := rfl
@[simp] theorem set64_out (s : State) (b off v : Nat) : (set64 s b off v).out = s.out := rfl
@[simp] theorem set64_pending (s : State) (b off v : Nat) : (set64 s b off v).pending = s.pending := rfl

/-! ### bumpWrap -/

@[simp] theorem bumpWrap_tim (s : State) (b off lo w n : Nat) : (bumpWrap s b off lo w n).tim = s.tim := rfl
@[simp] theorem bumpWrap_books (s : State) (b off lo w n : Nat) : (bumpWrap s b off lo w n).books = s.books := rfl
@[simp] theorem bumpWrap_jrn (s : State) (b off lo w n : Nat) : (bumpWrap s b off lo w n).jrn = s.jrn := rfl
@[simp] theorem bumpWrap_awp (s : State) (b off lo w n : Nat) : (bumpWrap s b off lo w n).awp = s.awp := rfl
@[simp] theorem bumpWrap_hlt (s : State) (b off lo w n : Nat) : (bumpWrap s b off lo w n).hlt = s.hlt := rfl
@[simp] theorem bumpWrap_con (s : State) (b off lo w n : Nat) : (bumpWrap s b off lo w n).con = s.con := rfl
@[simp] theorem bumpWrap_sec (s : State) (b off lo w n : Nat) : (bumpWrap s b off lo w n).sec = s.sec := rfl
@[simp] theorem bumpWrap_lane (s : State) (b off lo w n : Nat) : (bumpWrap s b off lo w n).lane = s.lane := rfl
@[simp] theorem bumpWrap_cpu (s : State) (b off lo w n : Nat) : (bumpWrap s b off lo w n).cpu = s.cpu := rfl
@[simp] theorem bumpWrap_pwr (s : State) (b off lo w n : Nat) : (bumpWrap s b off lo w n).pwr = s.pwr := rfl
@[simp] theorem bumpWrap_rpl (s : State) (b off lo w n : Nat) : (bumpWrap s b off lo w n).rpl = s.rpl := rfl
@[simp] theorem bumpWrap_mir (s : State) (b off lo w n : Nat) : (bumpWrap s b off lo w n).mir = s.mir := rfl
@[simp] theorem bumpWrap_fla (s : State) (b off lo w n : Nat) : (bumpWrap s b off lo w n).fla = s.fla := rfl
@[simp] theorem bumpWrap_wit (s : State) (b off lo w n : Nat) : (bumpWrap s b off lo w n).wit = s.wit := rfl
@[simp] theorem bumpWrap_free (s : State) (b off lo w n : Nat) : (bumpWrap s b off lo w n).free = s.free := rfl
@[simp] theorem bumpWrap_out (s : State) (b off lo w n : Nat) : (bumpWrap s b off lo w n).out = s.out := rfl
@[simp] theorem bumpWrap_pending (s : State) (b off lo w n : Nat) : (bumpWrap s b off lo w n).pending = s.pending := rfl

/-! ### bumpSat -/

@[simp] theorem bumpSat_tim (s : State) (b off lo w n : Nat) : (bumpSat s b off lo w n).tim = s.tim := rfl
@[simp] theorem bumpSat_books (s : State) (b off lo w n : Nat) : (bumpSat s b off lo w n).books = s.books := rfl
@[simp] theorem bumpSat_jrn (s : State) (b off lo w n : Nat) : (bumpSat s b off lo w n).jrn = s.jrn := rfl
@[simp] theorem bumpSat_awp (s : State) (b off lo w n : Nat) : (bumpSat s b off lo w n).awp = s.awp := rfl
@[simp] theorem bumpSat_hlt (s : State) (b off lo w n : Nat) : (bumpSat s b off lo w n).hlt = s.hlt := rfl
@[simp] theorem bumpSat_con (s : State) (b off lo w n : Nat) : (bumpSat s b off lo w n).con = s.con := rfl
@[simp] theorem bumpSat_sec (s : State) (b off lo w n : Nat) : (bumpSat s b off lo w n).sec = s.sec := rfl
@[simp] theorem bumpSat_lane (s : State) (b off lo w n : Nat) : (bumpSat s b off lo w n).lane = s.lane := rfl
@[simp] theorem bumpSat_cpu (s : State) (b off lo w n : Nat) : (bumpSat s b off lo w n).cpu = s.cpu := rfl
@[simp] theorem bumpSat_pwr (s : State) (b off lo w n : Nat) : (bumpSat s b off lo w n).pwr = s.pwr := rfl
@[simp] theorem bumpSat_rpl (s : State) (b off lo w n : Nat) : (bumpSat s b off lo w n).rpl = s.rpl := rfl
@[simp] theorem bumpSat_mir (s : State) (b off lo w n : Nat) : (bumpSat s b off lo w n).mir = s.mir := rfl
@[simp] theorem bumpSat_fla (s : State) (b off lo w n : Nat) : (bumpSat s b off lo w n).fla = s.fla := rfl
@[simp] theorem bumpSat_wit (s : State) (b off lo w n : Nat) : (bumpSat s b off lo w n).wit = s.wit := rfl
@[simp] theorem bumpSat_free (s : State) (b off lo w n : Nat) : (bumpSat s b off lo w n).free = s.free := rfl
@[simp] theorem bumpSat_out (s : State) (b off lo w n : Nat) : (bumpSat s b off lo w n).out = s.out := rfl
@[simp] theorem bumpSat_pending (s : State) (b off lo w n : Nat) : (bumpSat s b off lo w n).pending = s.pending := rfl

/-! ### setStat -/

@[simp] theorem setStat_tim (s : State) (b i : Nat) : (setStat s b i).tim = s.tim := rfl
@[simp] theorem setStat_books (s : State) (b i : Nat) : (setStat s b i).books = s.books := rfl
@[simp] theorem setStat_jrn (s : State) (b i : Nat) : (setStat s b i).jrn = s.jrn := rfl
@[simp] theorem setStat_awp (s : State) (b i : Nat) : (setStat s b i).awp = s.awp := rfl
@[simp] theorem setStat_hlt (s : State) (b i : Nat) : (setStat s b i).hlt = s.hlt := rfl
@[simp] theorem setStat_con (s : State) (b i : Nat) : (setStat s b i).con = s.con := rfl
@[simp] theorem setStat_sec (s : State) (b i : Nat) : (setStat s b i).sec = s.sec := rfl
@[simp] theorem setStat_lane (s : State) (b i : Nat) : (setStat s b i).lane = s.lane := rfl
@[simp] theorem setStat_cpu (s : State) (b i : Nat) : (setStat s b i).cpu = s.cpu := rfl
@[simp] theorem setStat_pwr (s : State) (b i : Nat) : (setStat s b i).pwr = s.pwr := rfl
@[simp] theorem setStat_rpl (s : State) (b i : Nat) : (setStat s b i).rpl = s.rpl := rfl
@[simp] theorem setStat_mir (s : State) (b i : Nat) : (setStat s b i).mir = s.mir := rfl
@[simp] theorem setStat_fla (s : State) (b i : Nat) : (setStat s b i).fla = s.fla := rfl
@[simp] theorem setStat_wit (s : State) (b i : Nat) : (setStat s b i).wit = s.wit := rfl
@[simp] theorem setStat_free (s : State) (b i : Nat) : (setStat s b i).free = s.free := rfl
@[simp] theorem setStat_out (s : State) (b i : Nat) : (setStat s b i).out = s.out := rfl
@[simp] theorem setStat_pending (s : State) (b i : Nat) : (setStat s b i).pending = s.pending := rfl

/-! ### putPosted -/

@[simp] theorem putPosted_sys_posted (s : State) (b : Nat) (p : Posted) : (putPosted s b p).sys.posted = ins s.sys.posted b p := rfl
@[simp] theorem putPosted_tim (s : State) (b : Nat) (p : Posted) : (putPosted s b p).tim = s.tim := rfl
@[simp] theorem putPosted_books (s : State) (b : Nat) (p : Posted) : (putPosted s b p).books = s.books := rfl
@[simp] theorem putPosted_jrn (s : State) (b : Nat) (p : Posted) : (putPosted s b p).jrn = s.jrn := rfl
@[simp] theorem putPosted_awp (s : State) (b : Nat) (p : Posted) : (putPosted s b p).awp = s.awp := rfl
@[simp] theorem putPosted_hlt (s : State) (b : Nat) (p : Posted) : (putPosted s b p).hlt = s.hlt := rfl
@[simp] theorem putPosted_con (s : State) (b : Nat) (p : Posted) : (putPosted s b p).con = s.con := rfl
@[simp] theorem putPosted_sec (s : State) (b : Nat) (p : Posted) : (putPosted s b p).sec = s.sec := rfl
@[simp] theorem putPosted_lane (s : State) (b : Nat) (p : Posted) : (putPosted s b p).lane = s.lane := rfl
@[simp] theorem putPosted_cpu (s : State) (b : Nat) (p : Posted) : (putPosted s b p).cpu = s.cpu := rfl
@[simp] theorem putPosted_pwr (s : State) (b : Nat) (p : Posted) : (putPosted s b p).pwr = s.pwr := rfl
@[simp] theorem putPosted_rpl (s : State) (b : Nat) (p : Posted) : (putPosted s b p).rpl = s.rpl := rfl
@[simp] theorem putPosted_mir (s : State) (b : Nat) (p : Posted) : (putPosted s b p).mir = s.mir := rfl
@[simp] theorem putPosted_fla (s : State) (b : Nat) (p : Posted) : (putPosted s b p).fla = s.fla := rfl
@[simp] theorem putPosted_wit (s : State) (b : Nat) (p : Posted) : (putPosted s b p).wit = s.wit := rfl
@[simp] theorem putPosted_free (s : State) (b : Nat) (p : Posted) : (putPosted s b p).free = s.free := rfl
@[simp] theorem putPosted_out (s : State) (b : Nat) (p : Posted) : (putPosted s b p).out = s.out := rfl
@[simp] theorem putPosted_pending (s : State) (b : Nat) (p : Posted) : (putPosted s b p).pending = s.pending := rfl

/-! ### putPair -/

@[simp] theorem putPair_sys_pairs (s : State) (b off : Nat) (p : Pair) : (putPair s b off p).sys.pairs = ins s.sys.pairs (rkey b off) p := rfl
@[simp] theorem putPair_tim (s : State) (b off : Nat) (p : Pair) : (putPair s b off p).tim = s.tim := rfl
@[simp] theorem putPair_books (s : State) (b off : Nat) (p : Pair) : (putPair s b off p).books = s.books := rfl
@[simp] theorem putPair_jrn (s : State) (b off : Nat) (p : Pair) : (putPair s b off p).jrn = s.jrn := rfl
@[simp] theorem putPair_awp (s : State) (b off : Nat) (p : Pair) : (putPair s b off p).awp = s.awp := rfl
@[simp] theorem putPair_hlt (s : State) (b off : Nat) (p : Pair) : (putPair s b off p).hlt = s.hlt := rfl
@[simp] theorem putPair_con (s : State) (b off : Nat) (p : Pair) : (putPair s b off p).con = s.con := rfl
@[simp] theorem putPair_sec (s : State) (b off : Nat) (p : Pair) : (putPair s b off p).sec = s.sec := rfl
@[simp] theorem putPair_lane (s : State) (b off : Nat) (p : Pair) : (putPair s b off p).lane = s.lane := rfl
@[simp] theorem putPair_cpu (s : State) (b off : Nat) (p : Pair) : (putPair s b off p).cpu = s.cpu := rfl
@[simp] theorem putPair_pwr (s : State) (b off : Nat) (p : Pair) : (putPair s b off p).pwr = s.pwr := rfl
@[simp] theorem putPair_rpl (s : State) (b off : Nat) (p : Pair) : (putPair s b off p).rpl = s.rpl := rfl
@[simp] theorem putPair_mir (s : State) (b off : Nat) (p : Pair) : (putPair s b off p).mir = s.mir := rfl
@[simp] theorem putPair_fla (s : State) (b off : Nat) (p : Pair) : (putPair s b off p).fla = s.fla := rfl
@[simp] theorem putPair_wit (s : State) (b off : Nat) (p : Pair) : (putPair s b off p).wit = s.wit := rfl
@[simp] theorem putPair_free (s : State) (b off : Nat) (p : Pair) : (putPair s b off p).free = s.free := rfl
@[simp] theorem putPair_out (s : State) (b off : Nat) (p : Pair) : (putPair s b off p).out = s.out := rfl
@[simp] theorem putPair_pending (s : State) (b off : Nat) (p : Pair) : (putPair s b off p).pending = s.pending := rfl

/-! ### setCore -/

@[simp] theorem setCore_cpu_cores (s : State) (c : Nat) (k : Core) : (setCore s c k).cpu.cores = ins s.cpu.cores c k := rfl
@[simp] theorem setCore_sys (s : State) (c : Nat) (k : Core) : (setCore s c k).sys = s.sys := rfl
@[simp] theorem setCore_tim (s : State) (c : Nat) (k : Core) : (setCore s c k).tim = s.tim := rfl
@[simp] theorem setCore_books (s : State) (c : Nat) (k : Core) : (setCore s c k).books = s.books := rfl
@[simp] theorem setCore_jrn (s : State) (c : Nat) (k : Core) : (setCore s c k).jrn = s.jrn := rfl
@[simp] theorem setCore_awp (s : State) (c : Nat) (k : Core) : (setCore s c k).awp = s.awp := rfl
@[simp] theorem setCore_hlt (s : State) (c : Nat) (k : Core) : (setCore s c k).hlt = s.hlt := rfl
@[simp] theorem setCore_con (s : State) (c : Nat) (k : Core) : (setCore s c k).con = s.con := rfl
@[simp] theorem setCore_sec (s : State) (c : Nat) (k : Core) : (setCore s c k).sec = s.sec := rfl
@[simp] theorem setCore_lane (s : State) (c : Nat) (k : Core) : (setCore s c k).lane = s.lane := rfl
@[simp] theorem setCore_pwr (s : State) (c : Nat) (k : Core) : (setCore s c k).pwr = s.pwr := rfl
@[simp] theorem setCore_rpl (s : State) (c : Nat) (k : Core) : (setCore s c k).rpl = s.rpl := rfl
@[simp] theorem setCore_mir (s : State) (c : Nat) (k : Core) : (setCore s c k).mir = s.mir := rfl
@[simp] theorem setCore_fla (s : State) (c : Nat) (k : Core) : (setCore s c k).fla = s.fla := rfl
@[simp] theorem setCore_wit (s : State) (c : Nat) (k : Core) : (setCore s c k).wit = s.wit := rfl
@[simp] theorem setCore_free (s : State) (c : Nat) (k : Core) : (setCore s c k).free = s.free := rfl
@[simp] theorem setCore_out (s : State) (c : Nat) (k : Core) : (setCore s c k).out = s.out := rfl
@[simp] theorem setCore_pending (s : State) (c : Nat) (k : Core) : (setCore s c k).pending = s.pending := rfl

/-! ### updCore -/

@[simp] theorem updCore_cpu_cores (s : State) (c : Nat) (f : Core → Core) : (updCore s c f).cpu.cores = ins s.cpu.cores c (f (getCore s c)) := rfl
@[simp] theorem updCore_sys (s : State) (c : Nat) (f : Core → Core) : (updCore s c f).sys = s.sys := rfl
@[simp] theorem updCore_tim (s : State) (c : Nat) (f : Core → Core) : (updCore s c f).tim = s.tim := rfl
@[simp] theorem updCore_books (s : State) (c : Nat) (f : Core → Core) : (updCore s c f).books = s.books := rfl
@[simp] theorem updCore_jrn (s : State) (c : Nat) (f : Core → Core) : (updCore s c f).jrn = s.jrn := rfl
@[simp] theorem updCore_awp (s : State) (c : Nat) (f : Core → Core) : (updCore s c f).awp = s.awp := rfl
@[simp] theorem updCore_hlt (s : State) (c : Nat) (f : Core → Core) : (updCore s c f).hlt = s.hlt := rfl
@[simp] theorem updCore_con (s : State) (c : Nat) (f : Core → Core) : (updCore s c f).con = s.con := rfl
@[simp] theorem updCore_sec (s : State) (c : Nat) (f : Core → Core) : (updCore s c f).sec = s.sec := rfl
@[simp] theorem updCore_lane (s : State) (c : Nat) (f : Core → Core) : (updCore s c f).lane = s.lane := rfl
@[simp] theorem updCore_pwr (s : State) (c : Nat) (f : Core → Core) : (updCore s c f).pwr = s.pwr := rfl
@[simp] theorem updCore_rpl (s : State) (c : Nat) (f : Core → Core) : (updCore s c f).rpl = s.rpl := rfl
@[simp] theorem updCore_mir (s : State) (c : Nat) (f : Core → Core) : (updCore s c f).mir = s.mir := rfl
@[simp] theorem updCore_fla (s : State) (c : Nat) (f : Core → Core) : (updCore s c f).fla = s.fla := rfl
@[simp] theorem updCore_wit (s : State) (c : Nat) (f : Core → Core) : (updCore s c f).wit = s.wit := rfl
@[simp] theorem updCore_free (s : State) (c : Nat) (f : Core → Core) : (updCore s c f).free = s.free := rfl
@[simp] theorem updCore_out (s : State) (c : Nat) (f : Core → Core) : (updCore s c f).out = s.out := rfl
@[simp] theorem updCore_pending (s : State) (c : Nat) (f : Core → Core) : (updCore s c f).pending = s.pending := rfl

/-! ### putReg -/

@[simp] theorem putReg_sys (s : State) (c w : Nat) (v : TWord) : (putReg s c w v).sys = s.sys := rfl
@[simp] theorem putReg_tim (s : State) (c w : Nat) (v : TWord) : (putReg s c w v).tim = s.tim := rfl
@[simp] theorem putReg_books (s : State) (c w : Nat) (v : TWord) : (putReg s c w v).books = s.books := rfl
@[simp] theorem putReg_jrn (s : State) (c w : Nat) (v : TWord) : (putReg s c w v).jrn = s.jrn := rfl
@[simp] theorem putReg_awp (s : State) (c w : Nat) (v : TWord) : (putReg s c w v).awp = s.awp := rfl
@[simp] theorem putReg_hlt (s : State) (c w : Nat) (v : TWord) : (putReg s c w v).hlt = s.hlt := rfl
@[simp] theorem putReg_con (s : State) (c w : Nat) (v : TWord) : (putReg s c w v).con = s.con := rfl
@[simp] theorem putReg_sec (s : State) (c w : Nat) (v : TWord) : (putReg s c w v).sec = s.sec := rfl
@[simp] theorem putReg_lane (s : State) (c w : Nat) (v : TWord) : (putReg s c w v).lane = s.lane := rfl
@[simp] theorem putReg_pwr (s : State) (c w : Nat) (v : TWord) : (putReg s c w v).pwr = s.pwr := rfl
@[simp] theorem putReg_rpl (s : State) (c w : Nat) (v : TWord) : (putReg s c w v).rpl = s.rpl := rfl
@[simp] theorem putReg_mir (s : State) (c w : Nat) (v : TWord) : (putReg s c w v).mir = s.mir := rfl
@[simp] theorem putReg_fla (s : State) (c w : Nat) (v : TWord) : (putReg s c w v).fla = s.fla := rfl
@[simp] theorem putReg_wit (s : State) (c w : Nat) (v : TWord) : (putReg s c w v).wit = s.wit := rfl
@[simp] theorem putReg_free (s : State) (c w : Nat) (v : TWord) : (putReg s c w v).free = s.free := rfl
@[simp] theorem putReg_out (s : State) (c w : Nat) (v : TWord) : (putReg s c w v).out = s.out := rfl
@[simp] theorem putReg_pending (s : State) (c w : Nat) (v : TWord) : (putReg s c w v).pending = s.pending := rfl

/-! ### setProg -/

@[simp] theorem setProg_sys (s : State) (c n : Nat) : (setProg s c n).sys = s.sys := rfl
@[simp] theorem setProg_tim (s : State) (c n : Nat) : (setProg s c n).tim = s.tim := rfl
@[simp] theorem setProg_books (s : State) (c n : Nat) : (setProg s c n).books = s.books := rfl
@[simp] theorem setProg_jrn (s : State) (c n : Nat) : (setProg s c n).jrn = s.jrn := rfl
@[simp] theorem setProg_awp (s : State) (c n : Nat) : (setProg s c n).awp = s.awp := rfl
@[simp] theorem setProg_hlt (s : State) (c n : Nat) : (setProg s c n).hlt = s.hlt := rfl
@[simp] theorem setProg_con (s : State) (c n : Nat) : (setProg s c n).con = s.con := rfl
@[simp] theorem setProg_sec (s : State) (c n : Nat) : (setProg s c n).sec = s.sec := rfl
@[simp] theorem setProg_lane (s : State) (c n : Nat) : (setProg s c n).lane = s.lane := rfl
@[simp] theorem setProg_pwr (s : State) (c n : Nat) : (setProg s c n).pwr = s.pwr := rfl
@[simp] theorem setProg_rpl (s : State) (c n : Nat) : (setProg s c n).rpl = s.rpl := rfl
@[simp] theorem setProg_mir (s : State) (c n : Nat) : (setProg s c n).mir = s.mir := rfl
@[simp] theorem setProg_fla (s : State) (c n : Nat) : (setProg s c n).fla = s.fla := rfl
@[simp] theorem setProg_wit (s : State) (c n : Nat) : (setProg s c n).wit = s.wit := rfl
@[simp] theorem setProg_free (s : State) (c n : Nat) : (setProg s c n).free = s.free := rfl
@[simp] theorem setProg_out (s : State) (c n : Nat) : (setProg s c n).out = s.out := rfl
@[simp] theorem setProg_pending (s : State) (c n : Nat) : (setProg s c n).pending = s.pending := rfl

/-! ### putMem -/

@[simp] theorem putMem_cpu_mem (s : State) (a : Nat) (w : TWord) : (putMem s a w).cpu.mem = memPut s.cpu.mem a w := rfl
@[simp] theorem putMem_sys (s : State) (a : Nat) (w : TWord) : (putMem s a w).sys = s.sys := rfl
@[simp] theorem putMem_tim (s : State) (a : Nat) (w : TWord) : (putMem s a w).tim = s.tim := rfl
@[simp] theorem putMem_books (s : State) (a : Nat) (w : TWord) : (putMem s a w).books = s.books := rfl
@[simp] theorem putMem_jrn (s : State) (a : Nat) (w : TWord) : (putMem s a w).jrn = s.jrn := rfl
@[simp] theorem putMem_awp (s : State) (a : Nat) (w : TWord) : (putMem s a w).awp = s.awp := rfl
@[simp] theorem putMem_hlt (s : State) (a : Nat) (w : TWord) : (putMem s a w).hlt = s.hlt := rfl
@[simp] theorem putMem_con (s : State) (a : Nat) (w : TWord) : (putMem s a w).con = s.con := rfl
@[simp] theorem putMem_sec (s : State) (a : Nat) (w : TWord) : (putMem s a w).sec = s.sec := rfl
@[simp] theorem putMem_lane (s : State) (a : Nat) (w : TWord) : (putMem s a w).lane = s.lane := rfl
@[simp] theorem putMem_pwr (s : State) (a : Nat) (w : TWord) : (putMem s a w).pwr = s.pwr := rfl
@[simp] theorem putMem_rpl (s : State) (a : Nat) (w : TWord) : (putMem s a w).rpl = s.rpl := rfl
@[simp] theorem putMem_mir (s : State) (a : Nat) (w : TWord) : (putMem s a w).mir = s.mir := rfl
@[simp] theorem putMem_fla (s : State) (a : Nat) (w : TWord) : (putMem s a w).fla = s.fla := rfl
@[simp] theorem putMem_wit (s : State) (a : Nat) (w : TWord) : (putMem s a w).wit = s.wit := rfl
@[simp] theorem putMem_free (s : State) (a : Nat) (w : TWord) : (putMem s a w).free = s.free := rfl
@[simp] theorem putMem_out (s : State) (a : Nat) (w : TWord) : (putMem s a w).out = s.out := rfl
@[simp] theorem putMem_pending (s : State) (a : Nat) (w : TWord) : (putMem s a w).pending = s.pending := rfl

/-! ### updCon -/

@[simp] theorem updCon_con_cons (s : State) (c : Nat) (f : Console → Console) : (updCon s c f).con.cons = upd s.con.cons c f := rfl
@[simp] theorem updCon_sys (s : State) (c : Nat) (f : Console → Console) : (updCon s c f).sys = s.sys := rfl
@[simp] theorem updCon_tim (s : State) (c : Nat) (f : Console → Console) : (updCon s c f).tim = s.tim := rfl
@[simp] theorem updCon_books (s : State) (c : Nat) (f : Console → Console) : (updCon s c f).books = s.books := rfl
@[simp] theorem updCon_jrn (s : State) (c : Nat) (f : Console → Console) : (updCon s c f).jrn = s.jrn := rfl
@[simp] theorem updCon_awp (s : State) (c : Nat) (f : Console → Console) : (updCon s c f).awp = s.awp := rfl
@[simp] theorem updCon_hlt (s : State) (c : Nat) (f : Console → Console) : (updCon s c f).hlt = s.hlt := rfl
@[simp] theorem updCon_sec (s : State) (c : Nat) (f : Console → Console) : (updCon s c f).sec = s.sec := rfl
@[simp] theorem updCon_lane (s : State) (c : Nat) (f : Console → Console) : (updCon s c f).lane = s.lane := rfl
@[simp] theorem updCon_cpu (s : State) (c : Nat) (f : Console → Console) : (updCon s c f).cpu = s.cpu := rfl
@[simp] theorem updCon_pwr (s : State) (c : Nat) (f : Console → Console) : (updCon s c f).pwr = s.pwr := rfl
@[simp] theorem updCon_rpl (s : State) (c : Nat) (f : Console → Console) : (updCon s c f).rpl = s.rpl := rfl
@[simp] theorem updCon_mir (s : State) (c : Nat) (f : Console → Console) : (updCon s c f).mir = s.mir := rfl
@[simp] theorem updCon_fla (s : State) (c : Nat) (f : Console → Console) : (updCon s c f).fla = s.fla := rfl
@[simp] theorem updCon_wit (s : State) (c : Nat) (f : Console → Console) : (updCon s c f).wit = s.wit := rfl
@[simp] theorem updCon_free (s : State) (c : Nat) (f : Console → Console) : (updCon s c f).free = s.free := rfl
@[simp] theorem updCon_out (s : State) (c : Nat) (f : Console → Console) : (updCon s c f).out = s.out := rfl
@[simp] theorem updCon_pending (s : State) (c : Nat) (f : Console → Console) : (updCon s c f).pending = s.pending := rfl

/-! ### setStrm -/

@[simp] theorem setStrm_jrn_streams (s : State) (t : Nat) (st : Stream) : (setStrm s t st).jrn.streams = ins s.jrn.streams t st := rfl
@[simp] theorem setStrm_sys (s : State) (t : Nat) (st : Stream) : (setStrm s t st).sys = s.sys := rfl
@[simp] theorem setStrm_tim (s : State) (t : Nat) (st : Stream) : (setStrm s t st).tim = s.tim := rfl
@[simp] theorem setStrm_books (s : State) (t : Nat) (st : Stream) : (setStrm s t st).books = s.books := rfl
@[simp] theorem setStrm_awp (s : State) (t : Nat) (st : Stream) : (setStrm s t st).awp = s.awp := rfl
@[simp] theorem setStrm_hlt (s : State) (t : Nat) (st : Stream) : (setStrm s t st).hlt = s.hlt := rfl
@[simp] theorem setStrm_con (s : State) (t : Nat) (st : Stream) : (setStrm s t st).con = s.con := rfl
@[simp] theorem setStrm_sec (s : State) (t : Nat) (st : Stream) : (setStrm s t st).sec = s.sec := rfl
@[simp] theorem setStrm_lane (s : State) (t : Nat) (st : Stream) : (setStrm s t st).lane = s.lane := rfl
@[simp] theorem setStrm_cpu (s : State) (t : Nat) (st : Stream) : (setStrm s t st).cpu = s.cpu := rfl
@[simp] theorem setStrm_pwr (s : State) (t : Nat) (st : Stream) : (setStrm s t st).pwr = s.pwr := rfl
@[simp] theorem setStrm_rpl (s : State) (t : Nat) (st : Stream) : (setStrm s t st).rpl = s.rpl := rfl
@[simp] theorem setStrm_mir (s : State) (t : Nat) (st : Stream) : (setStrm s t st).mir = s.mir := rfl
@[simp] theorem setStrm_fla (s : State) (t : Nat) (st : Stream) : (setStrm s t st).fla = s.fla := rfl
@[simp] theorem setStrm_wit (s : State) (t : Nat) (st : Stream) : (setStrm s t st).wit = s.wit := rfl
@[simp] theorem setStrm_free (s : State) (t : Nat) (st : Stream) : (setStrm s t st).free = s.free := rfl
@[simp] theorem setStrm_out (s : State) (t : Nat) (st : Stream) : (setStrm s t st).out = s.out := rfl
@[simp] theorem setStrm_pending (s : State) (t : Nat) (st : Stream) : (setStrm s t st).pending = s.pending := rfl

/-! ### updRef -/

@[simp] theorem updRef_tim_refs (s : State) (r : Nat) (f : TimeRef → TimeRef) : (updRef s r f).tim.refs = upd s.tim.refs r f := rfl
@[simp] theorem updRef_sys (s : State) (r : Nat) (f : TimeRef → TimeRef) : (updRef s r f).sys = s.sys := rfl
@[simp] theorem updRef_books (s : State) (r : Nat) (f : TimeRef → TimeRef) : (updRef s r f).books = s.books := rfl
@[simp] theorem updRef_jrn (s : State) (r : Nat) (f : TimeRef → TimeRef) : (updRef s r f).jrn = s.jrn := rfl
@[simp] theorem updRef_awp (s : State) (r : Nat) (f : TimeRef → TimeRef) : (updRef s r f).awp = s.awp := rfl
@[simp] theorem updRef_hlt (s : State) (r : Nat) (f : TimeRef → TimeRef) : (updRef s r f).hlt = s.hlt := rfl
@[simp] theorem updRef_con (s : State) (r : Nat) (f : TimeRef → TimeRef) : (updRef s r f).con = s.con := rfl
@[simp] theorem updRef_sec (s : State) (r : Nat) (f : TimeRef → TimeRef) : (updRef s r f).sec = s.sec := rfl
@[simp] theorem updRef_lane (s : State) (r : Nat) (f : TimeRef → TimeRef) : (updRef s r f).lane = s.lane := rfl
@[simp] theorem updRef_cpu (s : State) (r : Nat) (f : TimeRef → TimeRef) : (updRef s r f).cpu = s.cpu := rfl
@[simp] theorem updRef_pwr (s : State) (r : Nat) (f : TimeRef → TimeRef) : (updRef s r f).pwr = s.pwr := rfl
@[simp] theorem updRef_rpl (s : State) (r : Nat) (f : TimeRef → TimeRef) : (updRef s r f).rpl = s.rpl := rfl
@[simp] theorem updRef_mir (s : State) (r : Nat) (f : TimeRef → TimeRef) : (updRef s r f).mir = s.mir := rfl
@[simp] theorem updRef_fla (s : State) (r : Nat) (f : TimeRef → TimeRef) : (updRef s r f).fla = s.fla := rfl
@[simp] theorem updRef_wit (s : State) (r : Nat) (f : TimeRef → TimeRef) : (updRef s r f).wit = s.wit := rfl
@[simp] theorem updRef_free (s : State) (r : Nat) (f : TimeRef → TimeRef) : (updRef s r f).free = s.free := rfl
@[simp] theorem updRef_out (s : State) (r : Nat) (f : TimeRef → TimeRef) : (updRef s r f).out = s.out := rfl
@[simp] theorem updRef_pending (s : State) (r : Nat) (f : TimeRef → TimeRef) : (updRef s r f).pending = s.pending := rfl

/-! ### updMir -/

@[simp] theorem updMir_mir_tens (s : State) (t : Nat) (f : MirTen → MirTen) : (updMir s t f).mir.tens = ins s.mir.tens t (f (getMir s t)) := rfl
@[simp] theorem updMir_sys (s : State) (t : Nat) (f : MirTen → MirTen) : (updMir s t f).sys = s.sys := rfl
@[simp] theorem updMir_tim (s : State) (t : Nat) (f : MirTen → MirTen) : (updMir s t f).tim = s.tim := rfl
@[simp] theorem updMir_books (s : State) (t : Nat) (f : MirTen → MirTen) : (updMir s t f).books = s.books := rfl
@[simp] theorem updMir_jrn (s : State) (t : Nat) (f : MirTen → MirTen) : (updMir s t f).jrn = s.jrn := rfl
@[simp] theorem updMir_awp (s : State) (t : Nat) (f : MirTen → MirTen) : (updMir s t f).awp = s.awp := rfl
@[simp] theorem updMir_hlt (s : State) (t : Nat) (f : MirTen → MirTen) : (updMir s t f).hlt = s.hlt := rfl
@[simp] theorem updMir_con (s : State) (t : Nat) (f : MirTen → MirTen) : (updMir s t f).con = s.con := rfl
@[simp] theorem updMir_sec (s : State) (t : Nat) (f : MirTen → MirTen) : (updMir s t f).sec = s.sec := rfl
@[simp] theorem updMir_lane (s : State) (t : Nat) (f : MirTen → MirTen) : (updMir s t f).lane = s.lane := rfl
@[simp] theorem updMir_cpu (s : State) (t : Nat) (f : MirTen → MirTen) : (updMir s t f).cpu = s.cpu := rfl
@[simp] theorem updMir_pwr (s : State) (t : Nat) (f : MirTen → MirTen) : (updMir s t f).pwr = s.pwr := rfl
@[simp] theorem updMir_rpl (s : State) (t : Nat) (f : MirTen → MirTen) : (updMir s t f).rpl = s.rpl := rfl
@[simp] theorem updMir_fla (s : State) (t : Nat) (f : MirTen → MirTen) : (updMir s t f).fla = s.fla := rfl
@[simp] theorem updMir_wit (s : State) (t : Nat) (f : MirTen → MirTen) : (updMir s t f).wit = s.wit := rfl
@[simp] theorem updMir_free (s : State) (t : Nat) (f : MirTen → MirTen) : (updMir s t f).free = s.free := rfl
@[simp] theorem updMir_out (s : State) (t : Nat) (f : MirTen → MirTen) : (updMir s t f).out = s.out := rfl
@[simp] theorem updMir_pending (s : State) (t : Nat) (f : MirTen → MirTen) : (updMir s t f).pending = s.pending := rfl

/-! ### putBook -/

@[simp] theorem putBook_books (s : State) (t b : Nat) (k : Book) : (putBook s t b k).books = ins s.books (bkey t b) k := rfl
@[simp] theorem putBook_sys (s : State) (t b : Nat) (k : Book) : (putBook s t b k).sys = s.sys := rfl
@[simp] theorem putBook_tim (s : State) (t b : Nat) (k : Book) : (putBook s t b k).tim = s.tim := rfl
@[simp] theorem putBook_jrn (s : State) (t b : Nat) (k : Book) : (putBook s t b k).jrn = s.jrn := rfl
@[simp] theorem putBook_awp (s : State) (t b : Nat) (k : Book) : (putBook s t b k).awp = s.awp := rfl
@[simp] theorem putBook_hlt (s : State) (t b : Nat) (k : Book) : (putBook s t b k).hlt = s.hlt := rfl
@[simp] theorem putBook_con (s : State) (t b : Nat) (k : Book) : (putBook s t b k).con = s.con := rfl
@[simp] theorem putBook_sec (s : State) (t b : Nat) (k : Book) : (putBook s t b k).sec = s.sec := rfl
@[simp] theorem putBook_lane (s : State) (t b : Nat) (k : Book) : (putBook s t b k).lane = s.lane := rfl
@[simp] theorem putBook_cpu (s : State) (t b : Nat) (k : Book) : (putBook s t b k).cpu = s.cpu := rfl
@[simp] theorem putBook_pwr (s : State) (t b : Nat) (k : Book) : (putBook s t b k).pwr = s.pwr := rfl
@[simp] theorem putBook_rpl (s : State) (t b : Nat) (k : Book) : (putBook s t b k).rpl = s.rpl := rfl
@[simp] theorem putBook_mir (s : State) (t b : Nat) (k : Book) : (putBook s t b k).mir = s.mir := rfl
@[simp] theorem putBook_fla (s : State) (t b : Nat) (k : Book) : (putBook s t b k).fla = s.fla := rfl
@[simp] theorem putBook_wit (s : State) (t b : Nat) (k : Book) : (putBook s t b k).wit = s.wit := rfl
@[simp] theorem putBook_free (s : State) (t b : Nat) (k : Book) : (putBook s t b k).free = s.free := rfl
@[simp] theorem putBook_out (s : State) (t b : Nat) (k : Book) : (putBook s t b k).out = s.out := rfl
@[simp] theorem putBook_pending (s : State) (t b : Nat) (k : Book) : (putBook s t b k).pending = s.pending := rfl

/-! ### emitOut -/

@[simp] theorem emitOut_out (s : State) (o : Out) : (emitOut s o).out = o :: s.out := rfl
@[simp] theorem emitOut_sys (s : State) (o : Out) : (emitOut s o).sys = s.sys := rfl
@[simp] theorem emitOut_tim (s : State) (o : Out) : (emitOut s o).tim = s.tim := rfl
@[simp] theorem emitOut_books (s : State) (o : Out) : (emitOut s o).books = s.books := rfl
@[simp] theorem emitOut_jrn (s : State) (o : Out) : (emitOut s o).jrn = s.jrn := rfl
@[simp] theorem emitOut_awp (s : State) (o : Out) : (emitOut s o).awp = s.awp := rfl
@[simp] theorem emitOut_hlt (s : State) (o : Out) : (emitOut s o).hlt = s.hlt := rfl
@[simp] theorem emitOut_con (s : State) (o : Out) : (emitOut s o).con = s.con := rfl
@[simp] theorem emitOut_sec (s : State) (o : Out) : (emitOut s o).sec = s.sec := rfl
@[simp] theorem emitOut_lane (s : State) (o : Out) : (emitOut s o).lane = s.lane := rfl
@[simp] theorem emitOut_cpu (s : State) (o : Out) : (emitOut s o).cpu = s.cpu := rfl
@[simp] theorem emitOut_pwr (s : State) (o : Out) : (emitOut s o).pwr = s.pwr := rfl
@[simp] theorem emitOut_rpl (s : State) (o : Out) : (emitOut s o).rpl = s.rpl := rfl
@[simp] theorem emitOut_mir (s : State) (o : Out) : (emitOut s o).mir = s.mir := rfl
@[simp] theorem emitOut_fla (s : State) (o : Out) : (emitOut s o).fla = s.fla := rfl
@[simp] theorem emitOut_wit (s : State) (o : Out) : (emitOut s o).wit = s.wit := rfl
@[simp] theorem emitOut_free (s : State) (o : Out) : (emitOut s o).free = s.free := rfl
@[simp] theorem emitOut_pending (s : State) (o : Out) : (emitOut s o).pending = s.pending := rfl

/-! ### putLane -/

@[simp] theorem putLane_lane_lanes (s : State) (k : Nat) (x : LaneInfo) : (putLane s k x).lane.lanes = ins s.lane.lanes k x := rfl
@[simp] theorem putLane_sys (s : State) (k : Nat) (x : LaneInfo) : (putLane s k x).sys = s.sys := rfl
@[simp] theorem putLane_tim (s : State) (k : Nat) (x : LaneInfo) : (putLane s k x).tim = s.tim := rfl
@[simp] theorem putLane_books (s : State) (k : Nat) (x : LaneInfo) : (putLane s k x).books = s.books := rfl
@[simp] theorem putLane_jrn (s : State) (k : Nat) (x : LaneInfo) : (putLane s k x).jrn = s.jrn := rfl
@[simp] theorem putLane_awp (s : State) (k : Nat) (x : LaneInfo) : (putLane s k x).awp = s.awp := rfl
@[simp] theorem putLane_hlt (s : State) (k : Nat) (x : LaneInfo) : (putLane s k x).hlt = s.hlt := rfl
@[simp] theorem putLane_con (s : State) (k : Nat) (x : LaneInfo) : (putLane s k x).con = s.con := rfl
@[simp] theorem putLane_sec (s : State) (k : Nat) (x : LaneInfo) : (putLane s k x).sec = s.sec := rfl
@[simp] theorem putLane_cpu (s : State) (k : Nat) (x : LaneInfo) : (putLane s k x).cpu = s.cpu := rfl
@[simp] theorem putLane_pwr (s : State) (k : Nat) (x : LaneInfo) : (putLane s k x).pwr = s.pwr := rfl
@[simp] theorem putLane_rpl (s : State) (k : Nat) (x : LaneInfo) : (putLane s k x).rpl = s.rpl := rfl
@[simp] theorem putLane_mir (s : State) (k : Nat) (x : LaneInfo) : (putLane s k x).mir = s.mir := rfl
@[simp] theorem putLane_fla (s : State) (k : Nat) (x : LaneInfo) : (putLane s k x).fla = s.fla := rfl
@[simp] theorem putLane_wit (s : State) (k : Nat) (x : LaneInfo) : (putLane s k x).wit = s.wit := rfl
@[simp] theorem putLane_free (s : State) (k : Nat) (x : LaneInfo) : (putLane s k x).free = s.free := rfl
@[simp] theorem putLane_out (s : State) (k : Nat) (x : LaneInfo) : (putLane s k x).out = s.out := rfl
@[simp] theorem putLane_pending (s : State) (k : Nat) (x : LaneInfo) : (putLane s k x).pending = s.pending := rfl

/-! ### putPort -/

@[simp] theorem putPort_lane_ports (s : State) (q p : Nat) (x : PortSt) : (putPort s q p x).lane.ports = ins s.lane.ports (q * 4 + p) x := rfl
@[simp] theorem putPort_sys (s : State) (q p : Nat) (x : PortSt) : (putPort s q p x).sys = s.sys := rfl
@[simp] theorem putPort_tim (s : State) (q p : Nat) (x : PortSt) : (putPort s q p x).tim = s.tim := rfl
@[simp] theorem putPort_books (s : State) (q p : Nat) (x : PortSt) : (putPort s q p x).books = s.books := rfl
@[simp] theorem putPort_jrn (s : State) (q p : Nat) (x : PortSt) : (putPort s q p x).jrn = s.jrn := rfl
@[simp] theorem putPort_awp (s : State) (q p : Nat) (x : PortSt) : (putPort s q p x).awp = s.awp := rfl
@[simp] theorem putPort_hlt (s : State) (q p : Nat) (x : PortSt) : (putPort s q p x).hlt = s.hlt := rfl
@[simp] theorem putPort_con (s : State) (q p : Nat) (x : PortSt) : (putPort s q p x).con = s.con := rfl
@[simp] theorem putPort_sec (s : State) (q p : Nat) (x : PortSt) : (putPort s q p x).sec = s.sec := rfl
@[simp] theorem putPort_cpu (s : State) (q p : Nat) (x : PortSt) : (putPort s q p x).cpu = s.cpu := rfl
@[simp] theorem putPort_pwr (s : State) (q p : Nat) (x : PortSt) : (putPort s q p x).pwr = s.pwr := rfl
@[simp] theorem putPort_rpl (s : State) (q p : Nat) (x : PortSt) : (putPort s q p x).rpl = s.rpl := rfl
@[simp] theorem putPort_mir (s : State) (q p : Nat) (x : PortSt) : (putPort s q p x).mir = s.mir := rfl
@[simp] theorem putPort_fla (s : State) (q p : Nat) (x : PortSt) : (putPort s q p x).fla = s.fla := rfl
@[simp] theorem putPort_wit (s : State) (q p : Nat) (x : PortSt) : (putPort s q p x).wit = s.wit := rfl
@[simp] theorem putPort_free (s : State) (q p : Nat) (x : PortSt) : (putPort s q p x).free = s.free := rfl
@[simp] theorem putPort_out (s : State) (q p : Nat) (x : PortSt) : (putPort s q p x).out = s.out := rfl
@[simp] theorem putPort_pending (s : State) (q p : Nat) (x : PortSt) : (putPort s q p x).pending = s.pending := rfl

/-! ### updTag -/

@[simp] theorem updTag_wit_tags (s : State) (a : Nat) (f : Tag → Tag) : (updTag s a f).wit.tags = ins s.wit.tags a (f (getTag s a)) := rfl
@[simp] theorem updTag_sys (s : State) (a : Nat) (f : Tag → Tag) : (updTag s a f).sys = s.sys := rfl
@[simp] theorem updTag_tim (s : State) (a : Nat) (f : Tag → Tag) : (updTag s a f).tim = s.tim := rfl
@[simp] theorem updTag_books (s : State) (a : Nat) (f : Tag → Tag) : (updTag s a f).books = s.books := rfl
@[simp] theorem updTag_jrn (s : State) (a : Nat) (f : Tag → Tag) : (updTag s a f).jrn = s.jrn := rfl
@[simp] theorem updTag_awp (s : State) (a : Nat) (f : Tag → Tag) : (updTag s a f).awp = s.awp := rfl
@[simp] theorem updTag_hlt (s : State) (a : Nat) (f : Tag → Tag) : (updTag s a f).hlt = s.hlt := rfl
@[simp] theorem updTag_con (s : State) (a : Nat) (f : Tag → Tag) : (updTag s a f).con = s.con := rfl
@[simp] theorem updTag_sec (s : State) (a : Nat) (f : Tag → Tag) : (updTag s a f).sec = s.sec := rfl
@[simp] theorem updTag_lane (s : State) (a : Nat) (f : Tag → Tag) : (updTag s a f).lane = s.lane := rfl
@[simp] theorem updTag_cpu (s : State) (a : Nat) (f : Tag → Tag) : (updTag s a f).cpu = s.cpu := rfl
@[simp] theorem updTag_pwr (s : State) (a : Nat) (f : Tag → Tag) : (updTag s a f).pwr = s.pwr := rfl
@[simp] theorem updTag_rpl (s : State) (a : Nat) (f : Tag → Tag) : (updTag s a f).rpl = s.rpl := rfl
@[simp] theorem updTag_mir (s : State) (a : Nat) (f : Tag → Tag) : (updTag s a f).mir = s.mir := rfl
@[simp] theorem updTag_fla (s : State) (a : Nat) (f : Tag → Tag) : (updTag s a f).fla = s.fla := rfl
@[simp] theorem updTag_free (s : State) (a : Nat) (f : Tag → Tag) : (updTag s a f).free = s.free := rfl
@[simp] theorem updTag_out (s : State) (a : Nat) (f : Tag → Tag) : (updTag s a f).out = s.out := rfl
@[simp] theorem updTag_pending (s : State) (a : Nat) (f : Tag → Tag) : (updTag s a f).pending = s.pending := rfl

/-! ### putStat -/

@[simp] theorem putStat_rpl_stats (s : State) (t : Nat) (x : ImpStat) : (putStat s t x).rpl.stats = ins s.rpl.stats t x := rfl
@[simp] theorem putStat_sys (s : State) (t : Nat) (x : ImpStat) : (putStat s t x).sys = s.sys := rfl
@[simp] theorem putStat_tim (s : State) (t : Nat) (x : ImpStat) : (putStat s t x).tim = s.tim := rfl
@[simp] theorem putStat_books (s : State) (t : Nat) (x : ImpStat) : (putStat s t x).books = s.books := rfl
@[simp] theorem putStat_jrn (s : State) (t : Nat) (x : ImpStat) : (putStat s t x).jrn = s.jrn := rfl
@[simp] theorem putStat_awp (s : State) (t : Nat) (x : ImpStat) : (putStat s t x).awp = s.awp := rfl
@[simp] theorem putStat_hlt (s : State) (t : Nat) (x : ImpStat) : (putStat s t x).hlt = s.hlt := rfl
@[simp] theorem putStat_con (s : State) (t : Nat) (x : ImpStat) : (putStat s t x).con = s.con := rfl
@[simp] theorem putStat_sec (s : State) (t : Nat) (x : ImpStat) : (putStat s t x).sec = s.sec := rfl
@[simp] theorem putStat_lane (s : State) (t : Nat) (x : ImpStat) : (putStat s t x).lane = s.lane := rfl
@[simp] theorem putStat_cpu (s : State) (t : Nat) (x : ImpStat) : (putStat s t x).cpu = s.cpu := rfl
@[simp] theorem putStat_pwr (s : State) (t : Nat) (x : ImpStat) : (putStat s t x).pwr = s.pwr := rfl
@[simp] theorem putStat_mir (s : State) (t : Nat) (x : ImpStat) : (putStat s t x).mir = s.mir := rfl
@[simp] theorem putStat_fla (s : State) (t : Nat) (x : ImpStat) : (putStat s t x).fla = s.fla := rfl
@[simp] theorem putStat_wit (s : State) (t : Nat) (x : ImpStat) : (putStat s t x).wit = s.wit := rfl
@[simp] theorem putStat_free (s : State) (t : Nat) (x : ImpStat) : (putStat s t x).free = s.free := rfl
@[simp] theorem putStat_out (s : State) (t : Nat) (x : ImpStat) : (putStat s t x).out = s.out := rfl
@[simp] theorem putStat_pending (s : State) (t : Nat) (x : ImpStat) : (putStat s t x).pending = s.pending := rfl

/-! ### putLeap -/

@[simp] theorem putLeap_sys (s : State) : (putLeap s).sys = s.sys := rfl
@[simp] theorem putLeap_books (s : State) : (putLeap s).books = s.books := rfl
@[simp] theorem putLeap_jrn (s : State) : (putLeap s).jrn = s.jrn := rfl
@[simp] theorem putLeap_awp (s : State) : (putLeap s).awp = s.awp := rfl
@[simp] theorem putLeap_hlt (s : State) : (putLeap s).hlt = s.hlt := rfl
@[simp] theorem putLeap_con (s : State) : (putLeap s).con = s.con := rfl
@[simp] theorem putLeap_sec (s : State) : (putLeap s).sec = s.sec := rfl
@[simp] theorem putLeap_lane (s : State) : (putLeap s).lane = s.lane := rfl
@[simp] theorem putLeap_cpu (s : State) : (putLeap s).cpu = s.cpu := rfl
@[simp] theorem putLeap_pwr (s : State) : (putLeap s).pwr = s.pwr := rfl
@[simp] theorem putLeap_rpl (s : State) : (putLeap s).rpl = s.rpl := rfl
@[simp] theorem putLeap_mir (s : State) : (putLeap s).mir = s.mir := rfl
@[simp] theorem putLeap_fla (s : State) : (putLeap s).fla = s.fla := rfl
@[simp] theorem putLeap_wit (s : State) : (putLeap s).wit = s.wit := rfl
@[simp] theorem putLeap_free (s : State) : (putLeap s).free = s.free := rfl
@[simp] theorem putLeap_out (s : State) : (putLeap s).out = s.out := rfl
@[simp] theorem putLeap_pending (s : State) : (putLeap s).pending = s.pending := rfl

/-! ### updInput -/

@[simp] theorem updInput_sys (s : State) (t n : Nat) (f : Input → Input) : (updInput s t n f).sys = s.sys := rfl
@[simp] theorem updInput_tim (s : State) (t n : Nat) (f : Input → Input) : (updInput s t n f).tim = s.tim := rfl
@[simp] theorem updInput_books (s : State) (t n : Nat) (f : Input → Input) : (updInput s t n f).books = s.books := rfl
@[simp] theorem updInput_jrn (s : State) (t n : Nat) (f : Input → Input) : (updInput s t n f).jrn = s.jrn := rfl
@[simp] theorem updInput_hlt (s : State) (t n : Nat) (f : Input → Input) : (updInput s t n f).hlt = s.hlt := rfl
@[simp] theorem updInput_con (s : State) (t n : Nat) (f : Input → Input) : (updInput s t n f).con = s.con := rfl
@[simp] theorem updInput_sec (s : State) (t n : Nat) (f : Input → Input) : (updInput s t n f).sec = s.sec := rfl
@[simp] theorem updInput_lane (s : State) (t n : Nat) (f : Input → Input) : (updInput s t n f).lane = s.lane := rfl
@[simp] theorem updInput_cpu (s : State) (t n : Nat) (f : Input → Input) : (updInput s t n f).cpu = s.cpu := rfl
@[simp] theorem updInput_pwr (s : State) (t n : Nat) (f : Input → Input) : (updInput s t n f).pwr = s.pwr := rfl
@[simp] theorem updInput_rpl (s : State) (t n : Nat) (f : Input → Input) : (updInput s t n f).rpl = s.rpl := rfl
@[simp] theorem updInput_mir (s : State) (t n : Nat) (f : Input → Input) : (updInput s t n f).mir = s.mir := rfl
@[simp] theorem updInput_fla (s : State) (t n : Nat) (f : Input → Input) : (updInput s t n f).fla = s.fla := rfl
@[simp] theorem updInput_wit (s : State) (t n : Nat) (f : Input → Input) : (updInput s t n f).wit = s.wit := rfl
@[simp] theorem updInput_free (s : State) (t n : Nat) (f : Input → Input) : (updInput s t n f).free = s.free := rfl
@[simp] theorem updInput_out (s : State) (t n : Nat) (f : Input → Input) : (updInput s t n f).out = s.out := rfl
@[simp] theorem updInput_pending (s : State) (t n : Nat) (f : Input → Input) : (updInput s t n f).pending = s.pending := rfl

end Sys2Proof.Machine
end

