-- ==== Sys2Proof/Tests/Build.lean ====
section
/-! SUPPORT. Small states for the tests: a core of the management cluster at an instruction of the firmware window. -/
namespace Sys2Proof.Machine

open Sys2Proof

/-- The management cluster's core number. -/
abbrev tC : Nat := 0x60

/-- A core at M at the start of the firmware window with some registers set. -/
def tCore (rs : List (Nat × TWord)) : Core :=
  { coreReset with alimit := tw tRAW 0x3E0000200000, idctr := wInt 0, regs := rs.foldl (fun l p => upd l p.1 (fun _ => p.2)) coreReset.regs }

/-- ALLOC at an address of the firmware window. -/
def tRoom : List (Nat × TWord) := [(31, tw tRAW 0x3E0000100000)]

/-- An address of the firmware window for objects. -/
abbrev tHeap : Nat := 0x3E0000180000

/-- A RATIO object at `tHeap`. -/
def tRatio (n d : Int) : Map TWord := [(tHeap, header 0x19 2 1), (tHeap + 8, wInt n), (tHeap + 16, wInt d)]

/-- A list cell at `tHeap`: car 5, cdr NIL. -/
def tCell : Map TWord := [(tHeap, wInt 5), (tHeap + 8, wNil)]

/-- A VECTOR object at `tHeap`. -/
def tVec (l : List TWord) : Map TWord := (tHeap, header 0x11 l.length 1) :: (l.zipIdx).map (fun p => (tHeap + 8 * (p.2 + 1), p.1))

/-- A STRING object of n bytes at `tHeap`. -/
def tStr (n : Nat) (l : List Nat) : Map TWord :=
  (tHeap, header 0x12 (l.length + 1) 1) :: (tHeap + 8, wInt n) :: (l.zipIdx).map (fun p => (tHeap + 8 * (p.2 + 2), tw tRAW p.1))

/-- The block after reset, the instruction word w at the pc of the management cluster, registers and memory words set. -/
def tAt (w : Nat) (rs : List (Nat × TWord)) (m : Map TWord) : State :=
  { State.reset with cpu.cores := [(tC, tCore rs)], cpu.mem := m.foldl (fun a p => ins a (p.1 / 8) p.2) [(0x3E0000000000 / 8, ⟨tCODE, BitVec.ofNat 64 w⟩)] }

/-- An access succeeds with a state and value that a test accepts. -/
def okIsSome {α : Type} (r : Acs α) (p : State → α → Bool) : Bool := match r with | .ok s w => p s w | .trap _ _ => false

/-- The fields of the n-th context instruction: SAVEL and SAVEH name the area in w2. -/
def tCtxF (n : Nat) : RF := ⟨0, if n < 2 then 2 else 0, 0, 0⟩

/-- A core of M at the n-th context instruction, with a page of type CTX at 0x2000 and a save area there. -/
def tCtx (n : Nat) : State :=
  let s := tAt (encR 0x18 (tCtxF n) n) [(2, tw tRAW 0x2000)] [(0x4000, tw tSAVELINK 0), (0x4008, tw tRAW (3 + 256 * (n - 2)))]
  updCore s tC (fun k => { k with ctxhead := tw tRAW (if n < 2 then 0 else 0x2000),
                                  tlb := [(0, ⟨0xFF, 0x2000, 0, BitVec.ofNat 64 (0x4000 + 0x80 + 0x67), 0x8000⟩)] })

/-- A core of M with a page of type SHADOW at 0x2000, SSP there, LINK set and RETADDR 0x100 on top of the shadow stack. -/
def tShadow (w ssp : Nat) (link : TWord) : State :=
  let s := tAt w [(2, tw tRETADDR 0x3E0000000100), (28, link)] [(0x4000, tw tRETADDR 0x100)]
  updCore s tC (fun k => { k with ssp := tw tRAW ssp, tlb := [(0, ⟨0xFF, 0x2000, 0, BitVec.ofNat 64 (0x4000 + 0x100 + 0x63), 0x8000⟩)] })

/-- A core of U at an instruction, its page at 0x2000 of ASID 0 mapped readable and executable. -/
def tUser (w : Nat) : State :=
  let s := tAt 0 [] [(0x4000, ⟨tCODE, BitVec.ofNat 64 w⟩)]
  updCore s tC (fun k => { k with pc := 0x2000, status := 0, tlb := [(0, ⟨0, 0x2000, 0, BitVec.ofNat 64 (0x4000 + 0x3B), 0x8000⟩)] })

/-- A core of S at an instruction, its page at 0x2000 of ASID 0 mapped readable and executable. -/
def tSuper (w : Nat) : State :=
  let s := tAt 0 [] [(0x4000, ⟨tCODE, BitVec.ofNat 64 w⟩)]
  updCore s tC (fun k => { k with pc := 0x2000, status := 1, tlb := [(0, ⟨0, 0x2000, 0, BitVec.ofNat 64 (0x4000 + 0x2B), 0x8000⟩)] })

/-- A core at a level with stack registers at 0x3010, in a page of ASID 0 or of M that is mapped readable and writable. -/
def tStack (lvl : Nat) : State :=
  let l : Map TlbEnt := [(0, ⟨0, 0x2000, 0, BitVec.ofNat 64 (0x4000 + 0x67), 0x8000⟩), (1, ⟨0xFF, 0x2000, 0, BitVec.ofNat 64 (0x4000 + 0x67), 0x8000⟩)]
  updCore (tAt 0 [] []) tC (fun k => { k with status := lvl, mstack := tw tSTACKPTR 0x2010, sstack := tw tSTACKPTR 0x2010, tlb := l })

/-- The block after reset at a tick. -/
def tTick (n : Nat) : State := { State.reset with tim.ticks := n }

/-- A device of a role that has left SEALED, in the mode of a code of Table 2.1. -/
def tMode (r : Role) (m : Nat) : State :=
  { State.reset with sec.exitDone := true, sec.otp.role := r, sys.mode := ⟨BitVec.ofNat 32 m, BitVec.ofNat 32 m, BitVec.ofNat 32 m⟩ }

/-- A command that waits in a phase. -/
def tWait (p : Phase) : Cmd := ⟨1, 0, .observe, [], [], 0, 0, p, ⟨0, [], [], false, none⟩, true, false, false⟩

/-- A grain of a stream with number 0, of a type, kind and CJN. -/
def tGrain (stream typ kind cjn : Nat) : Grain := ⟨0, hdrOf stream typ kind 0 0 0 0 cjn, [], 0, 0, 0, false, false, false, none, 0⟩

/-- A state with one durable grain in a stream. -/
def tDurable (s : State) (g : Grain) : State :=
  setStrm s g.hdr.stream { strm s g.hdr.stream with grains := [g], dur := 1, chained := 1, next := 1 }

/-- A device of a role after S9 in a mode, CON0 and CON1 at an authority. -/
def tAuth (r : Role) (m : Nat) (a : Auth) : State :=
  let s : State := { tMode r m with sec.done := true, sec.s5done := true, jrn.dWritable := true }
  updCon (updCon s 0 (fun k => { k with auth := a })) 1 (fun k => { k with auth := a })

/-- An untagged line of a console. -/
def tLine (c : Nat) : ConLine := ⟨c, [], []⟩

/-- A route of lane 0. -/
def tRoute : Route := ⟨0, false, 0, 0, 0, 0, 0, none⟩

/-- A sequenced OFFER of tenant 0, number 0. -/
def tInput : Input := ⟨0, 0, 1, 0, 0, 0, 0, 0, 0, tRoute, [], [], [], 0, 0, false, false, false, false, none⟩

/-- A decidable test of an access result. -/
def okIs {α : Type} [DecidableEq α] (r : Acs α) (s : State) (v : α) : Bool :=
  match r with | .ok s1 w => decide (s1 = s ∧ w = v) | .trap _ _ => false

theorem ok_of {α : Type} [DecidableEq α] {r : Acs α} {s : State} {v : α} (h : okIs r s v = true) : r = .ok s v := by
  cases r with
  | ok s1 w => simp only [okIs, decide_eq_true_eq] at h; rw [h.1, h.2]
  | trap s1 t => cases h

/-- An access succeeds with a value. -/
def okVal {α : Type} [DecidableEq α] (r : Acs α) (v : α) : Bool := match r with | .ok _ w => decide (w = v) | .trap _ _ => false

theorem ok_val {α : Type} [DecidableEq α] {r : Acs α} {v : α} (h : okVal r v = true) : ∃ s, r = .ok s v := by
  cases r with
  | ok s1 w => simp only [okVal, decide_eq_true_eq] at h; exact ⟨s1, by rw [h]⟩
  | trap s1 t => cases h

/-- An instruction ends by retiring at the next instruction. -/
def isDone (r : IRes) : Bool := match r with | .done _ => true | _ => false

theorem done_of {r : IRes} (h : isDone r = true) : ∃ u, r = .done u := by
  cases r <;> first | exact ⟨_, rfl⟩ | cases h

/-- An image with a hash of its JPUB, of a rollback number, whose signatures verify. -/
def tImage (j : Digest) (r : Nat) : Image := ⟨1, r, true, true, true, 0, none, true, 0, 0, 0, 0, [], [], j⟩

/-- A console's buffer closed with n bytes. -/
def tStaged (s : State) (c : Nat) (l : List Word32) (n : Nat) : State := updCon s c (fun k => { k with stage := ⟨.closed, n, l.zipIdx.map (fun p => (p.2, p.1))⟩ })

/-- An envelope of a kind and target, whose signature verifies, with the operator key 5. -/
def tEnv (kind target : Nat) : Envelope := ⟨target, kind, 1, 0, 0, 0, 0, true, 5, true, 354⟩

/-- A segment of stream 0 that is closed, with its seal and its freed copy, years ago. -/
def tRetire (freed : Bool) : State :=
  let s := tAuth .primary 3 .regulate
  setStrm { s with tim.tai := 80000 * 10 ^ 18 } 0 { strm s 0 with segs := [⟨0, 0, 0, 1, 1, 10, 0, false, none, true, 0, 0, 0, 0, some 0, 0, freed, false⟩] }

/-- A device in a mode whose book 0 of tenant 0 has an entry. -/
def tBook (m : Nat) (k : Book) : State := putBook (tAuth .primary m .operate) 0 0 k

/-- A PRIMARY in a mode with lane 0 UP in ETH mode, its port's IPv4 address 7, tenant 0 active with book 0 OPEN until far ahead, and a
session 1 of a class: of tenant 0, or of the device. -/
def tAwp (m : Nat) (cls : SClass) : State :=
  let s0 := tAuth .primary m .operate
  let s : State := { s0 with lane.ports := [(0, ⟨3, 1, 0, some 0, 1, 3⟩)], lane.lanes := [(0, laneReset)], awp.runtime := [0], sys.modeHist := [(0, .live)],
                             awp.sessions := [(skey (if cls = .devmgmt then tDEV else 0) 1, newSession cls (if cls = .devmgmt then tDEV else 0) 0 0 0 0)] }
  putBook (rawSet (rawSet (fset (fset (rawSet (fset (fset s bLQ 0x20 0 4 1) bSEQ 0x10 0 1 1) bAWP 0x800 7) bAWP 0x804 0 1 1) bAWP 0x210 8 2 2) bAWP 0x20C 0) bAWP 0x1100 1) 0 0
    { emptyBook with pb := 10 ^ 18, st := votedOf 1 }

/-- A frame of session 1 on lane 0 with a payload and the counter 1. -/
def tFrame (tenant : Nat) (payload : List Byte) : Frame :=
  ⟨0, 0, 0, true, none, 0, true, true, false, 0, 7, 0, fget State.reset bAWP 0x10 0 16, 0, none, 40 + payload.length, 1, tenant, 0, 0, payload.length, 0, 1, 1, true, payload⟩

end Sys2Proof.Machine
end

