-- ==== Sys2Proof/WellFormed.lean ====
section
/-! DEFINITION. Which commands name units that the block has: consoles, cores, lanes, ports, tenants, books, dies, blocks of
register space and the like. A console line's own arguments are not judged here: the block refuses them itself (R568). -/
namespace Sys2Proof

/-- A console: CON0 or CON1. -/
def okCon (c : Nat) : Bool := decide (c < 2)

/-- A line arrives on a console. -/
def okLine (l : ConLine) : Bool := okCon l.con

/-- A core: 0x00 to 0x5F the rule cores, 0x60 the management cluster (R71). -/
def okCore (c : Nat) : Bool := decide (c ≤ 0x60)

/-- A requester of register space (R71). -/
def okReq (r : Nat) : Bool := decide (r ≤ 0x60)

/-- A slot of register space (R70). -/
def okBlock (b : Nat) : Bool := decide (b < 256)

/-- One of the 48 lanes. -/
def okLane (k : Nat) : Bool := decide (k < 48)

/-- A port of a quad. -/
def okPort (q p : Nat) : Bool := decide (q < 12) && decide (p < 4)

/-- A tenant. -/
def okTenant (t : Nat) : Bool := decide (t < 64)

/-- A stream: a tenant's, or D as 64. -/
def okStream (t : Nat) : Bool := decide (t ≤ 64)

/-- A book of a tenant. -/
def okBook (t b : Nat) : Bool := okTenant t && decide (b < 4096)

/-- A cluster of eight rule cores. -/
def okCluster (c : Nat) : Bool := decide (c < 12)

/-- A pair of cores. -/
def okPair (p : Nat) : Bool := decide (p < 48)

/-- A die by its index. -/
def okDie (d : Nat) : Bool := decide (d < 256)

/-- A flash block: die × 8,192 + block, of 7,584 blocks a die (Table 18.2). -/
def okFlashBlock (k : Nat) : Bool := okDie (k / 8192) && decide (k % 8192 < 7584)

/-- A witness tag address. -/
def okTag (a : Nat) : Bool := decide (a < 128)

/-- A tamper loop. -/
def okLoop (n : Nat) : Bool := decide (n < 8)

/-- A 10 MHz input. -/
def okInput (i : Nat) : Bool := decide (i < 3)

/-- A pulse-per-second reference. -/
def okPps (r : Nat) : Bool := decide (r < 2)

/-- The units that a command names exist. [log 126 DESIGN CHOICE, safe] -/
def Instr.wf : Instr → Bool
  | .offer f => okLane f.lane
  | .cancel f => okLane f.lane
  | .query f _ => okLane f.lane
  | .heartbeat f => okLane f.lane
  | .keyimp f _ => okLane f.lane
  | .sessload f _ => okLane f.lane
  | .sessdrop f _ _ => okLane f.lane
  | .expreq f => okLane f.lane
  | .impdata f => okLane f.lane
  | .importVerify _ _ _ => true
  | .exportIdleTimeout _ => true
  | .arpRequest lane _ => okLane lane
  | .neighbourSolicitation lane _ => okLane lane
  | .echoRequest lane _ _ _ => okLane lane
  | .pauseFrame lane => okLane lane
  | .sync m => okLane m.lane
  | .followUp m => okLane m.lane
  | .delayResp m _ _ => okLane m.lane
  | .pdelayReq m => okLane m.lane
  | .announce m _ _ => okLane m.lane
  | .ptpSampleTimeout gm => okPps gm
  | .ppsEdge r => okPps r
  | .todLine r _ _ _ => okPps r
  | .ppsMissing r => okPps r
  | .uRecompute => true
  | .slewEnd => true
  | .ppsOutEdge => true
  | .acqWaitExpire => true
  | .refInputLoss i => okInput i
  | .refInputReturn i => okInput i
  | .clockTamper => true
  | .supplyGlitch => true
  | .thermalSample _ => true
  | .thermalHold => true
  | .tmrScrub _ => true
  | .powerOnReset _ _ _ _ => true
  | .externalReset => true
  | .mgmtWatchdogExpire => true
  | .bootStepTimeout _ => true
  | .setModeLive l => okLine l
  | .setModeQuiet l => okLine l
  | .drainComplete => true
  | .setModeAudit l => okLine l
  | .setModeReplay l => okLine l
  | .setModeHold l => okLine l
  | .holdFlushComplete => true
  | .mgmtLockstepMismatch => true
  | .partingInstant t b => okBook t b
  | .partNumber t b _ => okBook t b
  | .bookClose t b => okBook t b
  | .grainRequestNumber t => okStream t
  | .grainDurable t => okStream t
  | .replyRelease t _ => okStream t
  | .unlock req block _ => okReq req && okBlock block
  | .keyguardExpire block => okBlock block
  | .update req _ => okReq req
  | .snap req => okReq req
  | .modeWrite req _ => okReq req
  | .registerWrite req block _ _ _ => okReq req && okBlock block
  | .postedWriteTaken block => okBlock block
  | .postedDomainReset block => okBlock block
  | .indirectAddrWrite req block _ _ => okReq req && okBlock block
  | .indirectDataWrite req block _ _ => okReq req && okBlock block
  | .indirectDataRead req block _ => okReq req && okBlock block
  | .bookcmdOpen req _ _ _ => okReq req
  | .bookcmdSetcause req _ _ _ => okReq req
  | .bookcmdClearcause req _ _ _ => okReq req
  | .bookcmdRelease req _ _ _ => okReq req
  | .bookcmdRestore req _ _ _ => okReq req
  | .ipisend core _ => okCore core
  | .refenWrite req _ => okReq req
  | .eclassWrite req _ => okReq req
  | .freezeWrite req lane _ => okReq req && okLane lane
  | .lmargWrite req lane _ => okReq req && okLane lane
  | .rplRunWrite req _ => okReq req
  | .setReg l _ _ _ _ => okLine l
  | .showReg l _ _ => okLine l
  | .add core _ => okCore core
  | .sub core _ => okCore core
  | .mul core _ => okCore core
  | .div core _ => okCore core
  | .mdivi core _ => okCore core
  | .cmp core _ => okCore core
  | .and core _ => okCore core
  | .or core _ => okCore core
  | .xor core _ => okCore core
  | .andn core _ => okCore core
  | .sll core _ => okCore core
  | .srl core _ => okCore core
  | .sra core _ => okCore core
  | .mov core _ => okCore core
  | .tag core _ => okCore core
  | .nop core _ => okCore core
  | .addi core _ => okCore core
  | .cmpi core _ => okCore core
  | .andi core _ => okCore core
  | .ori core _ => okCore core
  | .shi core _ => okCore core
  | .li core _ => okCore core
  | .lix core _ => okCore core
  | .retag core _ => okCore core
  | .typep core _ => okCore core
  | .car core _ => okCore core
  | .cdr core _ => okCore core
  | .cons core _ => okCore core
  | .setcar core _ => okCore core
  | .setcdr core _ => okCore core
  | .len core _ => okCore core
  | .idhash core _ => okCore core
  | .vref core _ => okCore core
  | .vset core _ => okCore core
  | .sref core _ => okCore core
  | .sset core _ => okCore core
  | .makev core _ => okCore core
  | .maker core _ => okCore core
  | .makes core _ => okCore core
  | .ld core _ _ => okCore core
  | .st core _ _ => okCore core
  | .lda core _ _ => okCore core
  | .str core _ _ => okCore core
  | .addp core _ => okCore core
  | .ldb core _ => okCore core
  | .stb core _ => okCore core
  | .sm core _ _ => okCore core
  | .lm core _ _ => okCore core
  | .savel core _ => okCore core
  | .saveh core _ => okCore core
  | .loadl core _ => okCore core
  | .loadh core _ => okCore core
  | .beq core _ => okCore core
  | .bne core _ => okCore core
  | .blt core _ => okCore core
  | .bge core _ => okCore core
  | .bt core _ => okCore core
  | .bf core _ => okCore core
  | .bnil core _ => okCore core
  | .bnnil core _ => okCore core
  | .j core _ => okCore core
  | .call core _ => okCore core
  | .jr core _ => okCore core
  | .callr core _ => okCore core
  | .ret core _ => okCore core
  | .fence core _ => okCore core
  | .fenceI core _ => okCore core
  | .retx core _ => okCore core
  | .tlbw core _ => okCore core
  | .tlbiVa core _ => okCore core
  | .tlbiAsid core _ => okCore core
  | .tlbiAll core _ => okCore core
  | .mfcr core _ => okCore core
  | .mtcr core _ => okCore core
  | .sysc core _ _ => okCore core
  | .interruptTake core _ => okCore core
  | .coreWatchdogExpire core => okCore core
  | .uwaitTimeout core _ _ => okCore core
  | .coreSelftestComplete core _ => okCore core
  | .pairTestComplete pair _ => okPair pair
  | .sha256 core _ _ => okCore core
  | .sha3 core _ _ => okCore core
  | .hmac core _ _ => okCore core
  | .gcmseal core _ _ => okCore core
  | .gcmopen core _ _ => okCore core
  | .p256v core _ _ => okCore core
  | .p384v core _ _ => okCore core
  | .ed25519v core _ _ => okCore core
  | .draw core _ _ => okCore core
  | .drawn core _ _ => okCore core
  | .reseed core _ _ => okCore core
  | .tread core _ _ => okCore core
  | .take core _ _ _ => okCore core
  | .append core _ _ => okCore core
  | .ctrinc core _ _ => okCore core
  | .chained core _ _ => okCore core
  | .pairWaitTimeout core => okCore core
  | .appendWaitTimeout core => okCore core
  | .pairUnavailableTimeout tenant => okTenant tenant
  | .drbgReseedTimer cluster => okCluster cluster
  | .entropyTestFail cluster _ _ => okCluster cluster
  | .entropyRestore cluster => okCluster cluster
  | .dramPatrolRead _ _ _ => true
  | .anComplete q p _ _ => okPort q p
  | .trainingComplete q p _ _ => okPort q p
  | .trainingTimeout q p => okPort q p
  | .pcsLockLoss q p _ _ => okPort q p
  | .faultTimeout q p => okPort q p
  | .linkEventWindowEnd q p => okPort q p
  | .marginMeasure k _ => okLane k
  | .berEstimate k _ _ _ _ => okLane k
  | .hello _ _ _ => true
  | .record _ _ _ _ => true
  | .grain _ _ _ _ => true
  | .anchor _ _ _ _ _ => true
  | .digest _ _ _ _ _ => true
  | .ack _ _ _ _ => true
  | .nack _ _ _ => true
  | .position _ _ _ => true
  | .diverge _ _ _ _ _ _ => true
  | .mirrorRetransmitTimeout => true
  | .mirrorAckTimer => true
  | .digestSendTimer => true
  | .mirrorLossTimeout => true
  | .mirrorLagTimeout tenant => okTenant tenant
  | .rowHoldTimeout t => okStream t
  | .fcdelayTimeout t => okStream t
  | .rowProgramComplete t _ _ => okStream t
  | .heartwoodSeal t _ _ => okStream t
  | .sapwoodFree _ _ => true
  | .dieTimeout d _ => okDie d
  | .rebuildComplete d => okDie d
  | .patrolRead k _ => okFlashBlock k
  | .blockEvaluate k => okFlashBlock k
  | .relocation k _ _ => okFlashBlock k
  | .quietWindowBoundary => true
  | .wearEvaluate => true
  | .mapCheckpoint => true
  | .zqCalibration => true
  | .pfailLatch _ _ => true
  | .pfailRestart => true
  | .holdupSample _ => true
  | .vbatLow _ => true
  | .vaultMonitorSample _ _ _ => true
  | .loopPulse n _ => okLoop n
  | .witnessEventInstant => true
  | .witnessTransmit _ => true
  | .report f => okTag f.src
  | .alarm f => okTag f.src
  | .joinreq _ _ _ => true
  | .supervisionTimeout a => okTag a
  | .authfailMinute => true
  | .countsWrite => true
  | .replayGrain => true
  | .telemetrySample _ => true
  | .telemetrySecond => true
  | .telemetrySummary => true
  | .breakLine con => okCon con
  | .badLine con _ => okCon con
  | .challengeTimeout con => okCon con
  | .consoleIdleTimeout con => okCon con
  | .authLockExpire con => okCon con
  | .commandReplyRelease _ => true
  | .authOperate l => okLine l
  | .authEngineer l => okLine l
  | .authRegulate l => okLine l
  | .authResponse l _ => okLine l
  | .authLogout l => okLine l
  | .authObserve l => okLine l
  | .cjFrom l _ => okLine l
  | .cjTail l _ => okLine l
  | .state l => okLine l
  | .attest l _ => okLine l
  | .resetDevice l => okLine l
  | .stageBegin l _ => okLine l
  | .stageData l _ _ => okLine l
  | .stageEnd l _ => okLine l
  | .stageDrop l => okLine l
  | .commissionJkeyHash l _ _ _ => okLine l
  | .commissionOpkey l _ => okLine l
  | .commissionRole l _ _ => okLine l
  | .revokeOpkey l _ _ => okLine l
  | .setEclass l => okLine l
  | .importKey l _ _ => okLine l
  | .openMgmt l _ => okLine l
  | .loadImage l _ _ => okLine l
  | .commitImage l _ => okLine l
  | .loadRules l _ => okLine l
  | .loadDict l _ => okLine l
  | .loadLeaps l => okLine l
  | .showTime l => okLine l
  | .setTime l _ _ => okLine l
  | .stepTime l _ _ => okLine l
  | .setTimeref l _ _ => okLine l
  | .setBook l _ _ _ _ => okLine l
  | .openBook l _ _ => okLine l
  | .suspendBook l _ _ => okLine l
  | .suspendTenant l _ => okLine l
  | .resumeBook l _ _ _ => okLine l
  | .resumeTenant l _ _ => okLine l
  | .resumeDevice l _ => okLine l
  | .settleBook l _ _ => okLine l
  | .releaseBook l _ _ => okLine l
  | .showJournal l _ => okLine l
  | .retire l _ _ => okLine l
  | .mirrorReattach l _ => okLine l
  | .replayStart l _ _ _ _ => okLine l
  | .replayClear l _ _ _ => okLine l
  | .showTamper l => okLine l
  | .clearTamper l _ => okLine l
  | .witnessPair l _ _ => okLine l
  | .witnessUnpair l _ => okLine l
  | .witnessLoopCal l _ => okLine l
  | .showWitness l _ => okLine l
  | .showBook l _ _ => okLine l
  | .showGrain l _ _ _ => okLine l
  | .showSession l _ _ => okLine l
  | .showCtx l _ _ _ => okLine l
  | .showMedia l _ _ => okLine l
  | .showPower l => okLine l
  | .showMirror l _ => okLine l
  | .showReplay l _ => okLine l
  | .showTenant l _ => okLine l
  | .showLane l _ => okLine l
  | .sealedStepComplete _ => true
  | .sweepComplete => true
  | .pfailGlitch => true
  | .vbatLost => true
  | .pllLockRegained i => okInput i
  | .pdelayResp m _ _ => okLane m.lane
  | .leapTableInstant => true
  | .domainResetEnd block => okBlock block
  | .flashOperationComplete _ => true
  | .dqTraining d _ => okDie d
  | .rtsAsserted con => okCon con
  | .frameDiscard lane _ => okLane lane

end Sys2Proof
end

