-- ==== Sys2Proof/Tests/Slice0.lean ====
section
/-! SUPPORT. Tests: an ill-formed command for each check of WellFormed, single steps whose results the specification states, and for
every statement of Certificates/Slice0/Obligations.lean the cases that meet its hypotheses. -/
set_option linter.unusedSimpArgs false
set_option linter.unusedVariables false
set_option linter.unusedTactic false
set_option linter.unreachableTactic false
set_option linter.unnecessarySeqFocus false
namespace Sys2Proof.Machine

open Sys2Proof

/-! ### An ill-formed command for each check of WellFormed -/

theorem test_wf_console : Instr.wf (.breakLine 2) = false ∧ Instr.wf (.breakLine 1) = true := by decide
theorem test_wf_line : Instr.wf (.state ⟨2, [], []⟩) = false ∧ Instr.wf (.state (tLine 1)) = true := by decide
theorem test_wf_core : Instr.wf (.add 0x61 ⟨1, 2, 3, 0⟩) = false ∧ Instr.wf (.add 0x60 ⟨1, 2, 3, 0⟩) = true := by decide
theorem test_wf_requester : Instr.wf (.snap 0x61) = false ∧ Instr.wf (.snap 0x60) = true := by decide
theorem test_wf_block : Instr.wf (.keyguardExpire 256) = false ∧ Instr.wf (.keyguardExpire 255) = true := by decide
theorem test_wf_lane : Instr.wf (.pauseFrame 48) = false ∧ Instr.wf (.pauseFrame 47) = true := by decide
theorem test_wf_port : Instr.wf (.faultTimeout 12 0) = false ∧ Instr.wf (.faultTimeout 11 4) = false ∧ Instr.wf (.faultTimeout 11 3) = true := by decide
theorem test_wf_tenant : Instr.wf (.mirrorLagTimeout 64) = false ∧ Instr.wf (.mirrorLagTimeout 63) = true := by decide
theorem test_wf_stream : Instr.wf (.rowHoldTimeout 65) = false ∧ Instr.wf (.rowHoldTimeout 64) = true := by decide
theorem test_wf_book : Instr.wf (.bookClose 0 4096) = false ∧ Instr.wf (.bookClose 64 0) = false ∧ Instr.wf (.bookClose 63 4095) = true := by decide
theorem test_wf_cluster : Instr.wf (.drbgReseedTimer 12) = false ∧ Instr.wf (.drbgReseedTimer 11) = true := by decide
theorem test_wf_pair : Instr.wf (.pairTestComplete 48 true) = false ∧ Instr.wf (.pairTestComplete 47 true) = true := by decide
theorem test_wf_die : Instr.wf (.rebuildComplete 256) = false ∧ Instr.wf (.rebuildComplete 255) = true := by decide
theorem test_wf_flash_block : Instr.wf (.blockEvaluate 7584) = false ∧ Instr.wf (.blockEvaluate 7583) = true := by decide
theorem test_wf_tag : Instr.wf (.supervisionTimeout 128) = false ∧ Instr.wf (.supervisionTimeout 127) = true := by decide
theorem test_wf_loop : Instr.wf (.loopPulse 8 (some 1)) = false ∧ Instr.wf (.loopPulse 7 (some 1)) = true := by decide
theorem test_wf_input : Instr.wf (.refInputLoss 3) = false ∧ Instr.wf (.refInputLoss 2) = true := by decide
theorem test_wf_pps : Instr.wf (.ppsEdge 2) = false ∧ Instr.wf (.ppsEdge 1) = true := by decide

/-! ### Single steps whose results the specification states -/

/-- What a test reads of the state after a command. -/
def tAfter (i : Instr) (s : State) (p : State → Bool) : Bool := match exec i s with | .next t => p t | _ => false

/-- The table of operations gives no row bits. -/
theorem test_no_word : decodeTableWord 32 0 = none ∧ State.reset.withFetchWord 32 0 = State.reset := ⟨rfl, rfl⟩

/-- ADD of two INTs within the INT range (Table 7.5): register 1 holds the sum and the pc moves on by four bytes. -/
theorem test_add : tAfter (.add tC ⟨1, 2, 3, 0⟩) (tAt (encR 0x01 ⟨1, 2, 3, 0⟩ 0) [(2, wInt 2), (3, wInt 3)] [])
    (fun t => decide (reg t tC 1 = wInt 5) && decide ((getCore t tC).pc = 0x3E0000000004)) = true := by decide +kernel

/-- A shift by 64 counts the low six bits of the amount alone (R213). -/
theorem test_sll_64 : tAfter (.sll tC ⟨1, 2, 3, 0⟩) (tAt (encR 0x04 ⟨1, 2, 3, 0⟩ 4) [(2, wInt 1), (3, wInt 64)] [])
    (fun t => decide (reg t tC 1 = wInt 1)) = true := by decide +kernel

/-- MOV where the source is also the destination leaves the word as it is. -/
theorem test_mov_self : tAfter (.mov tC ⟨2, 2, 0, 0⟩) (tAt (encR 0x0E ⟨2, 2, 0, 0⟩ 0) [(2, wNil)] []) (fun t => decide (reg t tC 2 = wNil)) = true := by decide +kernel

/-- An external reset records RSTCAUSE EXT and leaves the device in SEALED (R103). -/
theorem test_external_reset : tAfter .externalReset (tMode .primary 2) (fun t => decide (t.sec.rstCause = 2) && decide (t.mode = some .sealed)) = true := by decide +kernel

/-- SET MODE LIVE on an uncommissioned device before the end of S5 is answered NOT_READY and changes no mode (R61, Table 22.3). -/
theorem test_live_early : tAfter (.setModeLive (tLine 0)) State.reset
    (fun t => decide (t.mode = some .sealed) && decide (((getCon t 0).txq.map (fun p => p.2.code)) = [eNOT_READY])) = true := by decide +kernel

/-- A break drops its console to OBSERVE (R550). -/
theorem test_break : tAfter (.breakLine 0) (tAuth .primary 2 .engineer) (fun t => decide ((getCon t 0).auth = .observe)) = true := by decide +kernel

/-! ### Cases that meet the hypotheses of the statements -/

/-- Every clause of `SumsComplete` has a case. -/
theorem wit_SumsComplete :
    (∀ i ∈ [0, 1], ∀ p ∈ [(wInt 5, wInt (-7)), (wInt (2 ^ 62), wInt (2 ^ 62 - 1)), (wMoney 3, wMoney 4), (⟨tTIME, 9⟩, wInt 4), (⟨tTIME, 9⟩, ⟨tTIME, 8⟩)],
      let t := tAt (encR 0x01 ⟨1, 2, 3, 0⟩ i) [(2, p.1), (3, p.2)] [];
      AtInsn t t tC (encR 0x01 ⟨1, 2, 3, 0⟩ i) ∧ reg t tC 2 = p.1 ∧ reg t tC 3 = p.2 ∧ destBad t tC 1 wNil = false) ∧
    (let t := tAt (encR 0x01 ⟨1, 2, 3, 0⟩ 0) ((2, wInt (2 ^ 62)) :: (3, wInt (2 ^ 62)) :: tRoom) [];
      AtInsn t t tC (encR 0x01 ⟨1, 2, 3, 0⟩ 0) ∧ in64 (2 ^ 62 + 2 ^ 62) = false ∧ ∃ u, deliverNum t tC 1 (2 ^ 62 + 2 ^ 62) 1 24 = .done u) := by
  refine ⟨fun i hi p hp => ?_, ⟨⟨by decide, rfl⟩, by decide, _, rfl⟩⟩
  fin_cases hi <;> fin_cases hp <;> exact ⟨⟨by decide, rfl⟩, rfl, rfl, by decide⟩

/-- Every clause of `ProductsComplete` has a case: INT, MONEY and RATIO operands, quotient and remainder registers. -/
theorem wit_ProductsComplete :
    (∀ i ∈ [2, 4], ∀ p ∈ [(wInt (2 ^ 31), wInt (2 ^ 31)), (wMoney 7, wInt (-2)), (wInt (-2), wMoney 7)],
      let t := tAt (encR 0x01 ⟨1, 2, 3, 4⟩ i) ((2, p.1) :: (3, p.2) :: tRoom) [];
      AtInsn t t tC (encR 0x01 ⟨1, 2, 3, 4⟩ i) ∧ reg t tC 2 = p.1 ∧ reg t tC 3 = p.2 ∧ sval p.2 ≠ 0) ∧
    (let t := tAt (encR 0x01 ⟨1, 2, 3, 4⟩ 2) ((2, wInt (2 ^ 40)) :: (3, wInt (2 ^ 40)) :: tRoom) [];
      AtInsn t t tC (encR 0x01 ⟨1, 2, 3, 4⟩ 2) ∧ in64 (2 ^ 40 * 2 ^ 40) = false ∧ ∃ u, deliverNum t tC 1 (2 ^ 40 * 2 ^ 40) 1 24 = .done u) ∧
    (let t := tAt (encR 0x01 ⟨1, 2, 3, 0⟩ 3) ((2, wInt 7) :: (3, wInt (-2)) :: tRoom) [];
      AtInsn t t tC (encR 0x01 ⟨1, 2, 3, 0⟩ 3) ∧ readNum t tC (wInt 7) = .ok t ⟨7, 1, 1, 1⟩ ∧ ∃ u, deliverNum t tC 1 7 (-2) 72 = .done u) ∧
    (let t := tAt (encR 0x01 ⟨1, 2, 3, 4⟩ 2) ((2, wMoney 10) :: (3, tw tRATIO tHeap) :: tRoom) (tRatio 1 3);
      AtInsn t t tC (encR 0x01 ⟨1, 2, 3, 4⟩ 2) ∧ readNum t tC (tw tRATIO tHeap) = .ok t ⟨1, 3, 1, 1⟩ ∧
        ∃ u, allocDeliver t tC 16 false [] [(1, wMoney 3), (4, wInt 1)] = .done u) ∧
    (let t := tAt (encR 0x01 ⟨1, 2, 3, 4⟩ 4) ((2, wMoney 10) :: (3, wMoney (-3)) :: tRoom) [];
      AtInsn t t tC (encR 0x01 ⟨1, 2, 3, 4⟩ 4) ∧ ∃ u, allocDeliver t tC 24 false [] [(1, wInt (-3)), (4, wMoney 1)] = .done u) := by
  refine ⟨fun i hi p hp => ?_, ⟨⟨by decide, rfl⟩, by decide, _, rfl⟩, ⟨⟨by decide, rfl⟩, rfl, done_of (by decide +kernel)⟩, ⟨⟨by decide, rfl⟩, ok_of (by decide +kernel), done_of (by decide +kernel)⟩, ⟨by decide, rfl⟩, _, rfl⟩
  fin_cases hi <;> fin_cases hp <;> exact ⟨⟨by decide, rfl⟩, rfl, rfl, by decide⟩

/-- Every clause of `ComparisonsComplete` has a case. -/
theorem wit_ComparisonsComplete :
    (∀ p ∈ [(wInt 5, wInt (-7)), (wMoney 3, wMoney 4), (⟨tTIME, 9⟩, ⟨tTIME, 8⟩), (⟨tCHAR, 9⟩, ⟨tCHAR, 8⟩), (wBool true, wBool false), (wNil, wNil), (⟨tSYMBOL, 1⟩, ⟨tSYMBOL, 2⟩)],
      let t := tAt (encR 0x01 ⟨1, 2, 3, 0⟩ 5) [(2, p.1), (3, p.2)] [];
      AtInsn t t tC (encR 0x01 ⟨1, 2, 3, 0⟩ 5) ∧ reg t tC 2 = p.1 ∧ reg t tC 3 = p.2 ∧ destBad t tC 1 wNil = false) ∧
    (let t := tAt (encR 0x01 ⟨1, 2, 3, 0⟩ 5) [(2, tw tRATIO tHeap), (3, wInt 1)] (tRatio 1 3);
      AtInsn t t tC (encR 0x01 ⟨1, 2, 3, 0⟩ 5) ∧ readNum t tC (tw tRATIO tHeap) = .ok t ⟨1, 3, 1, 1⟩) ∧
    (let t := tAt (encI 0x03 ⟨1, 2, 0xFFFF⟩) [(2, tw tRATIO tHeap)] (tRatio 1 3);
      AtInsn t t tC (encI 0x03 ⟨1, 2, 0xFFFF⟩) ∧ readNum t tC (tw tRATIO tHeap) = .ok t ⟨1, 3, 1, 1⟩) := by
  refine ⟨fun p hp => ?_, ⟨⟨by decide, rfl⟩, ok_of (by decide +kernel)⟩, ⟨by decide, rfl⟩, ok_of (by decide +kernel)⟩
  fin_cases hp <;> exact ⟨⟨by decide, rfl⟩, rfl, rfl, by decide⟩

/-- Every clause of the bit operations in `BitOperationsAndMovesComplete` has a case: each function code and each immediate form at the ends of its range. -/
theorem wit_BitOperationsAndMovesComplete_bits :
    (∀ i ∈ [0, 1, 2, 3, 4, 5, 6], ∀ p ∈ [(wInt 5, wInt (-1)), (tw tRAW 3, tw tRAW 4), (tw tRAW 3, wInt 63)],
      let t := tAt (encR 0x04 ⟨1, 2, 3, 0⟩ i) [(2, p.1), (3, p.2)] [];
      AtInsn t t tC (encR 0x04 ⟨1, 2, 3, 0⟩ i) ∧ reg t tC 2 = p.1 ∧ reg t tC 3 = p.2 ∧ destBad t tC 1 wNil = false) ∧
    (∀ i ∈ [5, 6, 7], ∀ n ∈ [(0 : BitVec 16), 63, 64, 127, 128, 191],
      let t := tAt (encI i ⟨1, 2, n⟩) [(2, wInt 5)] [];
      AtInsn t t tC (encI i ⟨1, 2, n⟩) ∧ reg t tC 2 = wInt 5) := by
  refine ⟨fun i hi p hp => ?_, fun i hi n hn => ?_⟩
  · fin_cases hi <;> fin_cases hp <;> exact ⟨⟨by decide, rfl⟩, rfl, rfl, by decide⟩
  · fin_cases hi <;> fin_cases hn <;> exact ⟨⟨by decide, rfl⟩, rfl⟩
/-- Every clause of the moves in `BitOperationsAndMovesComplete` has a case. -/
theorem wit_BitOperationsAndMovesComplete_moves :
    (∀ i ∈ [0, 1], let t := tAt (encR 0x0E ⟨1, 2, 0, 0⟩ i) [(2, wNil)] []; AtInsn t t tC (encR 0x0E ⟨1, 2, 0, 0⟩ i) ∧ destBad t tC 1 wNil = false) ∧
    (let t := tAt (encR 0x0E ⟨0, 0, 0, 0⟩ 2) [] []; AtInsn t t tC (encR 0x0E ⟨0, 0, 0, 0⟩ 2)) ∧
    (∀ i ∈ [8, 9], let t := tAt (encI i ⟨1, 0, 0x8000⟩) [(1, wInt 1)] []; AtInsn t t tC (encI i ⟨1, 0, 0x8000⟩) ∧ reg t tC 1 = wInt 1) ∧
    (let t := tAt (encI 0x0A ⟨1, 2, 0x02⟩) [(2, wInt 0xD7FF)] []; AtInsn t t tC (encI 0x0A ⟨1, 2, 0x02⟩) ∧ payloadOk tCHAR 0xD7FF = true ∧ retagOk (lvlOf t tC) tCHAR false = true) ∧
    (∀ n ∈ [(0xE0 : BitVec 16), 0xE1, 0xE2, 0xE3, 0xE4, 0xFF], let t := tAt (encI 0x0B ⟨1, 2, n⟩) [(2, wNil)] []; AtInsn t t tC (encI 0x0B ⟨1, 2, n⟩)) ∧
    (let t := tAt (encI 0x14 ⟨1, 2, 0xFFF8⟩) [(2, tw tRAW 8)] []; AtInsn t t tC (encI 0x14 ⟨1, 2, 0xFFF8⟩) ∧ tRAW ∈ baseTags (lvlOf t tC) ∧ (8 : Int) + (0xFFF8 : BitVec 16).toInt = 0) := by
  refine ⟨fun i hi => ?_, And.intro (by decide) rfl, fun i hi => ?_, ⟨⟨by decide, rfl⟩, by decide, by decide⟩, fun n hn => ?_, And.intro (by decide) rfl, by decide, by decide⟩
  · fin_cases hi <;> exact ⟨⟨by decide, rfl⟩, by decide⟩
  · fin_cases hi <;> exact ⟨⟨by decide, rfl⟩, rfl⟩
  · fin_cases hn <;> exact And.intro (by decide) rfl

/-- Every clause of `ListInstructionsComplete` has a case. -/
theorem wit_ListInstructionsComplete :
    (∀ i ∈ [0, 1, 5], let t := tAt (encR 0x0C ⟨1, 2, 0, 0⟩ i) [(2, wNil)] []; AtInsn t t tC (encR 0x0C ⟨1, 2, 0, 0⟩ i) ∧ reg t tC 2 = wNil) ∧
    (∀ i ∈ [0, 1, 5], let t := tAt (encR 0x0C ⟨1, 2, 0, 0⟩ i) [(2, tw tCONS tHeap)] tCell;
      AtInsn t t tC (encR 0x0C ⟨1, 2, 0, 0⟩ i) ∧ reg t tC 2 = tw tCONS tHeap ∧ loadSlot t tC 1 tHeap 64 = .ok t (wInt 5) ∧
        loadSlot t tC 1 (tHeap + 8) 64 = .ok t wNil) ∧
    (let t := tAt (encR 0x0C ⟨1, 2, 3, 0⟩ 2) ((2, wInt 1) :: (3, wNil) :: tRoom) [];
      AtInsn t t tC (encR 0x0C ⟨1, 2, 3, 0⟩ 2) ∧ ∃ u, allocDeliver t tC 16 true [⟨none, [wInt 1, wNil]⟩] [(1, ⟨tCONS, (reg t tC 31).val⟩)] = .done u) ∧
    (∀ i ∈ [3, 4], let t := tAt (encR 0x0C ⟨0, 2, 3, 0⟩ i) [(2, tw tCONS tHeap), (3, wInt 9)] tCell;
      AtInsn t t tC (encR 0x0C ⟨0, 2, 3, 0⟩ i) ∧ (∃ u, stWord t tC tHeap (wInt 9) 64 = .ok u ()) ∧ ∃ u, stWord t tC (tHeap + 8) (wInt 9) 64 = .ok u ()) ∧
    (let t := tAt (encR 0x0C ⟨1, 2, 0, 0⟩ 5) [(2, tw tVECTOR tHeap)] (tVec [wInt 7, wNil]);
      AtInsn t t tC (encR 0x0C ⟨1, 2, 0, 0⟩ 5) ∧ objHeader t tC (tw tVECTOR tHeap) = .ok t (tHeap, 2)) ∧
    (let t := tAt (encR 0x0C ⟨1, 2, 0, 0⟩ 6) [(2, tw tSTRING tHeap)] (tStr 3 [0x636261]);
      AtInsn t t tC (encR 0x0C ⟨1, 2, 0, 0⟩ 6) ∧ strLen t tC (tw tSTRING tHeap) = .ok t (tHeap, 3) ∧
        objHeader t tC (tw tSTRING tHeap) = .ok t (tHeap, 2) ∧ objWord t tC tHeap 0 = .ok t (header 0x12 2 1)) := by
  refine ⟨fun i hi => ?_, fun i hi => ?_, ⟨And.intro (by decide) rfl, done_of (by decide +kernel)⟩, fun i hi => ?_,
    ⟨And.intro (by decide) rfl, ok_of (by decide +kernel)⟩, And.intro (by decide) rfl, ok_of (by decide +kernel), ok_of (by decide +kernel), ok_of (by decide +kernel)⟩
  · fin_cases hi <;> exact ⟨And.intro (by decide) rfl, rfl⟩
  · fin_cases hi <;> exact ⟨And.intro (by decide) rfl, rfl, ok_of (by decide +kernel), ok_of (by decide +kernel)⟩
  · fin_cases hi <;> exact ⟨And.intro (by decide) rfl, ok_val (by decide +kernel), ok_val (by decide +kernel)⟩

/-- Every clause of `ObjectInstructionsComplete` has a case, the last index of a body among them. -/
theorem wit_ObjectInstructionsComplete :
    (∀ n ∈ [0, 1], let t := tAt (encR 0x0D ⟨1, 2, 3, 0⟩ n) [(1, wNil), (2, tw tVECTOR tHeap), (3, wInt 1)] (tVec [wInt 7, wNil]);
      AtInsn t t tC (encR 0x0D ⟨1, 2, 3, 0⟩ n) ∧ bodyAddr t tC (tw tVECTOR tHeap) (wInt 1) = .ok t (tHeap + 16) ∧
        loadSlot t tC 1 (tHeap + 16) 64 = .ok t wNil ∧ ∃ u, stWord t tC (tHeap + 16) wNil 64 = .ok u ()) ∧
    (∀ n ∈ [2, 3], let t := tAt (encR 0x0D ⟨1, 2, 3, 0⟩ n) [(1, wInt 255), (2, tw tSTRING tHeap), (3, wInt 2)] (tStr 3 [0x636261]);
      AtInsn t t tC (encR 0x0D ⟨1, 2, 3, 0⟩ n) ∧ strWord t tC (tw tSTRING tHeap) (wInt 2) = .ok t (tHeap + 16, tw tRAW 0x636261) ∧
        ∃ u, stWord t tC (tHeap + 16) ⟨tRAW, setByte 0x636261 2 255⟩ 64 = .ok u ()) ∧
    (let t := tAt (encR 0x0D ⟨1, 2, 3, 0⟩ 4) ((2, wNil) :: (3, wInt 2) :: tRoom) [];
      AtInsn t t tC (encR 0x0D ⟨1, 2, 3, 0⟩ 4) ∧ ∃ u, allocDeliver t tC 24 true [⟨some 0x11, [wNil, wNil]⟩] [(1, ⟨tVECTOR, (reg t tC 31).val⟩)] = .done u) ∧
    (let t := tAt (encR 0x0D ⟨1, 2, 3, 0⟩ 5) ((2, ⟨tSYMBOL, 1⟩) :: (3, wInt 1) :: tRoom) [];
      AtInsn t t tC (encR 0x0D ⟨1, 2, 3, 0⟩ 5) ∧ ∃ u, allocDeliver t tC 24 false [⟨some 0x14, [⟨tSYMBOL, 1⟩, wNil]⟩] [(1, ⟨tRECORD, (reg t tC 31).val⟩)] = .done u) ∧
    (let t := tAt (encR 0x0D ⟨1, 0, 3, 0⟩ 6) ((3, wInt 9) :: tRoom) [];
      AtInsn t t tC (encR 0x0D ⟨1, 0, 3, 0⟩ 6) ∧ ∃ u, allocDeliver t tC 32 false [⟨some 0x12, [wInt 9, wZero, wZero]⟩] [(1, ⟨tSTRING, (reg t tC 31).val⟩)] = .done u) := by
  refine ⟨fun n hn => ?_, fun n hn => ?_, ⟨And.intro (by decide) rfl, done_of (by decide +kernel)⟩, ⟨And.intro (by decide) rfl, done_of (by decide +kernel)⟩,
    And.intro (by decide) rfl, done_of (by decide +kernel)⟩
  · fin_cases hn <;> exact ⟨And.intro (by decide) rfl, ok_of (by decide +kernel), ok_of (by decide +kernel), ok_val (by decide +kernel)⟩
  · fin_cases hn <;> exact ⟨And.intro (by decide) rfl, ok_of (by decide +kernel), ok_val (by decide +kernel)⟩

/-- Every clause of `LoadsAndStoresComplete` has a case, the last word of the firmware window among them. -/
theorem wit_LoadsAndStoresComplete :
    (∀ n ∈ [0x10, 0x11, 0x12, 0x13], ∀ b ∈ [tHeap, 0x3E0001000000 - 16], let t := tAt (encI n ⟨1, 2, 8⟩) [(1, wInt 4), (2, tw tRAW b)] [];
      AtInsn t t tC (encI n ⟨1, 2, 8⟩) ∧ tRAW ∈ baseTags (lvlOf t tC) ∧ memEvents t tC [.l1dMiss] = (t, none) ∧ (getCore t tC).runs = true ∧
        alignChk t tC (b + 8) kLOAD = .ok t (b + 8) ∧ alignChk t tC (b + 8) kSTORE = .ok t (b + 8) ∧
        loadSlot t tC 1 (b + 8) 32 = .ok t wZero ∧ ∃ u, stWord t tC (b + 8) (wInt 4) 32 = .ok u ()) ∧
    (∀ n ∈ [0x15, 0x16], let t := tAt (encI n ⟨1, 2, 0xFFFF⟩) [(1, wInt 255), (2, tw tRAW (tHeap + 8))] [];
      AtInsn t t tC (encI n ⟨1, 2, 0xFFFF⟩) ∧ lvlOf t tC ≠ 0 ∧ (tHeap + 7 : Int) = (tw tRAW (tHeap + 8)).val.toNat + (0xFFFF : BitVec 16).toInt ∧
        ldWord t tC tHeap kLOAD 8 = .ok t (⟨tHeap, tHeap, .dram, 4, 3, true⟩, wZero) ∧ xlate t tC tHeap kSTORE = .ok t ⟨tHeap, tHeap, .dram, 4, 3, true⟩ ∧
        rdAt t tC ⟨tHeap, tHeap, .dram, 4, 3, true⟩ 8 = .ok t wZero ∧ ∃ u, wrAt t tC ⟨tHeap, tHeap, .dram, 4, 3, true⟩ ⟨tRAW, setByte 0 7 255⟩ 8 = .ok u ()) := by
  refine ⟨fun n hn b hb => ?_, fun n hn => ?_⟩
  · fin_cases hn <;> fin_cases hb <;> exact ⟨And.intro (by decide) rfl, by decide, rfl, by decide, ok_of (by decide +kernel), ok_of (by decide +kernel), ok_of (by decide +kernel), ok_val (by decide +kernel)⟩
  · fin_cases hn <;> exact ⟨And.intro (by decide) rfl, by decide, by decide, ok_of (by decide +kernel), ok_of (by decide +kernel), ok_of (by decide +kernel), ok_val (by decide +kernel)⟩

/-- Every clause of `MultipleRegistersComplete` has a case: registers 4 and 31, whole and interrupted after one. -/
theorem wit_MultipleRegistersComplete :
    (let t := tAt (encR 0x17 ⟨0, 2, 3, 0⟩ 0) [(2, tw tRAW tHeap), (3, wInt 0x80000010), (4, wNil)] [];
      AtInsn t t tC (encR 0x17 ⟨0, 2, 3, 0⟩ 0) ∧ wordAddr t tC (tw tRAW tHeap) 0 kSTORE = .ok t tHeap ∧
        slotList 0x80000010 tHeap (getCore t tC).lmprog = [(4, tHeap), (31, tHeap + 8)] ∧
        (∃ v, Acs.each (fun s p => probe s tC false p) [(4, tHeap), (31, tHeap + 8)] t = .ok v
          [(4, ⟨tHeap, tHeap, .dram, 4, 3, true⟩, wNil), (31, ⟨tHeap + 8, tHeap + 8, .dram, 4, 3, true⟩, wZero)]) ∧
        (∃ u, wrAll t tC [(⟨tHeap, tHeap, .dram, 4, 3, true⟩, wNil), (⟨tHeap + 8, tHeap + 8, .dram, 4, 3, true⟩, wZero)] = .ok u ()) ∧
        ∃ u, wrAll t tC [(⟨tHeap, tHeap, .dram, 4, 3, true⟩, wNil)] = .ok u ()) ∧
    (let t := tAt (encR 0x17 ⟨0, 2, 3, 0⟩ 1) [(2, tw tRAW tHeap), (3, wInt 0x80000010)] tCell;
      AtInsn t t tC (encR 0x17 ⟨0, 2, 3, 0⟩ 1) ∧ bit 0x80000010 2 = false ∧ bit 0x80000010 3 = false ∧ lvlOf t tC ≠ 0 ∧
        wordAddr t tC (tw tRAW tHeap) 0 kLOAD = .ok t tHeap ∧
        ∃ v, Acs.each (fun s p => probe s tC true p) [(4, tHeap), (31, tHeap + 8)] t = .ok v
          [(4, ⟨tHeap, tHeap, .dram, 4, 3, true⟩, wInt 5), (31, ⟨tHeap + 8, tHeap + 8, .dram, 4, 3, true⟩, wNil)]) := by
  refine ⟨⟨And.intro (by decide) rfl, ok_of (by decide +kernel), by decide +kernel, ok_val (by decide +kernel), ok_val (by decide +kernel), ok_val (by decide +kernel)⟩,
    And.intro (by decide) rfl, by decide, by decide, by decide, ok_of (by decide +kernel), ok_val (by decide +kernel)⟩

/-- The clauses of `SaveAreasComplete` have a case in a page of type CTX, for both halves. -/
theorem wit_SaveAreasComplete :
    (∀ n ∈ [0, 1, 2, 3], AtInsn (tCtx n) (tCtx n) tC (encR 0x18 (tCtxF n) n) ∧ lvlOf (tCtx n) tC ≠ 0) ∧
    (∀ n ∈ [0, 1], okIsSome (areaXl (tCtx n) tC 0x2000 kSTORE) (fun s xs => okIsSome (wrAll s tC (xs.map (fun x => (x, wNil)))) (fun _ _ => true)) = true) ∧
    (∀ n ∈ [2, 3], okIsSome (areaXl (tCtx n) tC (getCore (tCtx n) tC).ctxhead.val kLOAD) (fun s xs =>
      okIsSome (Acs.each (fun s x => rdAt s tC x 64) xs s) (fun _ ws => decide (ws[0]? = some (tw tSAVELINK 0) ∧ ws[1]? = some (tw tRAW (3 + 256 * (n - 2)))))) = true) := by
  refine ⟨fun n hn => ?_, fun n hn => ?_, fun n hn => ?_⟩
  · fin_cases hn <;> exact ⟨And.intro (by decide) rfl, by decide⟩
  · fin_cases hn <;> decide +kernel
  · fin_cases hn <;> decide +kernel

/-- Every clause of `BranchesComplete` has a case, with the most negative offset and a taken and an untaken branch. -/
theorem wit_BranchesComplete :
    (∀ n ∈ [0x20, 0x21, 0x22, 0x23], ∀ p ∈ [(wInt 1, wInt 1), (wInt (-1), wInt 1), (wNil, wInt 1)],
      let t := tAt (encB n ⟨2, 3, 0x8000⟩) [(2, p.1), (3, p.2)] [];
      AtInsn t t tC (encB n ⟨2, 3, 0x8000⟩) ∧ reg t tC 2 = p.1 ∧ reg t tC 3 = p.2) ∧
    (∀ n ∈ [0x24, 0x25, 0x26, 0x27], ∀ x ∈ [wBool true, wBool false, wNil],
      let t := tAt (encB n ⟨2, 0, 0x8000⟩) [(2, x)] [];
      AtInsn t t tC (encB n ⟨2, 0, 0x8000⟩) ∧ reg t tC 2 = x) := by
  refine ⟨fun n hn p hp => ?_, fun n hn x hx => ?_⟩
  · fin_cases hn <;> fin_cases hp <;> exact ⟨And.intro (by decide) rfl, rfl, rfl⟩
  · fin_cases hn <;> fin_cases hx <;> exact ⟨And.intro (by decide) rfl, rfl⟩

/-- Every clause of `JumpsComplete` has a case, the calls and returns with a shadow page. -/
theorem wit_JumpsComplete :
    (let t := tAt (encJ 0x28 0x2000000) [] []; AtInsn t t tC (encJ 0x28 0x2000000)) ∧
    (∀ n ∈ [0, 1], ∀ x ∈ [tw tRETADDR 0x3E0000000100, wInt 1], let t := tAt (encR 0x2A ⟨0, 2, 0, 0⟩ n) [(2, x)] []; AtInsn t t tC (encR 0x2A ⟨0, 2, 0, 0⟩ n) ∧ reg t tC 2 = x) ∧
    (∀ w ∈ [encJ 0x29 4, encR 0x2A ⟨0, 2, 0, 0⟩ 1], let t := tShadow w 0x2010 (tw tRETADDR 0x3E0000000100); AtInsn t t tC w ∧ ptrOk (getCore t tC).ssp.val = true ∧
      xlate t tC 0x2008 kPUSH = .ok t ⟨0x2008, 0x4008, .dram, 2, 0, false⟩ ∧
      ∃ u, wrAt t tC ⟨0x2008, 0x4008, .dram, 2, 0, false⟩ (tw tRETADDR 0x3E0000000004) 64 = .ok u ()) ∧
    (∀ l ∈ [tw tRETADDR 0x100, tw tRETADDR 0x104, wInt 1], let t := tShadow (encR 0x2A ⟨0, 0, 0, 0⟩ 2) 0x2000 l; AtInsn t t tC (encR 0x2A ⟨0, 0, 0, 0⟩ 2) ∧ reg t tC 28 = l ∧
      ldWord t tC 0x2000 kPOP 64 = .ok t (⟨0x2000, 0x4000, .dram, 2, 0, false⟩, tw tRETADDR 0x100)) := by
  refine ⟨And.intro (by decide) rfl, fun n hn x hx => ?_, fun w hw => ?_, fun l hl => ?_⟩
  · fin_cases hn <;> fin_cases hx <;> exact ⟨And.intro (by decide) rfl, rfl⟩
  · fin_cases hw <;> exact ⟨And.intro (by decide) rfl, by decide, ok_of (by decide +kernel), ok_val (by decide +kernel)⟩
  · fin_cases hl <;> exact ⟨And.intro (by decide) rfl, by decide, ok_of (by decide +kernel)⟩

/-- Every clause of `SystemInstructionsComplete` has a case. -/
theorem wit_SystemInstructionsComplete :
    (∀ n ∈ [0, 1, 2, 6], let t := tAt (encR 0x30 ⟨0, 0, 0, 0⟩ n) [] []; AtInsn t t tC (encR 0x30 ⟨0, 0, 0, 0⟩ n) ∧ (getCore t tC).level = 2) ∧
    (let t := updCore (tAt (encR 0x30 ⟨0, 0, 0, 0⟩ 2) [] []) tC (fun k => { k with mepc := tw tRETADDR 0x100 });
      AtInsn t t tC (encR 0x30 ⟨0, 0, 0, 0⟩ 2) ∧ (getCore t tC).mepc.tag = tRETADDR ∧ retOk (getCore t tC).mepc.val = true) ∧
    (let t := fset (tAt (encR 0x30 ⟨1, 2, 3, 4⟩ 3) [(1, wInt (-1)), (2, tw tRAW 0x20FF), (3, tw tRAW 0x67), (4, tw tRAW 0x8000)] []) bMEM 0x14 0 16 1;
      AtInsn t t tC (encR 0x30 ⟨1, 2, 3, 4⟩ 3) ∧ tlbwTrap t tC (wInt (-1)) (tw tRAW 0x20FF) (tw tRAW 0x67) (tw tRAW 0x8000) = none) ∧
    (∀ n ∈ [4, 5], let t := tAt (encR 0x30 ⟨0, 2, 0, 0⟩ n) [(2, tw tRAW 0x20FF)] []; AtInsn t t tC (encR 0x30 ⟨0, 2, 0, 0⟩ n) ∧ rawOrInt (reg t tC 2) = true ∧ (getCore t tC).level ≠ 0) ∧
    (∀ n ∈ [0, 1, 2, 3, 4, 5, 6], let t := tUser (encR 0x30 ⟨0, 0, 0, 0⟩ n); AtInsn t t tC (encR 0x30 ⟨0, 0, 0, 0⟩ n) ∧ (getCore t tC).level = 0) := by
  refine ⟨fun n hn => ?_, ⟨And.intro (by decide) rfl, by decide, by decide⟩, ⟨And.intro (by decide) rfl, by decide +kernel⟩, fun n hn => ?_, fun n hn => ?_⟩
  · fin_cases hn <;> exact ⟨And.intro (by decide) rfl, by decide⟩
  · fin_cases hn <;> exact ⟨And.intro (by decide) rfl, by decide, by decide⟩
  · fin_cases hn <;> exact ⟨And.intro (by decide) (ok_of (by decide +kernel)), by decide⟩

/-- The clauses of `ControlRegisterReads` have a case at M, S and U, and at the ends of the number ranges. -/
theorem wit_ControlRegisterReads :
    (∀ n ∈ [0, 4, 5, 7, 8, 0xC, 0x13, 0x17, 0x18, 0xFF, 0x100, 0x104, 0x105], let t := tAt (encI 0x31 ⟨1, 0, BitVec.ofNat 16 n⟩) [] []; AtInsn t t tC (encI 0x31 ⟨1, 0, BitVec.ofNat 16 n⟩) ∧ (getCore t tC).level = 2) ∧
    (let t := tUser (encI 0x31 ⟨1, 0, 0x100⟩); AtInsn t t tC (encI 0x31 ⟨1, 0, 0x100⟩) ∧ (getCore t tC).level = 0) ∧
    (let t := tSuper (encI 0x31 ⟨1, 0, 0x100⟩); AtInsn t t tC (encI 0x31 ⟨1, 0, 0x100⟩) ∧ (getCore t tC).level = 1) := by
  refine ⟨fun n hn => ?_, ⟨And.intro (by decide) (ok_of (by decide +kernel)), by decide⟩, And.intro (by decide) (ok_of (by decide +kernel)), by decide⟩
  fin_cases hn <;> exact ⟨And.intro (by decide) rfl, by decide⟩

/-- The clauses of `ControlRegisterWrites` have a case at M, S and U. -/
theorem wit_ControlRegisterWrites :
    (∀ n ∈ [0, 1, 2, 3, 4, 8, 9, 0xA, 0xB, 0xC, 0x13, 0x14, 0x15, 0x16, 0x17, 0x100, 0x101, 0x102, 0x103, 0x104], ∀ w ∈ [tw tRAW 0, wNil],
      let t := tAt (encI 0x32 ⟨1, 0, BitVec.ofNat 16 n⟩) [(1, w)] []; AtInsn t t tC (encI 0x32 ⟨1, 0, BitVec.ofNat 16 n⟩) ∧ (getCore t tC).level = 2 ∧ reg t tC 1 = w) ∧
    (let t := tUser (encI 0x32 ⟨1, 0, 0x100⟩); AtInsn t t tC (encI 0x32 ⟨1, 0, 0x100⟩) ∧ (getCore t tC).level = 0) ∧
    (let t := tSuper (encI 0x32 ⟨1, 0, 0x100⟩); AtInsn t t tC (encI 0x32 ⟨1, 0, 0x100⟩) ∧ (getCore t tC).level = 1) := by
  refine ⟨fun n hn w hw => ?_, ⟨And.intro (by decide) (ok_of (by decide +kernel)), by decide⟩, And.intro (by decide) (ok_of (by decide +kernel)), by decide⟩
  fin_cases hn <;> fin_cases hw <;> exact ⟨And.intro (by decide) rfl, by decide, rfl⟩

/-- `ExceptionEntry` has a case at each target: a tag trap of M, and one of U with a resident stack page of S. -/
theorem wit_ExceptionEntry :
    (let s := tStack 2; (getCore s tC).sr = false ∧ (getCore s tC).eg = false ∧ (getCore s tC).mask < 2 ∧ syncTarget (getCore s tC) cTAGTRAP = 2 ∧
      stackOk (getCore s tC) 2 = true ∧ (getCore s tC).regs.length = 32) ∧
    (let s := tStack 0; (getCore s tC).sr = false ∧ (getCore s tC).eg = false ∧ (getCore s tC).mask < 2 ∧ syncTarget (getCore s tC) cTAGTRAP = 1 ∧
      stackOk (getCore s tC) 1 = true ∧ (getCore s tC).regs.length = 32) := by
  refine ⟨⟨by decide, by decide, by decide, by decide, by decide, by decide⟩, by decide, by decide, by decide, by decide, by decide, by decide⟩

/-- The clauses of `SyscallAndFetchFaults` have a case. -/
theorem wit_SyscallAndFetchFaults :
    (let t := tUser (encI 0x33 ⟨0, 0, 0xFFFF⟩); AtInsn t t tC (encI 0x33 ⟨0, 0, 0xFFFF⟩) ∧ (getCore t tC).level = 0) ∧
    (let t := tSuper (encI 0x33 ⟨0, 0, 0xFFFF⟩); AtInsn t t tC (encI 0x33 ⟨0, 0, 0xFFFF⟩) ∧ (getCore t tC).level = 1) ∧
    (let t := tAt (encI 0x33 ⟨0, 0, 0xFFFF⟩) [] []; AtInsn t t tC (encI 0x33 ⟨0, 0, 0xFFFF⟩) ∧ (getCore t tC).level = 2) ∧
    (let t := tAt 0 [] []; AtInsn t t tC 0 ∧ definedOp 0 = false) ∧
    (let t := State.reset; coreAble t tC = true ∧ fetch t tC = .trap t ⟨cACCESS, aNOTCODE, 0x3E0000000000, kFETCH, false⟩) ∧
    (let t := tAt (encR 0x01 ⟨1, 2, 3, 4⟩ 0) [] []; AtInsn t t tC (encR 0x01 ⟨1, 2, 3, 4⟩ 0)) ∧ coreAble State.reset 0x61 = false :=
  ⟨⟨And.intro (by decide) (ok_of (by decide +kernel)), by decide⟩, ⟨And.intro (by decide) (ok_of (by decide +kernel)), by decide⟩,
    ⟨And.intro (by decide) rfl, by decide⟩, ⟨And.intro (by decide) rfl, by decide⟩, ⟨by decide, rfl⟩, And.intro (by decide) rfl, by decide⟩

/-- The clauses of `SteadyRestEntry` have a case: a tag trap in steady rest, at MASK 2, under the guard, and with a bad stack. -/
theorem wit_SteadyRestEntry :
    (getCore (updCore (tStack 2) tC (fun k => { k with status := 2 + 2 ^ 20 })) tC).sr = true ∧
    (let k := getCore (updCore (tStack 2) tC (fun k => { k with status := 2 + 2 * 2 ^ 4 })) tC; k.sr = false ∧ causeLevel cTAGTRAP = some 2 ∧ 2 ≤ k.mask) ∧
    (let k := getCore (updCore (tStack 2) tC (fun k => { k with status := 2 + 2 ^ 7 })) tC; k.sr = false ∧ k.mask < 2 ∧ k.eg = true) ∧
    (let k := getCore State.reset tC; k.sr = false ∧ k.mask < 2 ∧ k.eg = false ∧ stackOk k (syncTarget k cTAGTRAP) = false) := by
  decide

/-- The clauses of `InterruptTaken` have a case: the M timer at M with a good and a bad stack, and one masked. -/
theorem wit_InterruptTaken :
    (let s := tStack 2; let k := getCore s tC; coreAble s tC = true ∧ pending s tC cMTIMER = true ∧ takeable k cMTIMER = true ∧
      (∀ x ∈ [cDISPATCH, cIPI_S, cIPI_M], pending s tC x = false) ∧ stackOk k (causeTarget cMTIMER k.level) = true) ∧
    (let s := State.reset; let k := getCore s tC; coreAble s tC = true ∧ pending s tC cMTIMER = true ∧ takeable k cMTIMER = true ∧
      (∀ x ∈ [cDISPATCH, cIPI_S, cIPI_M], pending s tC x = false) ∧ stackOk k (causeTarget cMTIMER k.level) = false) ∧
    pending State.reset tC cIPI_M = false := by decide

/-- The clauses of `CoreEventsComplete` have a case. -/
theorem wit_CoreEventsComplete :
    (let s := tTick 262144; coreAble s tC = true ∧ s.tim.ticks - (getCore s tC).lastRet = 131072 * s.tim.cclkEff) ∧
    fget (bumpSat State.reset bUCD 0x40 0 32 1) bUCD 0x48 24 1 = 0 ∧
    fget (bumpSat (rawSet State.reset bUCD 0x48 (2 ^ 24)) bUCD 0x40 0 32 1) bUCD 0x48 24 1 = 1 ∧
    (let s := setService (updCore (tTick 1000000) 0 (fun k => { k with present := some ⟨3, 2, wNil, wNil, 0, 0, 0, false⟩ })) 0 true;
      coreAble s 0 = true ∧ (getCore s 0).bind = none ∧ (getCore s 1).present = none ∧ s.tim.ticks ≥ ticksOfUs (fget s bCLU 0x110 0 8) ∧ s.tim.ticks ≥ ticksOfUs (fget s bCLU 0x110 16 8)) ∧
    (let s := rawSet { tTick (ticksOfMs 1) with tim.tai := 80000 * 1000000, awp.inputs := [tInput], awp.runq := [(0, [0])] } bCLU 0x100 1;
      pairSet s 0 0 = true ∧ (lkD s.awp.runq 0 []).contains tInput.seq = true ∧ tInput.tai + 1000000 ≤ s.now ∧ tenantPairs s 0 = [] ∧ s.inMode .hold = false) ∧
    (let s := updCore (tTick (ticksOfUs 64)) 0 (fun k => { k with runs := false, stops := [0] });
      (getCore s 0).runs = false ∧ (getCore s 0).tested = false ∧ s.tim.ticks - 0 ≥ ticksOfUs 64) ∧
    (let s := updCore (tTick (ticksOfUs 64)) 0 (fun k => { k with runs := false, stops := [0, 0, 0] });
      3 ≤ ((getCore s 0).stops.filter (fun x => decide (s.tim.ticks - x ≤ ticksOfS 86400))).length) ∧
    (pairInService (setPairService State.reset 47 false) 47 = false ∧ (getPairInfo State.reset 47).failed = false) := by
  decide +kernel

/-- A core of the management cluster at a crypto operation, with a string of 32 bytes at `tHeap` and a vector of n words beside them. -/
def tCrypto (op n : Nat) (v : List TWord) : State :=
  let s := tAt (encC ⟨5, 2, 0⟩ 0 op) ([(2, tw tVECTOR (tHeap + 0x800))]) (tStr 32 [0, 0, 0, 0] ++ ((tHeap + 0x800, header 0x11 n 1) :: (v.zipIdx).map (fun p => (tHeap + 0x800 + 8 * (p.2 + 1), p.1))))
  { s with cpu.keys := [(0, 7)] }
/-- The operands that `CryptoComplete` speaks of can be read: a message, a vector with a key handle, strings of the stated length. -/
theorem wit_CryptoComplete :
    AtInsn (tCrypto 1 0 []) (tCrypto 1 0 []) tC (encC ⟨5, 2, 0⟩ 0 1) ∧
    okVal (strOf (tCrypto 1 0 []) tC (tw tSTRING tHeap) 32) (List.replicate 32 0) = true ∧ okVal (outStr (tCrypto 1 0 []) tC (tw tSTRING tHeap) 32) (tHeap, 32) = true ∧
    okIsSome (writeOut (tCrypto 1 0 []) tC tHeap (List.replicate 32 0)) (fun _ _ => true) = true ∧
    okVal (vecElems (tCrypto 3 2 [wInt 0, tw tSTRING tHeap]) tC (tw tVECTOR (tHeap + 0x800)) 2) [wInt 0, tw tSTRING tHeap] = true ∧
    okVal (keyOf (tCrypto 3 0 []) tC (wInt 0)) 7 = true ∧ destBad (tCrypto 3 0 []) tC 5 wNil = false ∧ coreAble (tCrypto 3 0 []) tC = true :=
  And.intro (And.intro (by decide) rfl) (by decide +kernel)

/-- A core of the management cluster that TAKE has bound to number 0 of tenant 0, at a level and an operation. -/
def tBound (lvl unit op : Nat) (ra rd : BitVec 5) (log : List Effect) : State :=
  let s := if lvl = 1 then tSuper (encC ⟨rd, ra, 0⟩ unit op) else tAt (encC ⟨rd, ra, 0⟩ unit op) [] []
  let s1 := updCore s tC (fun k => { k with regs := upd k.regs 3 (fun _ => wInt 5), bind := if lvl = 1 then some ⟨0, 0, false, 0, false, false⟩ else none })
  { s1 with awp.inputs := [{ tInput with log := log, bound := true }] }
/-- The rows of `EffectfulComplete` have cases: at M, bound with no log entry, bound with an agreeing one. -/
theorem wit_EffectfulComplete :
    AtInsn (tBound 2 1 0x10 0 5 []) (tBound 2 1 0x10 0 5 []) tC (encC ⟨5, 0, 0⟩ 1 0x10) ∧ AtInsn (tBound 2 2 1 0 5 []) (tBound 2 2 1 0 5 []) tC (encC ⟨5, 0, 0⟩ 2 1) ∧
    AtInsn (tBound 1 1 1 0 5 []) (tBound 1 1 1 0 5 []) tC (encC ⟨5, 0, 0⟩ 1 1) ∧ AtInsn (tBound 1 1 2 3 5 []) (tBound 1 1 2 3 5 []) tC (encC ⟨5, 3, 0⟩ 1 2) ∧
    AtInsn (tBound 1 3 3 3 5 []) (tBound 1 3 3 3 5 []) tC (encC ⟨5, 3, 0⟩ 3 3) ∧
    ((getCore (tBound 2 2 1 0 5 []) tC).level = 2 ∧ destsOk (tBound 2 2 1 0 5 []) tC ⟨5, 0, 0⟩ 2 = true ∧ (getCore (tBound 2 2 1 0 5 []) tC).granted = none) ∧
    (let s := tBound 1 1 2 3 5 []; ∃ b i, (getCore s tC).level = 1 ∧ (getCore s tC).bind = some b ∧ b.pos < 1023 ∧ boundInput s b = some i ∧ i.log[b.pos]? = none ∧
      reg s tC 3 = wInt 5 ∧ fget s bHLT 0x2C (tC / 8) 1 ≠ 1) ∧
    (∃ b i, boundInput (tBound 1 1 1 0 5 [⟨1, 1, opDigest [], [wInt 9]⟩]) b = some i ∧ i.log[b.pos]? = some ⟨1, 1, opDigest [], [wInt 9]⟩) ∧
    (getCore (tBound 1 1 1 0 5 []) (partner tC)).present = none ∧ partner tC ≠ tC :=
  ⟨⟨by decide, rfl⟩, ⟨by decide, rfl⟩, ⟨by decide, rfl⟩, ⟨by decide, rfl⟩, ⟨by decide, rfl⟩, by decide +kernel,
    ⟨⟨0, 0, false, 0, false, false⟩, { tInput with bound := true }, by decide +kernel⟩, ⟨⟨0, 0, false, 0, false, false⟩, { tInput with log := [⟨1, 1, opDigest [], [wInt 9]⟩], bound := true }, rfl, rfl⟩, by decide +kernel⟩

/-- A core of S at a coprocessor operation of unit 3; pages of ASID 0 hold a STRING of 1480 bytes and a grain descriptor with empty text. -/
def tEval (op : Nat) (ra rb : BitVec 5) : State :=
  let s := tSuper (encC ⟨5, ra, rb⟩ 3 op)
  let m := [(0x6000, header 0x12 186 1), (0x6008, wInt 1480), (0x8000, header 0x14 5 1), (0x8008, wInt 0), (0x8010, wInt 0), (0x8018, wInt 0), (0x8020, tw tSTRING 0x6800),
    (0x8028, tw tSTRING 0x6800), (0x8800, header 0x12 1 1), (0x8808, wInt 0)]
  let s1 : State := { s with cpu.mem := m.foldl (fun a p => ins a (p.1 / 8) p.2) s.cpu.mem }
  updCore s1 tC (fun k => { k with regs := upd (upd k.regs 3 (fun _ => tw tRECORD 0x6000)) 4 (fun _ => tw tSTRING 0x4000), tlb := k.tlb ++ [(1, ⟨0, 0x4000, 0, BitVec.ofNat 64 (0x6000 + 0x67), 0x8000⟩), (2, ⟨0, 0x6000, 0, BitVec.ofNat 64 (0x8000 + 0x67), 0x8000⟩)] })
/-- TAKE and APPEND have their cases: no input, one input, a bound core whose grain is the next. -/
theorem wit_TakeAndAppendComplete :
    AtInsn (tEval 1 0 4) (tEval 1 0 4) tC (encC ⟨5, 0, 4⟩ 3 1) ∧ AtInsn (tEval 2 3 4) (tEval 2 3 4) tC (encC ⟨5, 3, 4⟩ 3 2) ∧
    okIsSome (outStr (tEval 1 0 4) tC (tw tSTRING 0x4000) 1480) (fun s v => v.1 == 0x4000 && takeList s tC 0 == [] && destsOk s tC ⟨5, 0, 4⟩ 1) = true ∧
    (let s : State := { tEval 1 0 4 with awp.inputs := [tInput], awp.runq := [(0, [0])] }; (takeList s tC 0).head? = some tInput ∧ takeOpen s tC 0 (some tInput) = true ∧
      takePaired s tC 0 (some tInput) = false) ∧
    okIsSome (descrOf (tEval 2 3 4) tC (tw tRECORD 0x6000)) (fun _ d => d.text.length == 0 && d.data.length == 0) = true ∧
    okIsSome (outWords (tEval 2 3 4) tC 0x4000 32) (fun s ws => ws.length == 4 && (strm s 0).chained == 0) = true ∧
    pfbRoom (tEval 2 3 4) (grainOf tInput ⟨wInt 0, wInt 0, [], []⟩) tInput = true := by
  refine ⟨⟨by decide, rfl⟩, ⟨by decide, rfl⟩, by decide +kernel, by decide +kernel, by decide +kernel, by decide +kernel, ?_⟩
  simp only [pfbRoom, storedLen, grainOf, List.append_nil, List.length_nil, Nat.min_zero]
  decide +kernel

/-- The clauses of `ClusterEventsComplete` have cases: the last cluster, at the last tick of the reseed interval and before it. -/
theorem wit_ClusterEventsComplete :
    (let s := tTick (ticksOfS (fget State.reset (bCLU + 11) 0x114 0 6)); s.tim.ticks - lkD s.cpu.reseedAt 11 0 ≥ ticksOfS (fget s (bCLU + 11) 0x114 0 6) ∧
      coreAble (tTick 0) tC = true ∧ tC / 8 = 12) ∧
    (State.reset.tim.ticks - lkD State.reset.cpu.reseedAt 11 0 < ticksOfS (fget State.reset (bCLU + 11) 0x114 0 6)) ∧
    (coreAble (setService State.reset 0x5F true) 0x5F = true ∧ 0x5F / 8 = 11) ∧
    (fget (fset State.reset (bCLU + 11) 0x200 0 1 0) (bCLU + 11) 0x200 0 1 = 0 ∧
      fget (fset (fset State.reset bHLT 0x2C 11 1 1) (bCLU + 11) 0x200 0 1 1) bHLT 0x2C 11 1 = 1) := by decide +kernel

/-- A port of quad 0 in a link state, its first lane frozen twice below its floor where it is UP. -/
def tPort (st : Nat) : State :=
  let s : State := { State.reset with lane.ports := [(0, ⟨st, 1, 0, some 0, 1, 3⟩)], lane.lanes := [(0, { laneReset with frozen := true, lows := [4, 4] })] }
  fset s bLQ 0x20 0 4 1
/-- The clauses of `LaneEventsComplete` have cases: a port in each of its states, on both sides of each time limit. -/
theorem wit_LaneEventsComplete :
    (getPort (tPort 1) 0 0).state = 1 ∧ (advertised (tPort 1) 0 0).find? (fun t => [1].contains t && (false || !(t == 9 || t == 10))) = some 1 ∧
    (advertised (tPort 1) 0 0).find? (fun t => [2].contains t && (false || !(t == 9 || t == 10))) = none ∧
    (getPort (tPort 2) 0 0).state = 2 ∧ quadMirror (tPort 2) 0 = false ∧ quadMirror (fset (tPort 2) bLQ 0x10 0 1 1) 0 = true ∧ (getPort (tPort 3) 0 0).state = 3 ∧
    (getPort (tPort 4) 0 0).state = 4 ∧ 8000000 - (getPort (tPort 4) 0 0).faultAt ≥ 8000000 ∧ 7999999 - (getPort (tPort 4) 0 0).faultAt < 8000000 ∧
    laneUp (tPort 3) 0 = true ∧ (getLane (tPort 3) 0).frozen = true ∧ (getLane (tPort 3) 0).lows.length = 2 ∧ sat 8 ([5, 4, 6].foldl min ([5, 4, 6].headD 0)) = 4 ∧
    fget (fset (tPort 3) bLQ (laneOff 0 4) 0 8 5) bLQ (laneOff 0 4) 0 8 = 5 ∧ fget (fset (tPort 3) bLQ (laneOff 0 4) 8 1 1) bLQ (laneOff 0 4) 8 1 = 1 ∧
    laneUp (tPort 2) 0 = false ∧ bit (rawGet (rawSet (fset (tPort 2) bLQ 0x10 0 1 1) bMIR 0x10 1) bMIR 0x10) (0 / 4) = true := by decide +kernel

/-- A device of a role in LIVE whose mirror link over quad 0 is in a state, tenant 0 mirrored. -/
def tMirror (role : Role) (link : Nat) : State :=
  let s := tMode role 2
  let s1 : State := { s with mir.link := link, mir.rxNext := 1, mir.txNext := 1, mir.tens := [(0, { mirReset with st := 2 })], lane.ports := [(0, ⟨3, 1, 0, none, 0, 3⟩)] }
  rawSet (rawSet s1 bMIR 0x40 1) bMIR 0x10 1
/-- The clauses of `MirrorFramesComplete` have cases on a PRIMARY and on a SHADOW: a link that is ready, that runs, that is off; the first LSEQ, one below and one above it. -/
theorem wit_MirrorFramesComplete :
    (linkReady (tMirror .primary 0) = true ∧ linkAllowed (tMirror .primary 0) = true ∧ helloReason (linkFollow (tMirror .primary 0)) 1 0 true = 1 ∧ helloReason (linkFollow (tMirror .primary 0)) 2 0 true = 0 ∧
      helloReason (linkFollow (tMirror .shadow 0)) 1 0 true = 0) ∧
    ((tMirror .primary 2).mir.link = 2 ∧ (tMirror .primary 2).mir.rxNext = 1 ∧ (tMirror .primary 2).role = .primary ∧ tenantBit (tMirror .primary 2) bMIR 0x40 0 = true ∧
      (tMirror .primary 2).mir.txNext = 1 ∧ ¬ (1 > (tMirror .primary 2).mir.txAcked ∧ 1 < (tMirror .primary 2).mir.txNext) ∧
      (let s : State := { tMirror .primary 2 with mir.txNext := 2 }; 1 > s.mir.txAcked ∧ 1 < s.mir.txNext)) ∧
    (let s := tMirror .shadow 2; s.role = .shadow ∧ linkAllowed s = true ∧ shadowTakes s 0 = true ∧ (getMir s 0).st = 2 ∧ (strm s 0).next = 0 ∧ (strm s 0).chained = 0 ∧
      (readInput (List.replicate 0x58 0)).seq = 0 ∧ (readInput (List.replicate 0x58 0)).tenant = 0 ∧ bodyNum (List.replicate 64 0) 8 8 = 0 ∧ (readHdr (List.replicate 64 0)).stream = 0 ∧
      (0 < (strm (setStrm s 0 { strm s 0 with chained := 1 }) 0).chained)) ∧
    (linkReady State.reset = false ∧ State.reset.mir.link ≠ 2) := by decide +kernel

/-- A running link of tenant 0 with one unacknowledged frame at a tick. -/
def tMirrorAt (role : Role) (n : Nat) : State := { tMirror role 2 with mir.buf := [⟨1, 2, 0, []⟩], tim.ticks := n }
/-- The clauses of `MirrorTimersComplete` have cases, each time limit at its last tick and the one before. -/
theorem wit_MirrorTimersComplete :
    ((tMirrorAt .primary 80000).mir.link = 2 ∧ (tMirrorAt .primary 80000).mir.buf ≠ [] ∧ (tMirrorAt .primary 80000).tim.ticks - (tMirrorAt .primary 80000).mir.ackTick ≥ 80000 ∧
      (tMirrorAt .primary 80000).tim.ticks - (tMirrorAt .primary 80000).mir.retxTick ≥ 80000 ∧ (tMirrorAt .primary 79999).tim.ticks - (tMirrorAt .primary 79999).mir.ackTick < 80000 ∧
      (tMirrorAt .primary 80000000).tim.ticks - (tMirrorAt .primary 80000000).mir.ackTick ≥ 800000 * fget (tMirrorAt .primary 80000000) bMIR 0x54 0 7 ∧
      0 < 800000 * fget (tMirrorAt .primary 0) bMIR 0x54 0 7) ∧
    ((tMirrorAt .shadow 16000).role = .shadow ∧ (tMirrorAt .shadow 16000).inMode .live = true ∧ (tMirrorAt .shadow 16000).tim.ticks - (tMirrorAt .shadow 16000).mir.digSent ≥ 16000 ∧
      (tMirrorAt .shadow 16000).tim.ticks - (tMirrorAt .shadow 16000).mir.ackSent ≥ 8000) ∧
    (let s : State := { setStrm (tMirrorAt .shadow 0) 0 { strm (tMirrorAt .shadow 0) 0 with dur := 1 } with mir.limit := 10 }; min 64 ((strm s 0).dur - (getMir s 0).digNext) = 1 ∧
      (getMir s 0).st = 2 ∧ mirMay s mDIGEST 48 = true) ∧
    (let s := setStrm (tMirrorAt .primary 0) 0 { strm (tMirrorAt .primary 0) 0 with dur := 100000 }; s.role = .primary ∧ (getMir s 0).st ≠ 3 ∧ lagBeyond s 0 = true ∧ (getMir s 0).lagged = false) := by decide +kernel

/-- A row of stream 0 in the buffer of a device with 16 dies for each channel. -/
def tRow (closed : Bool) : State :=
  let s : State := { tMode .none 2 with jrn.rows := [{ stream := 0, idx := 0, seg := 0, used := 64, opened := 0, order := 0, waitSince := some 0, closed := closed }] }
  fset s bFLC 0x10 0 5 16
/-- Such a device with a closed segment of stream 0 whose row is programmed, sealed or not, and its Sapwood superblock. -/
def tSeg (sealed : Option Nat) : State :=
  let s : State := { tRow true with fla.supers := [⟨0, false, [], [], 384, false, [0]⟩] }
  let g : Segment := ⟨0, 0, 0, 1, 1, 64, 1, false, none, true, 0, 0, 0, 0, sealed, 0, false, false⟩
  setStrm s 0 { strm s 0 with segs := [g], progRow := 1 }
/-- The clauses of `RowsAndSealsComplete` have cases. -/
theorem wit_RowsAndSealsComplete :
    (∃ r, openRow (tRow false).jrn.rows 0 = some r ∧ r.opened = 0 ∧ r.waitSince = some 0) ∧ openRow (tRow true).jrn.rows 0 = none ∧
    (ticksOfUs (fget (tRow false) bJRN 0x30 0 16) = 0 ∨ 0 < ticksOfUs (fget (tRow false) bJRN 0x30 0 16)) ∧
    (∃ r, oldestRow (tRow true) 0 = some r ∧ r.closed = true) ∧ (programRow (tRow true) 0 false 0 [] []).isSome = true ∧ (∃ r, oldestRow (tRow false) 0 = some r ∧ r.closed = false) ∧
    ((nextSeal (tSeg none) 0).isSome = true ∧ inQuiet (tSeg none) = false ∧ (tSeg none).inMode .hold = false ∧ (tSeg none).inMode .sealed = false ∧ heartRoom (tSeg none) 0 = true ∧
      (copyRows 4 (tSeg none) 0 0 [] []).isSome = true) ∧
    (∃ x, (tSeg (some 0)).fla.supers[0]? = some x ∧ x.tlc = false ∧ x.isOpen = false ∧ ∀ no ∈ x.segs, ∀ g ∈ (strm (tSeg (some 0)) 0).segs, g.no = no → sapDone { tSeg (some 0) with tim.tai := 2 ^ 80 } g = true ∨ g.retired = true) ∧
    (∃ c, (let s : State := { tRow true with con.cmds := [tWait (.erase 0 0 none none 0)] }; s.con.cmds.find? (flashReady s)) = some c ∧ c.phase = .erase 0 0 none none 0) :=
  ⟨⟨_, rfl, rfl, rfl⟩, by decide +kernel, by decide +kernel, ⟨_, rfl, rfl⟩, by decide +kernel, ⟨_, rfl, rfl⟩, by decide +kernel, ⟨_, rfl, rfl, rfl, by decide +kernel⟩, ⟨_, rfl, rfl⟩⟩

/-- A device with 16 dies for each channel, block 20 of die 0 in use with a read level, and queued. -/
def tBlk (level : Nat) (q : Option (Nat × Nat)) (reads : Nat) : State :=
  let s := fset (tMode .none 2) bFLC 0x10 0 5 16
  updBlk s 20 (fun b => { b with st := 1, level := level, queued := q, reads := reads })
/-- The clauses of `FlashCareComplete` have cases: blocks at each level and at the last read below the limit, movable and not; each time limit on both sides. -/
theorem wit_FlashCareComplete :
    (let s := updDie (tBlk 0 none 0) 0 (fun x => { x with st := 1 }); (getDie s 0).st = 1 ∧ s.inMode .hold = false ∧ (rebuildBlks (((listed s 0).filter (fun p => p.2.st == 1 || p.2.st == 2 || p.2.st == 3)).map (·.1)) s).isSome = true) ∧
    ((getDie (tBlk 0 none 0) 0).st ≠ 1 ∧ inQuiet (tBlk 0 none 0) = false ∧ (getDie (tBlk 0 none 0) (20 / 8192)).st = 0 ∧ (getBlk (tBlk 0 none 0) 20).good = true ∧ (getBlk (tBlk 0 none 0) 20).st = 1) ∧
    (predicted (tBlk 17 none 0) 20 ≤ 5500000000 ∧ (getBlk (tBlk 17 none 0) 20).level = 17 ∧ (getBlk (tBlk 0 none 200000) 20).reads ≥ rdLimit (getBlk (tBlk 0 none 200000) 20).tlc ∧
      (getBlk (tBlk 16 none 0) 20).level = 16 ∧ (getBlk (tBlk 0 none 199999) 20).reads < rdLimit (getBlk (tBlk 0 none 199999) 20).tlc) ∧
    ((getBlk (tBlk 0 (some (0, 0)) 0) 20).queued = some (0, 0) ∧ mayMove (tBlk 0 (some (0, 0)) 0) 20 0 0 = true ∧ (pickOn (tBlk 0 (some (0, 0)) 0) (20 / 8192)).isSome = true) ∧
    ((tTick 2880000000000).tim.ticks - (tTick 2880000000000).fla.evalTick ≥ 2880000000000 ∧ (tTick 2879999999999).tim.ticks - (tTick 2879999999999).fla.evalTick < 2880000000000 ∧
      (tTick 480000000000).tim.ticks - (tTick 480000000000).fla.ckptTick ≥ 480000000000 ∧ (tTick 80000000).tim.ticks - (tTick 80000000).fla.zqTick ≥ 80000000) ∧
    ((getDie State.reset 0).trainTemp = 0 ∨ (getDie State.reset 0).trainTemp ≠ 0) := by decide +kernel

/-- The clauses of `ResetsComplete` have cases: a device that runs, and one that is held, with its sequence done and not. -/
theorem wit_ResetsComplete : State.reset.pwr.held = false ∧ (heldReset State.reset true).pwr.held = true ∧ (heldReset State.reset true).pwr.huDone = true ∧ (heldReset State.reset false).pwr.huDone = false := by decide

/-- The clauses of `PowerSamplesComplete` have cases on a device that runs and on one that is held, the cell voltages at their limits. -/
theorem wit_PowerSamplesComplete :
    (let s := rawSet (rawSet { State.reset with pwr.calV0 := 16000 } bPWR 0x14 1) bJRN 0x20 2000; s.pwr.held = false ∧ fget s bPWR 0x14 0 1 ≠ 0 ∧ 100 * 15679 < 98 * s.pwr.calV0 ∧ 100 * 15680 ≥ 98 * s.pwr.calV0 ∧
      windowOf (energyAt (fset s bPWR 0x24 16 16 15679) 15679) (rawGet (fset s bPWR 0x24 16 16 15679) bPWR 0x34) (rawGet (fset s bPWR 0x24 16 16 15679) bPWR 0x38) < rawGet (fset s bPWR 0x24 16 16 15679) bJRN 0x20) ∧
    State.reset.pwr.vbatLow = false ∧ (heldReset State.reset true).pwr.held = true ∧ lkD (heldReset State.reset true).sec.vault.offState 9 0 ≠ 1 ∧
    lkD ({ heldReset State.reset true with sec.vault.offState := [(9, 1)] } : State).sec.vault.offState 9 0 = 1 ∧ lkD (heldReset State.reset true).sec.vault.offState 8 0 = 0 := by decide +kernel

/-- The clauses of `TamperAndThermalComplete` have cases: each reaction, both temperature limits, the last tick of the millisecond, sound and lost votes. -/
theorem wit_TamperAndThermalComplete :
    State.reset.pwr.held = false ∧ (heldReset State.reset true).pwr.held = true ∧
    (∀ n ∈ [0, 1, 2, 3], reaction (fset State.reset bSEC 0x84 4 2 n) (raiseNow srcDIE 3 0 0) = n) ∧ tempOut [501] = true ∧ tempOut [500] = false ∧ tempOut [-41] = true ∧ State.reset.hlt.tempTamper = false ∧
    (let s : State := { tTick 800000 with hlt.holdHot := some 0 }; s.hlt.holdHot = some 0 ∧ 0 + 800000 ≤ s.tim.ticks) ∧
    (let m := scrubField State.reset bSYS 0x20 0 0 3 []; m.2 = false ∧ DMode.ofCode ((scrubAll m.1 []).1.sys.mode.maj % 8) ≠ none ∧ (scrubAll m.1 []).2 = false) ∧
    (scrubField State.reset bSYS 0x20 0 0 3 [⟨bSYS, 0x20, 0, 2, 4, 0⟩]).2 = true ∧
    (let m := scrubField State.reset bSYS 0x20 0 0 3 [⟨bCLK, 0x20, 0, 1, 2, 0⟩]; m.2 = false ∧ DMode.ofCode ((scrubAll m.1 [⟨bCLK, 0x20, 0, 1, 2, 0⟩]).1.sys.mode.maj % 8) ≠ none ∧ (scrubAll m.1 [⟨bCLK, 0x20, 0, 1, 2, 0⟩]).2 = true) := by decide +kernel

/-- A running mesh under a profile with tag 1 joined, at a tick and event number. -/
def tMesh (n evc : Nat) : State :=
  let s := tTick n
  let s1 : State := { s with wit.run := true, wit.evc := evc, wit.txq := [(wfJOINRSP, 1)], wit.tags := [(1, { getTag s 1 with st := 2, last := 5, due := some 7, eui := 9 })] }
  rawSet (rawSet s1 bWIT 0x10 1) bWIT 0x14 (100 * 2 ^ 24)
/-- The clauses of `WitnessComplete` have cases: the tick of the next event, each counter, the end of the minute and of the supervision time. -/
theorem wit_WitnessComplete :
    ((tMesh 200000000 7).wit.run = true ∧ (tMesh 200000000 7).tim.ticks ≥ (tMesh 200000000 7).wit.evTick + evTicks (tMesh 200000000 7).wit.air ∧ ((tMesh 200000000 7).wit.evc + 1) % 2 ^ 32 % 8 = 0 ∧
      (∀ p ∈ (tMesh 200000000 7).wit.txq, p.1 ≠ wfBEACON)) ∧
    (fget (tMesh 0 0) bWIT 0x10 0 8 ≠ 0 ∧ airUsed (tMesh 0 0) + (12 + psdu (tMesh 0 0) wfJOINRSP) * 16 ≤ 360000 * fget (tMesh 0 0) bWIT 0x14 24 8 ∧
      airUsed (rawSet (tMesh 0 0) bWIT 0x14 0) + (12 + psdu (tMesh 0 0) wfJOINRSP) * 16 > 360000 * fget (rawSet (tMesh 0 0) bWIT 0x14 0) bWIT 0x14 24 8) ∧
    ((getTag (tMesh 0 0) 1).st = 2 ∧ (getTag (tMesh 0 0) 1).last = 5 ∧ floodCopy (tMesh 0 0) 1 5 = false ∧
      floodCopy { tMesh 0 0 with wit.seen := [(1, 5, 0, 0)] } 1 5 = true ∧ (getTag (tMesh 0 0) 2).st = 0 ∧ ((tMesh 0 0).wit.tags.find? (fun p => p.2.st != 0 && p.2.eui == 9)).isSome = true) ∧
    ((getTag (tMesh 7 0) 1).due = some 7 ∧ (tMesh 7 0).tim.ticks ≥ 7 ∧ (tMesh 48000000000 0).tim.ticks ≥ (tMesh 48000000000 0).wit.authTick + 48000000000 ∧ State.reset.wit.run = false) := by decide +kernel

/-- Loop 0 enabled with nominal 1000 Ω and a band of 10 %, two pulses of a class before. -/
def tLoop (cand : Nat) : State := { fset (rawSet State.reset bWIT 0x100 (100 + 65536 * 10)) bSEC 0x60 8 1 1 with wit.loops := [(0, ⟨cand, 2, 0, []⟩)] }
/-- The clauses of `LoopsComplete` have cases: the third OPEN pulse, a normal pulse, a loop that is off, a calibration. -/
theorem wit_LoopsComplete :
    (loopOn (tLoop 1) 0 = true ∧ (let m := loopMeas (tLoop 3) (some 1200); let s1 := fset m.2 bWIT 0x104 0 16 m.1; loopOn s1 0 = true ∧
      loopClass (10 * fget s1 bWIT 0x100 0 16) (fget s1 bWIT 0x100 16 8) (some 1200) = 3 ∧ (getLoop s1 0).cand = 3 ∧ (getLoop s1 0).run = 2 ∧ calWaits s1 0 = false)) ∧
    (loopOn State.reset 0 = false ∧ State.reset.pwr.held = false ∧ calWaits State.reset 0 = false) := by decide +kernel

/-- A device after S5 at a TAI second. -/
def tSec (n : Nat) : State := { tMode .none 2 with sec.s5done := true, tim.tai := n * 80000000000000 }
/-- The clauses of `RecordsComplete` have cases: no run and one in REPLAY at its end, the first second, minute and hour. -/
theorem wit_RecordsComplete :
    State.reset.rpl.run = none ∧ State.reset.pwr.held = false ∧ (heldReset State.reset true).pwr.held = true ∧
    (nowSec (tSec 1) = 1 ∧ formed (tSec 1) 0 0 = false ∧ nowSec (tSec 60) = 60 ∧ formed (tSec 60) 1 0 = false ∧ nowSec (tSec 0) = 0) ∧
    (let s : State := { tSec 3600 with hlt.tiers := [(tmKey 1 34 3540, ⟨0, 0, 0, 0, 3540, true⟩)] }; nowSec s ≥ 3600 ∧ formed s 1 ((nowSec s / tierPeriod 1 - 1) * tierPeriod 1) = true ∧
      formed s 2 ((nowSec s / tierPeriod 2 - 1) * tierPeriod 2) = false) := by decide +kernel

/-- A device in a mode with a challenge and a lock on CON1, at a tick. -/
def tChal (m n : Nat) : State :=
  let s := updCon (tMode .none m) 1 (fun k => { k with chal := some ⟨.operate, 1, [], 0⟩, lockUntil := some 10 })
  { s with tim.ticks := n, jrn.dWritable := true, con.auditHolder := true }
/-- The clauses of `ConsoleEventsComplete` have cases: each time limit at its last tick, CON1 in AUDIT and elsewhere, a COMMAND grain that waits. -/
theorem wit_ConsoleEventsComplete :
    (tChal 2 0).pwr.held = false ∧ readsLine (tChal 2 0) 1 = true ∧ readsLine (tChal 2 0) 2 = false ∧ ((getCon (tChal 2 48000000000) 1).chal.isSome = true ∧ (getCon (tChal 2 0) 0).chal = none) ∧
    (tChal 2 720000000000).tim.ticks - (getCon (tChal 2 720000000000) 1).lastLine ≥ 720000000000 ∧
    ((updCon (tChal 4 0) 1 (fun k => { k with auth := .observe, authSlot := none })).inMode .audit = true ∧ (tChal 4 0).con.auditHolder = true ∧ (tChal 2 0).inMode .audit = false) ∧
    ((getCon (tChal 2 10) 1).lockUntil = some 10 ∧ 10 ≤ (tChal 2 10).tim.ticks) ∧
    (let s : State := { tDurable (tChal 2 0) (tGrain sD 10 0 1) with con.cmds := [tWait .formed] }; (s.con.cmds.find? (fun c => c.cjn == 1 && c.grained)).isSome = true ∧ cmdDurable s 1 = true) := by decide +kernel

/-- The clauses of `ModeCommandsComplete` have cases: each transition allowed, and one refused. -/
theorem wit_ModeCommandsComplete :
    (Admits (tLine 0) (specOn .operate [0, 1] [.sealed, .quiet] true true) (tAuth .primary 3 .operate) ∧ transitOk (begun (tLine 0) false { tAuth .primary 3 .operate with tim.qual := .locked }) .live true = true ∧
      transitOk (begun (tLine 0) false (tAuth .lab 3 .operate)) .live true = false) ∧
    (Admits (tLine 0) (quietSpec (tAuth .primary 2 .operate)) (tAuth .primary 2 .operate) ∧ transitOk (begun (tLine 0) false (tAuth .primary 2 .operate)) .quiet true = true ∧
      (transit (begun (tLine 0) false { tAuth .primary 2 .operate with awp.inputs := [tInput] }) .quiet mcCommand 1).sys.drain = true) ∧
    (Admits (tLine 1) (specOn .regulate [1] [.quiet] false true) (tAuth .primary 3 .regulate) ∧ transitOk (begun (tLine 1) false (tAuth .primary 3 .regulate)) .audit true = true ∧
      transitOk (begun (tLine 1) false { tAuth .primary 3 .regulate with sys.drain := true }) .audit true = false) ∧
    (Admits (tLine 0) (specOn .engineer [0, 1] [.quiet] false true) (tAuth .lab 3 .engineer) ∧ transitOk (begun (tLine 0) false (tAuth .lab 3 .engineer)) .replay true = true ∧
      importVerifying (begun (tLine 0) false (tAuth .lab 3 .engineer)) = false ∧ transitOk (begun (tLine 0) false (tAuth .primary 3 .engineer)) .replay true = false) ∧
    (Admits (tLine 0) (specOn .engineer [0, 1] [.sealed, .live, .quiet, .audit, .replay] false true) (tAuth .primary 2 .engineer) ∧ Admits (tLine 0) (specOn .engineer [0, 1] allModes false true) (tAuth .primary 6 .engineer)) ∧
    (let s : State := { tAuth .primary 3 .operate with sys.drain := true, con.cmds := [tWait (.drain 0 1)] }; s.sys.drain = true ∧ anyInFlight s = false ∧
      (s.con.cmds.find? (fun c => match c.phase with | .drain _ _ => true | _ => false)).isSome = true) := by
  refine ⟨⟨⟨?_, ?_, ?_, Or.inl rfl, ?_⟩, ?_, ?_⟩, ⟨⟨?_, ?_, ?_, Or.inl rfl, ?_⟩, ?_, ?_⟩, ⟨⟨?_, ?_, ?_, Or.inl rfl, ?_⟩, ?_, ?_⟩, ⟨⟨?_, ?_, ?_, Or.inl rfl, ?_⟩, ?_, ?_, ?_⟩, ⟨⟨?_, ?_, ?_, Or.inl rfl, ?_⟩, ⟨?_, ?_, ?_, Or.inl rfl, ?_⟩⟩, ?_⟩ <;> decide +kernel

/-- The clauses of `AuthorityCommandsComplete` have cases: an open and a locked console, a challenge in its time and past it, the second and the third failure. -/
theorem wit_AuthorityCommandsComplete :
    (Admits (tLine 0) (authSpec [0, 1] false) (tAuth .primary 2 .observe) ∧ Admits (tLine 1) (authSpec [1] false) (tAuth .primary 2 .observe) ∧ Admits (tLine 0) (authSpec [0, 1] true) (tAuth .primary 2 .observe)) ∧
    authLocked (begun (tLine 0) false (tAuth .primary 2 .observe)) 0 = false ∧ authLocked (updCon State.reset 0 (fun k => { k with lockUntil := some 1 })) 0 = true ∧
    State.reset.con.cons.length = 2 ∧ (0 :: (getCon State.reset 0).fails).length < 3 ∧ (0 :: (getCon (updCon State.reset 0 (fun k => { k with fails := [0, 0] })) 0).fails).length ≥ 3 ∧
    (getCon State.reset 0).chal = none ∧
    (let s : State := { updCon State.reset 0 (fun k => { k with chal := some ⟨.operate, 1, [], 0⟩ }) with sec.otp.ops := [some 5] }; (getCon s 0).chal = some ⟨.operate, 1, [], 0⟩ ∧ (levelKey s .operate).isSome = true) := by
  refine ⟨⟨⟨?_, ?_, ?_, Or.inl rfl, ?_⟩, ⟨?_, ?_, ?_, Or.inl rfl, ?_⟩, ⟨?_, ?_, ?_, Or.inl rfl, ?_⟩⟩, ?_, ?_, ?_, ?_, ?_, ?_, ?_⟩ <;> decide +kernel

/-- The clauses of `InspectionAndStagingComplete` have cases: no command before, one that is not durable, a buffer empty, open and full. -/
theorem wit_InspectionAndStagingComplete :
    (Admits (tLine 0) (spec .observe allModes true) (tAuth .primary 2 .observe) ∧ Admits (tLine 0) (earlySpec true) (tAuth .primary 2 .observe) ∧ Admits (tLine 0) (stageSpec true) (tAuth .primary 2 .operate)) ∧
    lowerDurable (begun (tLine 0) false (tAuth .primary 2 .observe)) (tAuth .primary 2 .observe).con.nextCjn = true ∧
    lowerDurable (begun (tLine 0) false { tAuth .primary 2 .observe with con.cmds := [{ tWait .formed with cjn := 0 }] }) 1 = false ∧
    ((stageOf State.reset 0).st ≠ .opened ∧ groupBad 4 0 1 = false ∧ groupBad 3 0 1 = true ∧ stagedCount ⟨.opened, 4, [(0, 1)]⟩ = 4 ∧ stagedCount ⟨.opened, 5, [(0, 1)]⟩ ≠ 5) := by
  refine ⟨⟨⟨?_, ?_, ?_, Or.inl rfl, ?_⟩, ⟨?_, ?_, ?_, Or.inl rfl, ?_⟩, ⟨?_, ?_, ?_, Or.inl rfl, ?_⟩⟩, ?_, ?_, ?_⟩ <;> decide +kernel

/-- The clauses of `CommissioningComplete` have cases: a blank and a set one-time value, a free slot and none, a staged key, declarations that parse and that do not, S7 that waits. -/
theorem wit_CommissioningComplete :
    (Admits (tLine 1) (specOn .observe [1] [.sealed] true true) (tAuth .none 1 .observe) ∧ Admits (tLine 1) (specOn .regulate [1] [.sealed, .quiet] true true) (tAuth .none 3 .regulate) ∧
      Admits (tLine 1) (specOn .regulate [1] [.sealed] true true) (tAuth .none 1 .regulate) ∧ Admits (tLine 1) (specOn .regulate [1] [.sealed, .quiet] false true) (tAuth .none 3 .regulate) ∧
      Admits (tLine 0) (specOn .engineer [0, 1] [.sealed] false true) (tAuth .none 1 .engineer) ∧ Admits (tLine 1) (specOn .regulate [1] [.quiet] false true) (tAuth .none 3 .regulate)) ∧
    (State.reset.sec.otp.jhash.isSome = false ∧ (let s : State := { State.reset with sec.slots := [some (tImage 5 0), none] }; (runningImage s).map (·.jpub) = some 5 ∧ (runningImage s).map (·.jpub) ≠ some 6)) ∧
    ((stageOf State.reset 1).st ≠ .closed ∧ (let b := stageOf (begun (tLine 1) false (tStaged (tAuth .none 3 .regulate) 1 (List.replicate 24 7) 96)) 1; b.st = .closed ∧ (stagedBytes b).length = 96)) ∧
    (freeSlot State.reset = some 0 ∧ freeSlot { State.reset with sec.otp.ops := [some 1, none, none, none] } = some 1 ∧ freeSlot { State.reset with sec.otp.ops := [some 1, some 1, some 1, some 1] } = none) ∧
    (roleOf 1 = some .primary ∧ State.reset.role = .none ∧ (State.reset.sec.otp.revoked[3]?).getD false = false ∧ ([false, true][1]?).getD false = true) ∧
    ((parseDecl (1 :: List.replicate 207 0)).isSome = true ∧ parseDecl [] = none ∧ opKeyActive State.reset 5 = false ∧ opKeyActive { State.reset with sec.otp.ops := [some 5] } 5 = true) ∧
    (waitsDecl State.reset = false ∧ waitsDecl { State.reset with sec.step := 7, sec.otp.ops := [some 5] } = true) := by
  refine ⟨⟨⟨?_, ?_, ?_, Or.inl rfl, ?_⟩, ⟨?_, ?_, ?_, Or.inl rfl, ?_⟩, ⟨?_, ?_, ?_, Or.inl rfl, ?_⟩, ⟨?_, ?_, ?_, Or.inl rfl, ?_⟩, ⟨?_, ?_, ?_, Or.inl rfl, ?_⟩, ⟨?_, ?_, ?_, Or.inl rfl, ?_⟩⟩, ?_, ?_, ?_, ?_, ?_, ?_⟩ <;> decide +kernel

/-- The clauses of `KeysAndImagesComplete` have cases: envelopes with and without a fault, a table with room, each slot, images that verify and that do not, rule containers, a stream that takes grains. -/
theorem wit_KeysAndImagesComplete :
    (Admits (tLine 0) (spec .engineer [.live, .quiet] true) (tAuth .primary 3 .engineer) ∧ Admits (tLine 0) (spec .engineer [.live, .quiet, .audit, .replay] true) (tAuth .primary 3 .engineer) ∧
      Admits (tLine 0) ⟨.engineer, [0, 1], [.sealed, .quiet], false, true, false, false, true⟩ (tAuth .primary 3 .engineer) ∧ Admits (tLine 0) (spec .engineer [.quiet] true) (tAuth .primary 3 .engineer)) ∧
    (let b := stageOf (begun (tLine 0) false (tStaged (tAuth .primary 3 .engineer) 0 (List.replicate 89 7) 354)) 0; b.st = .closed ∧ (stagedBytes b).length = 354 ∧ (parseEnvelope (stagedBytes b) none).target = 0) ∧
    (let s : State := { State.reset with sec.otp.ops := [some 5] }; kekFault s (tEnv 1 0) = none ∧ kekFault s (tEnv 2 0) = some mkFORMAT ∧ envelopeFault s (tEnv 2 tDEV) 2 (· == tDEV) = none ∧ envelopeFault s (tEnv 1 0) 2 (· == tDEV) = some mkFORMAT) ∧
    (sessUsed State.reset tDEV 0 = false ∧ State.reset.awp.sessions.length < 4194304 ∧ sessUsed { State.reset with awp.sessions := [(skey tDEV 0, newSession .devmgmt tDEV 0 0 0 0)] } tDEV 0 = true) ∧
    (imageSlot State.reset none = some 1 ∧ imageSlot { State.reset with sec.recovery := true } (some 0) = some 0 ∧ slotValid State.reset true (tImage 5 0) = true ∧ slotValid State.reset true { tImage 5 0 with fOk := false } = false) ∧
    (parseRules State.reset [] = none ∧ (parseRules State.reset ([0x4B, 0x4D, 0x52, 0x50, 0, 1] ++ List.replicate 202 0)).map (·.tenant) = some 0 ∧ (parseRules State.reset ([0x4B, 0x4D, 0x52, 0x50, 0, 1] ++ List.replicate 202 0)).map (·.signed) = some false) ∧
    (streamTakes (tAuth .primary 3 .engineer) 0 = true ∧ streamTakes State.reset 0 = false) := by
  refine ⟨⟨⟨?_, ?_, ?_, Or.inl rfl, ?_⟩, ⟨?_, ?_, ?_, Or.inl rfl, ?_⟩, ⟨?_, ?_, ?_, Or.inl rfl, ?_⟩, ⟨?_, ?_, ?_, Or.inl rfl, ?_⟩⟩, ?_, ?_, ?_, ?_, ?_, ?_⟩ <;> decide +kernel

/-- The clauses of `TimeCommandsComplete` have cases: leap tables of one and two entries, a device in S8 and past it, a good reference and none, LIVE, a breach and neither. -/
theorem wit_TimeCommandsComplete :
    (Admits (tLine 0) (spec .engineer [.sealed, .live, .quiet] true) (tAuth .primary 3 .engineer) ∧ Admits (tLine 1) (specOn .regulate [1] [.sealed] false true) (tAuth .primary 1 .regulate) ∧
      Admits (tLine 1) (stepSpec (tAuth .primary 2 .regulate) true) (tAuth .primary 2 .regulate) ∧ Admits (tLine 0) (stepSpec (tAuth .primary 3 .engineer) true) (tAuth .primary 3 .engineer) ∧
      Admits (tLine 1) (specOn .regulate [1] [.sealed, .live, .quiet, .replay] false true) (tAuth .primary 3 .regulate)) ∧
    ((stageOf State.reset 0).st ≠ .closed ∧ (let b := stageOf (begun (tLine 0) false (tStaged (tAuth .primary 3 .engineer) 0 [0, 9, 0x10000, 0, 0, 5, 0x250000, 0] 32)) 0; b.st = .closed ∧ parseLeaps (stagedBytes b) = some (9, [(5, 37)]))) ∧
    (parseLeaps [] = none ∧ leapsRise [(5, 37), (9, 38)] = true ∧ leapsRise [(5, 37), (9, 39)] = false ∧ leapsAgree State.reset 9 [(5, 37)] = true ∧ leapsAgree { State.reset with tim.leapEnd := some 10 } 9 [(5, 37)] = false) ∧
    (toTai State.reset ⟨false, 5, false, 7⟩ = some 5000000007 ∧ inS8 { State.reset with sec.step := 8, tim.acqStart := some 0 } = true ∧ inS8 { State.reset with sec.step := 9 } = false) ∧
    ((getRef State.reset 3).good = false ∧ (getRef { State.reset with tim.refs := [{ refReset with good := true }] } 0).good = true) ∧
    ((tMode .primary 2).inMode .live = true ∧ (tMode .primary 3).inMode .live = false ∧ ({ State.reset with tim.qual := .breach } : State).tim.qual = .breach ∧ (tMode .primary 3).tim.qual ≠ .breach) := by
  refine ⟨⟨⟨?_, ?_, ?_, Or.inl rfl, ?_⟩, ⟨?_, ?_, ?_, Or.inl rfl, ?_⟩, ⟨?_, ?_, ?_, Or.inl rfl, ?_⟩, ⟨?_, ?_, ?_, Or.inl rfl, ?_⟩, ⟨?_, ?_, ?_, Or.inl rfl, ?_⟩⟩, ?_, ?_, ?_, ?_, ?_⟩ <;> decide +kernel

/-- The clauses of `BookCommandsComplete` have cases: a book that opens, one whose window is past, an OPEN, a SUSPENDED and a CLOSED one, a settled one, each reason, a SHADOW. -/
theorem wit_BookCommandsComplete :
    (Admits (tLine 0) (spec .operate [.live, .quiet] true) (tBook 2 emptyBook) ∧ Admits (tLine 0) (setBookSpec (tBook 2 emptyBook) 0 0 none (some 5)) (tBook 2 emptyBook) ∧ Admits (tLine 0) (spec (resumeAuth [0]) [.live, .quiet] true) (tBook 2 emptyBook)) ∧
    (bookArgs 63 4095 = true ∧ bookArgs 64 0 = false ∧ (tAuth .shadow 2 .operate).role = .shadow ∧ (tBook 2 emptyBook).role = .primary) ∧
    (bookReason (viaBook (tBook 2 { emptyBook with pb := 1000000000000000000 }) 1 0 0 0 0 (fun _ => true) 1) = 0 ∧ bookReason (viaBook (tBook 2 emptyBook) 1 0 0 0 0 (fun _ => true) 1) = 2 ∧
      bookReason (viaBook (tBook 2 emptyBook) 2 0 0 0 1 (fun _ => true) 1) = 1 ∧ bookReason (viaBook (tBook 4 emptyBook) 2 0 0 0 1 (fun _ => true) 1) = 3 ∧
      bookReason (viaBook { tBook 2 emptyBook with tim.qual := .starved } 3 0 0 0 1 (fun _ => true) 1) = 4) ∧
    (let k : Book := { emptyBook with pb := 1000000000000000000, st := votedOf 4, cause := 1 }; bookReason (viaBook (tBook 2 k) 3 0 0 0 1 (fun _ => true) 1) = 0 ∧ entryReason (tBook 2 k) k 1000000000000000000 0 = 0 ∧ entryReason (tBook 2 k) k 0 0 = 2 ∧ entryReason (tBook 4 k) k 10 0 = 3) ∧
    (let k : Book := { emptyBook with st := votedOf 3 }; (getBook (tBook 2 k) 0 0).sales = .closed ∧ (getBook (tBook 2 k) 0 0).settled = false ∧ entryReason (tBook 2 k) k 10 0 = 1 ∧ streamTakes (tBook 2 k) 0 = true) ∧
    (stageOf State.reset 0).st ≠ .closed ∧ [0, 6].all (fun c => decide (c < 7)) = true ∧ [0, 6].Nodup := by
  refine ⟨⟨⟨?_, ?_, ?_, Or.inl rfl, ?_⟩, ⟨?_, ?_, ?_, Or.inl rfl, ?_⟩, ⟨?_, ?_, ?_, Or.inl rfl, ?_⟩⟩, ?_, ?_, ?_, ?_, ?_, ?_, ?_⟩ <;> decide +kernel

/-- A LAB in REPLAY with an import set of tenant 0. -/
def tReplay : State :=
  let s := tAuth .lab 5 .engineer
  { s with rpl.sets := [(0, ⟨0, 0, 5, 0, [], [], 0, 0⟩)], sec.rules := [(0, ⟨0, 0⟩)], awp.runtime := [0] }
/-- The clauses of `JournalCommandsComplete` have cases: a prefix that may be retired, one that is kept and none, a detached mirror on a SHADOW, a replay run, latches, a tag that is paired and none, a pulse loop. -/
theorem wit_JournalCommandsComplete :
    (Admits (tLine 1) (specOn .regulate [1] [.live, .quiet] false true) (tRetire true) ∧ Admits (tLine 0) (spec .engineer [.replay] true) tReplay ∧ Admits (tLine 0) (spec .engineer [.quiet, .replay] true) tReplay ∧
      Admits (tLine 1) (specOn .regulate [1] [.sealed, .live, .quiet, .replay, .hold] false true) (tRetire true) ∧ Admits (tLine 0) (spec .engineer [.sealed, .live, .quiet] true) (tAuth .primary 3 .engineer) ∧ Admits (tLine 0) (spec .engineer [.sealed, .quiet] true) (tAuth .primary 3 .engineer)) ∧
    (retirePrefix (tAuth .primary 3 .regulate) 0 0 = [] ∧ (retirePrefix (tRetire true) 0 0).length = 1 ∧ (retirePrefix (tRetire true) 0 0).all (retireOk (tRetire true) 0) = true ∧ dictKept (tRetire true) 0 (retirePrefix (tRetire true) 0 0) = false ∧
      (retirePrefix (tRetire false) 0 0).length = 1 ∧ (retirePrefix (tRetire false) 0 0).all (retireOk (tRetire false) 0) = false) ∧
    ((tAuth .shadow 3 .regulate).role = .shadow ∧ (tAuth .primary 3 .regulate).role ≠ .shadow ∧ (getMir (tAuth .shadow 3 .regulate) 0).st ≠ 3 ∧ (getMir (updMir (tAuth .shadow 3 .regulate) 0 (fun x => { x with st := 3 })) 0).st = 3) ∧
    (tReplay.rpl.run.isNone = true ∧ (let s0 := fset (fset tReplay bRPL 0x10 0 6 0) bRPL 0x10 8 1 1; (replayStart (set64 (set64 s0 bRPL 0x18 0) bRPL 0x20 0)).rpl.run.isSome = true ∧ (replayStart (set64 (set64 s0 bRPL 0x18 0) bRPL 0x20 9)).rpl.run.isSome = false)) ∧
    (kindOk 0x83 = true ∧ kindOk 4 = false ∧ freeTag State.reset = some 0 ∧ (let s : State := { State.reset with sec.otp.ops := [some 5] }; envelopeFault s (tEnv 3 0x41) 3 (· == 0x41) = none ∧ envelopeFault s (tEnv 1 0) 3 (· == 0x41) = some mkFORMAT)) ∧
    (let s : State := { State.reset with wit.tags := [(3, { tagEmpty with st := 1, eui := 9 })] }; s.wit.tags.any (fun p => p.2.st != 0 && p.2.eui == 9) = true ∧ (getTag s 3).st ≠ 0 ∧ (getTag s 4).st = 0) ∧
    (stageOf State.reset 0).st ≠ .closed := by
  refine ⟨⟨⟨?_, ?_, ?_, Or.inl rfl, ?_⟩, ⟨?_, ?_, ?_, Or.inl rfl, ?_⟩, ⟨?_, ?_, ?_, Or.inl rfl, ?_⟩, ⟨?_, ?_, ?_, Or.inl rfl, ?_⟩, ⟨?_, ?_, ?_, Or.inl rfl, ?_⟩, ⟨?_, ?_, ?_, Or.inl rfl, ?_⟩⟩, ?_, ?_, ?_, ?_, ?_, ?_⟩ <;> decide +kernel

/-- The clauses of `ShowsComplete` have cases: a grain that is durable, one that is not and one that cannot be read, a session and none, a bank and none, SHOW CTX in AUDIT and in HOLD. -/
theorem wit_ShowsComplete :
    (Admits (tLine 0) (spec .observe allModes true) (tAuth .primary 2 .observe) ∧ Admits (tLine 0) (spec .engineer [.audit, .hold] true) (tAuth .primary 6 .engineer) ∧ Admits (tLine 1) { spec .regulate [.audit, .hold] true with cons := [1] } (tAuth .primary 4 .regulate)) ∧
    ((tAuth .primary 6 .engineer).inMode .hold = true ∧ (tAuth .primary 4 .regulate).inMode .hold = false) ∧
    ((strm State.reset 0).dur ≤ 0 ∧ (let s := tDurable State.reset (tGrain 0 1 0 0); 0 < (strm s 0).dur ∧ (grainAt s 0 0).isSome = true ∧ (grainAt s 0 0).map (·.unreadable) = some false) ∧
      (grainAt (tDurable State.reset { tGrain 0 1 0 0 with unreadable := true }) 0 0).map (·.unreadable) = some true ∧ (let s := setStrm State.reset 0 { strm State.reset 0 with dur := 1 }; 0 < (strm s 0).dur ∧ grainAt s 0 0 = none)) ∧
    (lk State.reset.awp.sessions (skey 0 5) = none ∧ (lk [(skey 0 5, newSession .terminal 0 0 0 0 0)] (skey 0 5)).isSome = true) ∧
    (State.reset.cpu.banks.find? (fun y => y.tenant == 0 && y.ctx == 0) = none) := by
  refine ⟨⟨⟨?_, ?_, ?_, Or.inl rfl, ?_⟩, ⟨?_, ?_, ?_, Or.inl rfl, ?_⟩, ⟨?_, ?_, ?_, Or.inl rfl, ?_⟩⟩, ?_, ?_, ?_, ?_⟩ <;> decide +kernel

/-- The clauses of `TerminalFramesComplete` have cases: a frame that passes A1 to A5, one that each check drops, the verdict 0 and another, a QUERY that finds nothing, and one out of range. -/
theorem wit_TerminalFramesComplete :
    (let s := tAwp 2 .terminal; etherUp s 0 = true ∧ etherUp State.reset 0 = false ∧ frameBytes (tFrame 0 []) ≤ 262144 ∧ passA1 s (tFrame 0 []) = true ∧ passA1 s { tFrame 0 [] with fcsOk := false } = false ∧
      passA2 s (tFrame 0 []) false = true ∧ passA2 s { tFrame 0 [] with ver := 2 } false = false ∧ (passA3 (looked s (tFrame 0 [])) (tFrame 0 []) [.terminal]).isSome = true ∧
      passA3 (looked s { tFrame 0 [] with session := 2 }) { tFrame 0 [] with session := 2 } [.terminal] = none) ∧
    ((passA3 (looked (tAwp 2 .terminal) (tFrame 0 [])) (tFrame 0 []) [.terminal]).map (fun x => x.keyHeld && (window x.high x.bitmap 1).isSome) = some true ∧ window 5 1 5 = none ∧ window 40 1 5 = none ∧ (window 40 1 9).isSome = true ∧ window 40 1 8 = none) ∧
    ((verdict (tAwp 2 .terminal) (tFrame 0 []) 0 0).1 = 0 ∧ (verdict (tAwp 2 .terminal) (tFrame 0 []) (10 ^ 18) 0).1 = rjLATE) ∧
    ((queryAnswer (tAwp 2 .terminal) { tFrame 0 [] with counter := 2 } 1 1).1 = 2 ∧ (queryAnswer (tAwp 2 .terminal) (tFrame 0 []) 1 1).1 = 4 ∧ (queryAnswer (tAwp 2 .terminal) (tFrame 0 []) 1 0).2.2 = false ∧
      (queryAnswer (updSess (tAwp 2 .terminal) (skey 0 1) (fun x => { x with high := 5 })) { tFrame 0 [] with counter := 6 } 1 4).2.2 = true) ∧
    (let s := tDurable (tAwp 2 .terminal) { tGrain 0 1 0 0 with hdr := { (tGrain 0 1 0 0).hdr with session := 1, counter := 1 } }; (queryAnswer s { tFrame 0 [] with counter := 2 } 1 1).1 = 0 ∧ (queryAnswer s { tFrame 0 [] with counter := 2 } 1 1).2.1.isSome = true) := by
  decide +kernel

/-- The clauses of `PartingRule` have cases: P on each side of its two bounds, each sales state, a quota and a limit that is reached. -/
theorem wit_PartingRule :
    (let s := tAwp 2 .terminal; let v := (getBook s 0 0).verAt 5; modeAt s 0 = .live ∧ modeAt State.reset 0 ≠ .live ∧ s.role = .primary ∧ (tAuth .shadow 2 .operate).role ≠ .primary ∧
      v.st = .open ∧ v.st ≠ .dormant ∧ (10 ^ 18 + v.margin * 1000 ≥ v.pb ∧ 10 ^ 18 - 1 + v.margin * 1000 < v.pb ∧ v.pb ≤ 10 ^ 18 - 1 + 1 + v.margin * 1000 ∧ 10 ^ 18 - 2 + 1 + v.margin * 1000 < v.pb)) ∧
    ((getBook State.reset 0 0).verAt 5).st = .dormant ∧ ((getBook (tBook 2 { emptyBook with st := votedOf 4, pb := 9 }) 0 0).verAt 5).st = .suspended ∧ ((getBook (tBook 2 { emptyBook with st := votedOf 2, pb := 9 }) 0 0).verAt 5).st = .parting ∧
    (∃ x, sessOf (tAwp 2 .terminal) 0 1 = some x ∧ x.unreplied < fget (tAwp 2 .terminal) bSEQ 0x200 0 6 ∧ x.unreplied ≥ fget (fset (tAwp 2 .terminal) bSEQ 0x200 0 6 0) bSEQ 0x200 0 6) ∧
    (inFlight (tAwp 2 .terminal) 0 < fget (tAwp 2 .terminal) bSEQ 0x100 0 21 ∧ inFlight (tAwp 2 .terminal) 0 ≥ fget (fset (tAwp 2 .terminal) bSEQ 0x100 0 21 0) bSEQ 0x100 0 21) := by
  refine ⟨?_, ?_, ?_, ?_, ⟨newSession .terminal 0 0 0 0 0, ?_⟩, ?_⟩ <;> decide +kernel

/-- The clauses of `ManagementComplete` have cases: a management frame that passes A1 to A5, each mode, payloads of each length, an envelope with and without a fault, a session and none, an export and none, an import whose last part waits. -/
theorem wit_ManagementComplete :
    (let s := tAwp 3 .devmgmt; let f := tFrame tDEV []; etherUp s 0 = true ∧ passA1 s f = true ∧ passA2 s f true = true ∧ (passA3 (looked s f) f [.devmgmt]).map (fun x => x.keyHeld && (window x.high x.bitmap 1).isSome) = some true ∧
      s.inMode .quiet = true ∧ s.inMode .live = false ∧ (passA3 (looked s f) f [.devmgmt, .mgmt]).isSome = true ∧ passA3 (looked s f) f [.terminal] = none) ∧
    (let s : State := { State.reset with sec.otp.ops := [some 5] }; kekFault s (tEnv 1 0) = none ∧ kekFault s (tEnv 2 0) = some mkFORMAT) ∧
    (let s : State := { tAuth .lab 5 .operate with rpl.recv := some ⟨1, 1, 10, false, 0, 1, 1, tRoute⟩ }; s.inMode .replay = true ∧ impBad s (be 4 1 ++ be 4 1 ++ be 4 0) = false ∧ impCont s (be 4 1 ++ be 4 1 ++ be 4 0) = some (10, 0) ∧
      impBad s [] = true ∧ impCont s (be 4 1 ++ be 4 5 ++ be 4 0) = none ∧ imageSegs 10 > areaFree s ∧ imageSegs 10 ≤ areaFree (rawSet s bRPL 0x78 5)) ∧
    (lk (tAwp 3 .mgmt).awp.kek 0 = none ∧ sessCount (tAwp 3 .mgmt) 0 ≥ fget (fset (tAwp 3 .mgmt) bAWP 0x1000 0 23 0) bAWP 0x1000 0 23 ∧ sessCount State.reset 0 < fget (fset (tAwp 3 .mgmt) bAWP 0x1000 0 23 5) bAWP 0x1000 0 23 ∧
      sessUsed (tAwp 3 .mgmt) 0 1 = true ∧ sessUsed (tAwp 3 .mgmt) 0 2 = false ∧ sessOf (tAwp 3 .mgmt) 0 1 ≠ none ∧ sessOf (tAwp 3 .mgmt) 0 2 = none) ∧
    (exportSegs (tRetire true) 0 false 0 0 ≠ [] ∧ exportSegs State.reset 0 false 0 0 = [] ∧ State.reset.rpl.closedReq.contains 1 = false ∧ State.reset.rpl.exports.length < 4) ∧
    (enabledAddr (tAwp 2 .terminal) (etherPort (tAwp 2 .terminal) 0) false 7 = true ∧ enabledAddr (tAwp 2 .terminal) (etherPort (tAwp 2 .terminal) 0) true 7 = false ∧ etherUp State.reset 0 = false ∧
      fget (fset State.reset bAWP 0x10 16 1 1) bAWP 0x10 16 1 = 1 ∧ fget (fset State.reset bAWP 0x10 16 1 0) bAWP 0x10 16 1 ≠ 1) := by decide +kernel

/-- Lane 0 UP, the grandmaster reference 2 on it and enabled, at a tick, with a reference changed. -/
def tPtp (n : Nat) (f : TimeRef → TimeRef) : State :=
  let s := tAwp 2 .terminal
  updRef (updRef (rawSet { s with tim.ticks := n } bTIM 0x38 15) 2 f) 0 f
/-- A message with a sequence number and a logarithm of its interval. -/
def tPtpMsg (two : Bool) (ls : Int) : PtpMsg := ⟨0, 0, 0, fget State.reset bTIM 0x60 16 2, fget State.reset bTIM 0x60 8 7, 0, 5, two, ls, 0⟩
/-- The clauses of `TimeEventsComplete` have cases: a lane that is UP and one that is not, a grandmaster that is enabled and one that is not, a peer-to-peer one, each interval at its limit, an edge that is due, each input of the PLL. -/
theorem wit_TimeEventsComplete :
    (laneUp (tPtp 0 id) 0 = true ∧ laneUp State.reset 0 = false ∧ ptpRef (tPtp 0 id) (tPtpMsg true 0) = some 2 ∧ ptpRef (tPtp 0 id) { tPtpMsg true 0 with ident := 9 } = none ∧ refEnabled (tPtp 0 id) 2 = true ∧ refEnabled (rawSet (tPtp 0 id) bTIM 0x38 0) 2 = false) ∧
    (isP2p (tPtp 0 id) 2 = false ∧ isP2p (fset (tPtp 0 id) bTIM 0x60 18 1 1) 2 = true ∧ (getRef (tPtp 0 (fun x => { x with syncSeq := some 5 })) 2).syncSeq = some 5 ∧ (getRef (tPtp 0 (fun x => { x with syncTx := some 3 })) 2).syncTx = some 3 ∧
      (getRef (tPtp 0 id) 2).msDelay = none ∧ (getRef (tPtp 0 id) 2).utcEvt = none ∧ (5 : Int) ≠ (leapNow (tPtp 0 id)).1) ∧
    (let s := tPtp 2400000000 (fun x => { x with lastSample := some 0, good := true, logSync := 0 }); (getRef s 2).lastSample = some 0 ∧ (getRef s 2).good = true ∧ s.tim.ticks - 0 ≥ 2400000000 * 2 ^ ((getRef s 2).logSync + 4).toNat / 16) ∧
    (let s := tPtp 800000801 (fun x => { x with lastEdge := some 0, waiting := true, edgeOk := true, todSec := some 4 }); refEnabled s 0 = true ∧ (getRef s 0).waiting = true ∧ (getRef s 0).lastEdge = some 0 ∧ s.tim.ticks > 800000800 ∧ (getRef s 0).todSec = some (5 - 1)) ∧
    (State.reset.tim.rem = 0 ∧ ({ State.reset with tim.rem := 1 } : State).tim.rem ≠ 0 ∧ inS8 { State.reset with sec.step := 8, tim.acqStart := some 0, tim.acqFirst := some 0 } = true ∧ inS8 State.reset = false) ∧
    (({ State.reset with tim.uHist := [(0, 5)], tim.ticks := 1024 } : State).tim.uHist.head? = some (0, 5) ∧ State.reset.tim.ticks - 0 < 1024) ∧
    (ppsDue { State.reset with tim.acquired := true, tim.ppsLast := none } = true ∧ ppsDue { State.reset with tim.acquired := false, tim.ppsLast := none } = false) ∧
    (let s : State := { State.reset with tim.usable := 3, tim.pllSrc := 0, tim.ticks := 48000000000, tim.usableSince := [0, 0, 0] }; bestInput { s with tim.usable := setBits s.tim.usable 0 1 0 } = some 1 ∧ bestInput { s with tim.usable := 0 } = none ∧ bit s.tim.usable 1 = true ∧ bit s.tim.usable 2 = false ∧
      (inputOrder s).idxOf 0 < (inputOrder { s with tim.pllSrc := 1 }).idxOf 1 ∧ s.tim.ticks - (s.tim.usableSince[0]?).getD 0 ≥ 48000000000 ∧ ({ s with tim.pllSrc := 3 } : State).tim.pllSrc = 3) := by decide +kernel

/-- The facts that the SEALED steps of a good device find. -/
def tFacts : BootFacts := ⟨7, 255, 0, 4, true, true, 16, 3, [], [], [], [], false, none, 100, 16000, 100000, 599000, 100000, 15500, true⟩
/-- The device in a SEALED step at a tick. -/
def tBoot (n tk : Nat) : State := { State.reset with sec.step := n, tim.ticks := tk }
/-- A stream of tenant 0 with a chained grain that is not durable, in a device of LIVE. -/
def tChained (f : Grain → Grain) : State := setStrm (tAuth .primary 2 .operate) 0 { strm State.reset 0 with grains := [f (tGrain 0 1 0 0)], chained := 1, next := 1 }
/-- The clauses of `BootAndSequencerComplete` have cases: each step, one in time and one past its limit, a book whose P has come, one in PARTING, a request with room, a chained and a durable grain, a reply that waits. -/
theorem wit_BootAndSequencerComplete :
    (booting (tBoot 0 0) = true ∧ booting (tMode .primary 2) = false ∧ bestInput { tBoot 1 0 with tim.usable := 7 } = some 0 ∧ bestInput { tBoot 1 0 with tim.usable := 0 } = none ∧ (tBoot 2 0).sec.coldWait = false ∧ scanOk tFacts (tBoot 5 0) = true ∧
      scanOk { tFacts with prof := 0 } (tBoot 5 0) = false ∧ waitsDecl (tBoot 7 0) = false ∧ waitsDecl { tBoot 7 0 with sec.otp.ops := [some 5] } = true ∧ (tBoot 9 10000000).tim.ticks - (tBoot 9 10000000).sec.stepSince ≤ stepLimit (tBoot 9 10000000) 9 ∧
      (tBoot 9 20000000).tim.ticks - (tBoot 9 20000000).sec.stepSince > stepLimit (tBoot 9 20000000) 9) ∧
    (State.reset.pwr.held = false ∧ rawGet State.reset bMEM 0x14 = 0 ∧ rawGet (rawSet State.reset bMEM 0x14 16) bMEM 0x14 ≠ 0) ∧
    (let k : Book := { emptyBook with pb := 0, st := votedOf 1 }; let s : State := { tBook 2 k with tim.acquired := true }; onSale (getBook s 0 0) = true ∧ (getBook s 0 0).pb ≤ s.now ∧ followsRecord s 0 = false ∧ s.inMode .hold = false ∧ s.inMode .sealed = false ∧ onSale emptyBook = false) ∧
    (let s : State := tBook 2 { emptyBook with st := votedOf 2, partWait := true }; (getBook s 0 0).partWait = true ∧ (booksOf s 0).any (fun x => decide (x < 0) && (getBook s 0 x).partWait && (getBook s 0 x).pb == (getBook s 0 0).pb) = false ∧ streamStill s 0 = false ∧ s.jrn.closed = false) ∧
    (let s : State := tDurable (tBook 2 { emptyBook with st := votedOf 2, partSeq := some 0 }) (tGrain 0 4 0 0); (getBook s 0 0).partSeq = some 0 ∧ (grainAt s 0 0).isSome = true ∧ (getBook s 0 0).sales = .parting ∧ isDurable s 0 0 = true) ∧
    ((strm State.reset 0).reqs = [] ∧ (let s := reqGrain State.reset ⟨hdrOf 0 9 0 0 0 0 0 0, []⟩; (strm s 0).reqs = [⟨hdrOf 0 9 0 0 0 0 0 0, []⟩]) ∧ occ State.reset = 0) ∧
    ((grainAt (tChained id) 0 0).isSome = true ∧ (tGrain 0 1 0 0).flash = false ∧ occUpTo (tChained id) 0 (tGrain 0 1 0 0) ≤ cwinBytes (tChained id) ∧ (tGrain 0 1 0 0).waited = false ∧ cwinBytes State.reset < 5) ∧
    (let s : State := { tDurable State.reset (tGrain 0 1 0 0) with awp.replies := [⟨0, 1, 0, 0, 1, 0, 0, tRoute⟩] }; nextReply s 0 1 = some ⟨0, 1, 0, 0, 1, 0, 0, tRoute⟩ ∧ isDurable s 0 0 = true ∧ syncOn s 0 = false ∧ bit (tGrain 0 1 0 0).hdr.flags 0 = false ∧ bit 1 0 = true) := by decide +kernel

/-- The clauses of `RegisterRowsComplete` have cases: a held device, each reason of Table 3.2, an armed guard, a busy domain, each kind of indirect space, consoles. -/
theorem wit_RegisterRowsComplete :
    (let s := State.reset; s.pwr.held = false ∧ { s with pwr.held := true }.pwr.held = true ∧ accessReason 5 0x10 16 true = 1 ∧ accessReason 0x3F 0x10 32 true = 3 ∧ accessReason 5 0x7FFC 32 true = 2 ∧ accessReason 5 0x8004 32 true = 4 ∧
      accessReason bSYS 0x20 32 true = 0 ∧ forbidden s 0 bSYS 0x20 false = true ∧ forbidden s 0 bSYS 0x30 false = false ∧ dataSpace s bSYS 0x30 = none ∧ isPosted bFLC 0x200 = true ∧ isPosted bTIM 0x38 = false ∧ isKw bTIM 0x38 = true ∧ isKw bSYS 0x30 = false ∧
      (∀ b ∈ [bSYS, bPRT, bTIM, bPWR, bLQ, bLQ + 11], guardOk s 0x60 b = false ∧ guardOk (unlockWrite s 0x60 b (0x5A00 + b)) 0x60 b = true) ∧ assigned 5 = true ∧ (addrSpace s bWIT 0x200).isSome = true ∧ (addrSpace s bSEC 0x40).isSome = true ∧ addrSpace s bSEC 0x44 = none ∧
      (dataSpace s bSEC 0x44).map (·.writable) = some false ∧ (dataSpace s bUCD 0x24).isSome = true ∧ (dataSpace s bPRT 0x14).map (·.writable) = some true ∧ (dataSpace s 0x2B 0x204).map (·.writable) = some true ∧ dataSpace s bSEC 0x40 = none ∧
      (phyDataWrite s 3 0 0x2B ⟨0x200, 0x400, 1, 1, true, false, true⟩ 5).reason = 5 ∧ (phyDataWrite (addrWrite s 3 0x2B ⟨0x200, 0x400, 1, 1, true, false, true⟩ 7) 3 0 0x2B ⟨0x200, 0x400, 1, 1, true, false, true⟩ 5).reason = 0 ∧
      (dataRead s 3 0 bSEC ⟨0x40, 560, 1, 1, false, false, false⟩).reason = 5 ∧ (dataRead (addrWrite s 3 bSEC ⟨0x40, 560, 1, 1, false, false, false⟩ 7) 3 0 bSEC ⟨0x40, 560, 1, 1, false, false, false⟩).reason = 0 ∧
      lk { s with sys.guards := [(5, ⟨0, 0⟩)], sys.cycle := 256 }.sys.guards 5 = some ⟨0, 0⟩ ∧ lk s.sys.guards 5 = none ∧ hasDomain bWIT = true ∧ hasDomain bSYS = false ∧ (getPosted s bWIT).rst = false ∧ (getPosted s bWIT).xfer = false ∧ (getPosted s bWIT).pend = [] ∧
      (getPosted (putPosted s bWIT ⟨[], true, true⟩) bWIT).rst = true ∧ (getPosted (putPosted s bWIT ⟨[], true, true⟩) bWIT).xfer = true ∧ s.sec.s5done = false ∧ (tAuth .primary 3 .regulate).sec.s5done = true) ∧
    (let t := tAt (encI 0x32 ⟨1, 0, 0x016⟩) [(1, tw tRAW 5)] []; AtInsn t t tC (encI 0x32 ⟨1, 0, 0x016⟩) ∧ reg t tC 1 = tw tRAW 5 ∧ lvlOf t tC = 2) ∧
    (let s := tAuth .primary 3 .regulate; Admits (tLine 0) (spec (setRegAuth bSEC 0x60) [.sealed, .live, .quiet, .replay, .hold] true) s ∧ Admits (tLine 0) (spec .observe allModes true) s ∧
      (busWrite (begun (tLine 0) false s) reqMgmt 5 0x7FFC 32 0 true 1).reason = 2 ∧ (busWrite (begun (tLine 0) false s) reqMgmt bSYS 0x30 32 2 true 1).reason = 0 ∧ (busWrite (begun (tLine 0) false s) reqMgmt bSEC 0x60 32 0 true 1).reason = 0 ∧
      (busRead (begun (tLine 0) false s) reqMgmt 5 0x7FFC 32).reason = 2 ∧ (busRead (begun (tLine 0) false s) reqMgmt bSYS 0x14 32).reason = 0) := by
  refine ⟨?_, ⟨And.intro (by decide) rfl, rfl, by decide⟩, ⟨?_, ?_, ?_, Or.inl rfl, ?_⟩, ⟨?_, ?_, ?_, Or.inl rfl, ?_⟩, ?_⟩ <;> decide +kernel

/-- The clauses of `SalesTransitions` have cases: each sales state, P on each side of the window, a refused mode, a starved clock, a book of the scope and one outside, a mask that empties and one that does not, an entry write of each answer. -/
theorem wit_SalesTransitions :
    (let s := tBook 2 { emptyBook with pb := 2 ^ 60 }; s.inMode .sealed = false ∧ s.inMode .audit = false ∧ s.inMode .hold = false ∧ s.mode = some .live ∧ (tBook 4 emptyBook).mode = some .audit ∧ (tBook 5 emptyBook).mode = some .replay ∧ (tBook 6 emptyBook).inMode .hold = true ∧
      (getBook s 0 0).sales = .dormant ∧ s.tim.u + (getBook s 0 0).margin * 1000 + s.now < (getBook s 0 0).pb ∧ (getBook s 0 1).pb ≤ s.tim.u + (getBook s 0 1).margin * 1000 + s.now ∧ onSale (getBook s 0 0) = false ∧ { s with tim.qual := .starved }.tim.qual = .starved ∧
      entryReason s (getBook s 0 0) 5 5 = 0 ∧ State.reset.mode = some .sealed ∧ State.reset.sec.s5done = false) ∧
    (let k : Book := { emptyBook with st := votedOf 1, pb := 2 ^ 60 }; let s := tBook 2 k; onSale (getBook s 0 0) = true ∧ (0, 0) ∈ scopeBooks s 2 0 0 ∧ (0, 1) ∉ scopeBooks s 0 0 0 ∧ followsRecord s 0 = false ∧ (getBook s 0 0).cause ||| 1 ≠ (getBook s 0 0).cause ∧ s.now < (getBook s 0 0).pb ∧
      entryReason s (getBook s 0 0) 5 5 = 2) ∧
    (let k : Book := { emptyBook with st := votedOf 4, pb := 2 ^ 60, cause := 9 }; let s := tBook 2 { k with cause := 3 }; let s2 := tBook 2 k; (getBook s 0 0).sales = .suspended ∧ (getBook s 0 0).cause &&& (127 ^^^ 3) = 0 ∧ (getBook s 0 0).cause &&& (127 ^^^ 2) = 1 ∧ (getBook s 0 0).cause &&& 3 &&& 8 = 0 ∧
      s.now + s.tim.u + (getBook s 0 0).margin * 1000 < (getBook s 0 0).pb ∧ (getBook s2 0 0).cause &&& 8 &&& 8 ≠ 0 ∧ ¬ (s.tim.qual = .starved ∨ s.tim.qual = .breach) ∧ (getBook (tBook 2 { k with pb := 0 }) 0 0).pb ≤ s.now + s.tim.u) ∧
    ((getBook (tBook 2 { emptyBook with st := votedOf 3 }) 0 0).sales = .closed ∧ (getBook (tBook 2 { emptyBook with st := votedOf 2 }) 0 0).sales = .parting) := by
  refine ⟨?_, ?_, ?_, ?_, ?_⟩ <;> decide +kernel

/-- The clauses of `CanonicalResults` have cases: an INT, a BIGNUM, a RATIO, a reservation that fits and one that does not, a w30 at U, an identity counter of another tag and one at its end, an ALLOC that is no address, stores that succeed and that trap. -/
theorem wit_CanonicalResults :
    (lowest 6 (-4) = (-3, 2) ∧ lowest (2 ^ 64) 1 = (2 ^ 64, 1) ∧ lowest 6 3 = (2, 1) ∧ in64 2 = true ∧ in64 (2 ^ 64) = false ∧ limbsOf (2 ^ 64) = 2 ∧ limbsOf (-(2 ^ 63)) = 1 ∧ limbsOf (2 ^ 63) = 2 ∧ limbsOf (2 ^ 65536) > 1024) ∧
    (let s := tAt 0 tRoom []; let k := getCore s tC; k.alimit.val.toNat ≥ (reg s tC 31).val.toNat + 24 ∧ k.alimit.val.toNat < (reg s tC 31).val.toNat + 2 ^ 24 ∧ k.idctr.tag = tINT ∧ k.idctr.val.toNat + 1 ≤ 2 ^ 40 ∧ ptrOk (reg s tC 31).val = true ∧ destBad s tC 1 wNil = false ∧
      okIsSome (plainWords s tC (objStores 0x3E0000100000 0 [⟨some 0x13, limbWords (2 ^ 64)⟩])) (fun _ _ => true) = true) ∧
    (let s := updCore (tAt 0 [(31, tw tRAW 1)] []) tC (fun k => { k with idctr := wNil, status := 0 }); (getCore s tC).idctr.tag ≠ tINT ∧ ptrOk (reg s tC 31).val = false ∧ destBad s tC 30 (wInt 2) = true) ∧
    (2 ^ 40 < (tw tINT (2 ^ 40)).val.toNat + 1 ∧ okIsSome (plainWords (tUser 0) tC [(0x4000, wNil)]) (fun _ _ => true) = false) := by
  refine ⟨?_, ?_, ?_, ?_, ?_⟩ <;> decide +kernel

/-- A core at a level with a page of flags at 0x2000, memory words set, and card base and condemned range 0 as given. -/
def tSlot (lvl flags : Nat) (m : Map TWord) (card : TWord) (base limit : Nat) : State :=
  updCore (tAt 0 [] m) tC (fun k => { k with status := lvl, tlb := [(0, ⟨if lvl = 2 then 0xFF else 0, 0x2000, 0, BitVec.ofNat 64 (0x4000 + flags), 0x8000⟩)], cardbase := card,
                                              condemn := tw tRAW base :: tw tRAW limit :: k.condemn.drop 2 })
/-- The clauses of `Translation` have cases: the window and its aperture, a page that is mapped and one that is not, an access that is permitted and one that is not, an update of A that succeeds and one that fails. -/
theorem wit_Translation :
    (let s := tAt 0 [] []; (getCore s tC).level = 2 ∧ inWindow 0x3E0000040000 = true ∧ windowTgt 0x3E0000040000 = .aperture ∧ windowTgt 0x3E0000000000 = .dram ∧ isWrite kSTORE = true ∧ isWrite kLOAD = false ∧ inWindow 0x2000 = false) ∧
    (let s := tSlot 0 0x77 [] wNil 0 0; let e : TlbEnt := ⟨0, 0x2000, 0, BitVec.ofNat 64 (0x4000 + 0x77), 0x8000⟩; (∀ p ∈ (getCore s tC).tlb, ¬ (p.2.asid = 0 ∧ p.2.va ≤ 0x9000 ∧ 0x9000 < p.2.va + pageBytes p.2.size)) ∧ lookup (getCore s tC).tlb 0 0x2000 = some (0, e) ∧
      permReason e 0 kFETCH ≠ 0 ∧ permReason e 0 kSTORE = 0 ∧ pteBit e 5 = true ∧ pteBit e 6 = true ∧ pteBit e 4 = true) ∧
    (let s := tSlot 0 0x17 [(0x8000, ⟨tRAW, 0x4017⟩)] wNil 0 0; let s2 := tSlot 0 0x17 [] wNil 0 0; let e : TlbEnt := ⟨0, 0x2000, 0, 0x4017, 0x8000⟩; lookup (getCore s tC).tlb 0 0x2000 = some (0, e) ∧ pteBit e 5 = false ∧ mem s e.pte = ⟨tRAW, e.img⟩ ∧ mem s2 e.pte ≠ ⟨tRAW, e.img⟩) ∧
    (∀ j, (0x4077 : BitVec 64).toNat.testBit j = (j == 5 || (true && j == 6) || (0x4017 : BitVec 64).toNat.testBit j)) := by
  refine ⟨?_, ?_, ?_, fun j => ?_⟩
  · decide +kernel
  · decide +kernel
  · decide +kernel
  · rw [show (0x4077 : BitVec 64).toNat = 0x4017 ||| (2 ^ 5 ||| 2 ^ 6) by decide, show (0x4017 : BitVec 64).toNat = 0x4017 by decide]
    simp only [Nat.testBit_or, Nat.testBit_two_pow, Bool.true_and]
    by_cases h5 : j = 5
    · subst h5; decide
    · by_cases h6 : j = 6
      · subst h6; decide
      · simp [h5, h6, Ne.symm h5, Ne.symm h6]

/-- The clauses of `SlotAccess` have cases: each check of a loaded word, the read barrier with a forwarded object, with none and with an unreadable one, a heal, a card that is due, is not, and cannot be marked. -/
theorem wit_SlotAccess :
    (let s := tSlot 0 0x77 [(0x4000, ⟨0x99, 0⟩), (0x4008, ⟨tRAW, 0⟩), (0x4010, wInt 5)] wNil 0 0; okIsSome (xlate s tC 0x9000 kLOAD) (fun _ _ => true) = false ∧ okIsSome (xlate s tC 0x2000 kLOAD) (fun a x => a == s && okVal (rdAt a tC x 64) ⟨0x99, 0⟩) = true ∧
      okVal (loadSlot s tC 1 0x2000 64) ⟨0x99, 0⟩ = false ∧ okVal (loadSlot s tC 1 0x2008 64) ⟨tRAW, 0⟩ = false ∧ okVal (loadSlot s tC 30 0x2010 64) (wInt 5) = false ∧ okVal (loadSlot s tC 1 0x2010 64) (wInt 5) = true) ∧
    (let s := tAt 0 [] []; okIsSome (xlate s tC 0x3E0000040000 kLOAD) (fun a x => !okIsSome (rdAt a tC x 64) (fun _ _ => true)) = true) ∧
    (let m (v : TWord) (a : Nat) : State := tSlot 1 0x67 [(0x4000, tw tCONS a), (0x5008, v)] wNil 0x3000 0x9000;
      condemned (getCore (m wNil 0x3008) tC) 0x3008 = true ∧ condemned (getCore (m wNil 0x3008) tC) 0x2000 = false ∧ ptrOk (tw tCONS 0x3001).val = false ∧ ptrOk (tw tCONS 0x3008).val = true ∧ okIsSome (ldWord (m wNil 0x8000) tC 0x8000 kLOAD 64) (fun _ _ => true) = false ∧
      okIsSome (ldWord (m (tw tFORWARD 0x2020) 0x3008) tC 0x3008 kLOAD 64) (fun a x => a == m (tw tFORWARD 0x2020) 0x3008 && x.2 == tw tFORWARD 0x2020) = true ∧ okVal (loadSlot (m (tw tFORWARD 0x2020) 0x3008) tC 1 0x2000 64) (tw tCONS 0x2020) = true ∧ okIsSome (loadSlot (m wNil 0x3008) tC 1 0x2000 64) (fun _ _ => true) = false) ∧
    (let s := tSlot 1 0x67 [(0x4000, tw tCONS 0x3008)] wNil 0 0; let x : Xl := ⟨0x2000, 0x4000, .dram, 0, 0, true⟩; okVal (xlate s tC 0x2000 kSTORE) x = true ∧ mem s x.pa = tw tCONS 0x3008 ∧ mem s x.pa ≠ wNil ∧ okVal (cardOf s tC x wNil) [] = true ∧ okVal (wrAll s tC []) () = true) ∧
    (let c (b : Nat) (m : Map TWord) : State := tSlot 1 0x267 m (tw tRAW b) 0 0; let x : Xl := ⟨0x2000, 0x4000, .dram, 0, 1, true⟩; okVal (xlate (c 0x2800 []) tC 0x2000 kSTORE) x = true ∧ lookup (getCore (c 0x2800 []) tC).tlb 0 0x9000 = none ∧ (tw tCONS 0x9000).tag ∈ heapTags ∧ 2 ^ 48 ≤ (tw tRAW (2 ^ 48)).val.toNat ∧
      okIsSome (ldCard (c 0x2800 []) tC 0x2810) (fun _ y => y.2.tag == tRAW) = true ∧ okIsSome (ldCard (c 0x2800 [(0x4810, wNil)]) tC 0x2810) (fun _ y => y.2.tag != tRAW) = true ∧ okIsSome (ldCard (c 0x8000 []) tC 0x8010) (fun _ _ => true) = false ∧
      okIsSome (stWord (c 0x2800 []) tC 0x2000 (tw tCONS 0x9000) 64) (fun a _ => mem a 0x4000 == tw tCONS 0x9000 && mem a 0x4810 == ⟨tRAW, 1⟩) = true) := by
  refine ⟨?_, ?_, ?_, ?_, ?_⟩ <;> decide +kernel

/-- The clauses of `RegistersAndRetirement` have cases: register numbers in and beyond a group's end, each level, EG clear, within its count and at its end, a word of memory and its neighbour, a canonical memory. -/
theorem wit_RegistersAndRetirement :
    (31 < (getCore (tAt 0 [] []) tC).regs.length ∧ (0 : Nat) ≠ tC ∧ (getCore (tAt 0 [] []) tC).eg = false ∧ { coreReset with status := 0x80 }.eg = true ∧ coreReset.egCount < 15 ∧ 15 ≤ { coreReset with egCount := 15 }.egCount) ∧
    0x100F / 8 = 0x1008 / 8 ∧ 0x1010 / 8 ≠ 0x1008 / 8 ∧ MemInv (tAt 0 [] []) := by
  refine ⟨?_, ?_, ?_, show Memory.wf _ = true from ?_⟩ <;> decide +kernel

/-- The clauses of `RefusedLines` have cases: each refusal of Table 22.3 in a device of LIVE, one in S5 and one held; a tag that is known, known for another line, and known at a higher authority; a tag cache that is full. -/
theorem wit_RefusedLines :
    (let s := tAuth .primary 2 .operate; readsLine s 0 = true ∧ s.sec.s5done = true ∧ { s with pwr.held := true }.pwr.held = true ∧ State.reset.sec.s5done = false ∧ readsLine State.reset 0 = true ∧ readsLine { s with pwr.held := true } 0 = false ∧ State.reset.sec.recovery = false ∧
      (let u := begun (tLine 0) false s; u.mode = some .live ∧ DMode.live ∉ [DMode.quiet] ∧ DMode.live ∈ allModes ∧ 0 ∉ [1] ∧ (getCon u 0).auth.code < Auth.code .engineer ∧ Auth.code .observe ≤ (getCon u 0).auth.code ∧ stage7 u (tLine 0) (spec .engineer allModes true) = some (eAUTHORITY, [])) ∧
      (begun (tLine 0) false { s with sys.mode := ⟨1, 2, 3⟩ }).mode = none) ∧
    (let c : Cmd := { tWait .formed with tag := [65], line := [66], auth := .regulate }; let s (n : Nat) : State := updCon (tAuth .primary 2 .operate) 0 (fun k => { k with tags := List.replicate n c }); let l : ConLine := ⟨0, [66], [65]⟩;
      findTag (begun l false (s 1)) l = some c ∧ normText c.line = normText l.text ∧ normText c.line ≠ normText [67] ∧ (getCon (begun l false (s 1)) 0).auth.code < c.auth.code ∧ findTag (begun ⟨0, [66], [68]⟩ false (s 1)) ⟨0, [66], [68]⟩ = none) := by
  refine ⟨?_, ?_⟩ <;> decide +kernel

theorem wit_StepRunsFront : { State.reset with pending := [Instr.pauseFrame 0, .uRecompute] }.pending = .pauseFrame 0 :: [.uRecompute] ∧ State.reset.pending = [] := ⟨rfl, rfl⟩



theorem wit_OneTimeStorage : step State.reset = .next (idle State.reset) ∧ ∀ k < 2, step ((fun n : Nat => if n = 0 then State.reset else if n = 1 then idle State.reset else idle (idle State.reset)) k) = .next ((fun n : Nat => if n = 0 then State.reset else if n = 1 then idle State.reset else idle (idle State.reset)) (k + 1)) := by
  refine ⟨rfl, fun k hk => ?_⟩
  rcases k with _ | _ | k
  · rfl
  · rfl
  · omega



end Sys2Proof.Machine
end

section
/-! PROOFS. The sales states of Table 2.5 (R57 to R60, R161, R173, Table 6.4): one rule for a changed entry and for a list of
changed entries, which operations leave the books as they are, what BOOKSTAT then reads, and from these what each operation of
PRT.BOOKCMD, an entry write and a parting do to every book. -/
namespace Sys2Proof.Machine

open Sys2Proof

/-! ### Events, grains and BOOKSTAT leave the books as they are -/

theorem foldl_books {α : Type} {g : State → α → State} (h : ∀ a x, (g a x).books = a.books) (l : List α) (s : State) :
    (l.foldl g s).books = s.books := by
  induction l generalizing s with
  | nil => rfl
  | cons x l ih => exact (ih (g s x)).trans (h s x)

@[simp] theorem logEvent_books (s : State) (e : ElogEvent) : (logEvent s e).books = s.books := rfl

@[simp] theorem reqGrain_books (s : State) (g : GReq) : (reqGrain s g).books = s.books := rfl

@[simp] theorem evtOn_books (s : State) (c : Nat) (l : EvtLine) : (evtOn s c l).books = s.books := by
  unfold evtOn
  split
  · rfl
  · dsimp only; split <;> rfl

@[simp] theorem evtLine_books (s : State) (l : EvtLine) : (evtLine s l).books = s.books := by
  unfold evtLine
  dsimp only
  split
  · rfl
  · split <;> split <;> simp

@[simp] theorem reqD_books (s : State) (g : GReq) : (reqD s g).books = s.books := by
  unfold reqD; dsimp only; split <;> simp

@[simp] theorem eventAt_books (s : State) (typ kind code : Nat) (par : List Nat) (tai u cjn : Nat) :
    (eventAt s typ kind code par tai u cjn).books = s.books := by
  unfold eventAt; dsimp only; split <;> simp

@[simp] theorem eventT_books (s : State) (t typ kind : Nat) (body : List Byte) (tai u book cjn : Nat) :
    (eventT s t typ kind body tai u book cjn).books = s.books := by
  unfold eventT; split <;> simp

@[simp] theorem salesEvents_books (s : State) (set mask : Nat) (bs : List (Nat × Nat)) (te cjn : Nat) :
    (salesEvents s set mask bs te cjn).books = s.books := by
  unfold salesEvents
  split
  · rfl
  · simp [foldl_books]

@[simp] theorem configBook_books (s : State) (t b : Nat) (old : Book) (te cjn : Nat) :
    (configBook s t b old te cjn).books = s.books := by simp [configBook]

@[simp] theorem bookStat_books (s : State) (reason nref te : Nat) : (bookStat s reason nref te).books = s.books := rfl

theorem getBook_congr {x s : State} (h : x.books = s.books) (t b : Nat) : getBook x t b = getBook s t b := by
  unfold getBook; rw [h]

@[simp] theorem getBook_bookStat (s : State) (reason nref te t b : Nat) :
    getBook (bookStat s reason nref te) t b = getBook s t b := rfl

@[simp] theorem getBook_configBook (s : State) (t b : Nat) (old : Book) (te cjn t' b' : Nat) :
    getBook (configBook s t b old te cjn) t' b' = getBook s t' b' := getBook_congr (configBook_books ..) t' b'

@[simp] theorem getBook_salesEvents (s : State) (set mask : Nat) (bs : List (Nat × Nat)) (te cjn t b : Nat) :
    getBook (salesEvents s set mask bs te cjn) t b = getBook s t b := getBook_congr (salesEvents_books ..) t b

/-- The reason that BOOKSTAT shows is the one it was given: EFF stands in other registers. -/
theorem bookReason_bookStat (s : State) {reason : Nat} (nref te : Nat) (h : reason < 16) :
    bookReason (bookStat s reason nref te) = reason := by
  have hlo : rkey bPRT 0x28 ≠ rkey bPRT 0x2C := by decide
  have hhi : rkey bPRT 0x28 ≠ rkey bPRT (0x2C + 4) := by decide
  simp only [bookReason, fget, rawGet, bookStat, set64, rawSet_sys_regs, lk_ins_of_ne _ _ hlo, lk_ins_of_ne _ _ hhi,
    lk_ins_self, BitVec.toNat_ofNat, bits, Nat.shiftRight_eq_div_pow]
  split <;> omega

/-! ### A changed entry -/

/-- An entry with its effective instant and the versions kept beside it. -/
def Book.stamped (k : Book) (te : Nat) (prev : List BookVer) : Book := { k with te := te, prev := prev }

theorem bkey_inj {t b t' b' : Nat} (hb : b < 4096) (hb' : b' < 4096) (h : bkey t' b' = bkey t b) : (t', b') = (t, b) := by
  unfold bkey at h
  rw [Prod.mk.injEq]; omega

theorem getBook_changeBook_self (s : State) (t b te : Nat) (f : Book → Book) :
    getBook (changeBook s t b te f) t b =
      (f (getBook s t b)).stamped te ((getBook s t b).ver :: keepVers s.now te (getBook s t b).prev) := by
  simp [changeBook, getBook, lkD, Book.stamped]

theorem getBook_changeBook_of_ne (s : State) {t b t' b' : Nat} (te : Nat) (f : Book → Book) (hb : b < 4096) (hb' : b' < 4096)
    (h : (t', b') ≠ (t, b)) : getBook (changeBook s t b te f) t' b' = getBook s t' b' := by
  have hk : bkey t' b' ≠ bkey t b := fun e => h (bkey_inj hb hb' e)
  simp [changeBook, getBook, lkD, lk_ins_of_ne _ _ hk]

theorem sales_of_st {k : Book} {a : Sales} (h : k.st = votedOf a.code) : k.sales = a := by
  unfold Book.sales; rw [h]; cases a <;> rfl

theorem sales_congr {k k' : Book} (h : k.st = k'.st) : k.sales = k'.sales := by unfold Book.sales; rw [h]

theorem onSale_iff (k : Book) : onSale k = true ↔ k.sales = .open ∨ k.sales = .suspended := by simp [onSale]

/-! ### A list of entries changed alike -/

/-- Every entry of a list changed by f at one effective instant. -/
def changeBooks (s : State) (l : List (Nat × Nat)) (te : Nat) (f : Book → Book) : State :=
  l.foldl (fun a p => changeBook a p.1 p.2 te f) s

section
variable {l : List (Nat × Nat)} {t b : Nat} {te : Nat} {f : Book → Book}

theorem getBook_changeBooks_of_notMem (s : State) (hl : ∀ p ∈ l, p.2 < 4096) (hb : b < 4096) (h : (t, b) ∉ l) :
    getBook (changeBooks s l te f) t b = getBook s t b := by
  induction l generalizing s with
  | nil => rfl
  | cons p l ih =>
    rw [List.forall_mem_cons] at hl
    rw [List.mem_cons, not_or] at h
    exact (ih (changeBook s p.1 p.2 te f) hl.2 h.2).trans (getBook_changeBook_of_ne s te f hl.1 hb h.1)

/-- What f keeps, whatever versions stand beside an entry, a list of changes keeps. -/
theorem changeBooks_keeps {P : Book → Prop} (s : State) (hl : ∀ p ∈ l, p.2 < 4096) (hb : b < 4096)
    (hf : ∀ k v, P k → P ((f k).stamped te v)) (h : P (getBook s t b)) :
    P (getBook (changeBooks s l te f) t b) := by
  induction l generalizing s with
  | nil => exact h
  | cons p l ih =>
    rw [List.forall_mem_cons] at hl
    refine ih (changeBook s p.1 p.2 te f) hl.2 ?_
    by_cases hp : (t, b) = p
    · subst hp
      rw [getBook_changeBook_self]; exact hf _ _ h
    · rw [getBook_changeBook_of_ne s te f hl.1 hb hp]; exact h

/-- What f brings about and keeps, an entry of the list has after the changes, however often the list names it. -/
theorem changeBooks_of_mem {P : Book → Prop} (s : State) (hl : ∀ p ∈ l, p.2 < 4096) (hb : b < 4096) (h : (t, b) ∈ l)
    (hf : ∀ k v, P k → P ((f k).stamped te v)) (h1 : ∀ v, P ((f (getBook s t b)).stamped te v)) :
    P (getBook (changeBooks s l te f) t b) := by
  induction l generalizing s with
  | nil => simp at h
  | cons p l ih =>
    rw [List.forall_mem_cons] at hl
    by_cases hp : (t, b) = p
    · subst hp
      refine changeBooks_keeps (l := l) (changeBook s t b te f) hl.2 hb hf ?_
      rw [getBook_changeBook_self]; exact h1 _
    · refine ih (changeBook s p.1 p.2 te f) hl.2 (List.mem_of_ne_of_mem hp h) fun v => ?_
      rw [getBook_changeBook_of_ne s te f hl.1 hb hp]; exact h1 v

end

theorem scopeBooks_snd_lt (s : State) (scope t : Nat) {b : Nat} (hb : b < 4096) : ∀ p ∈ scopeBooks s scope t b, p.2 < 4096 := by
  intro p hp
  unfold scopeBooks at hp
  split at hp
  · rw [List.mem_singleton] at hp; subst hp; exact hb
  · rw [List.mem_filter, List.mem_map] at hp
    obtain ⟨⟨q, _, rfl⟩, _⟩ := hp
    exact Nat.mod_lt _ (by decide)

/-- The fields of an entry that the sales rules speak of. -/
def Shows (a : Sales) (cause pb margin : Nat) (k : Book) : Prop :=
  k.sales = a ∧ k.cause = cause ∧ k.pb = pb ∧ k.margin = margin

/-! ### Causes set (R59, R60) -/

/-- An entry with causes set: SUSPENDED. -/
def suspendedBy (mask : Nat) (k : Book) : Book := { k with cause := k.cause ||| mask, st := votedOf Sales.suspended.code }

/-- The books of a list that causes suspend. -/
def setHits (s : State) (mask : Nat) (bs : List (Nat × Nat)) : List (Nat × Nat) :=
  bs.filter (fun p => onSale (getBook s p.1 p.2) && !followsRecord s p.1 &&
    decide ((getBook s p.1 p.2).cause ||| mask ≠ (getBook s p.1 p.2).cause))

theorem mem_setHits (s : State) (mask : Nat) (bs : List (Nat × Nat)) (t b : Nat) :
    (t, b) ∈ setHits s mask bs ↔ (t, b) ∈ bs ∧ onSale (getBook s t b) = true ∧ followsRecord s t = false ∧
      (getBook s t b).cause ||| mask ≠ (getBook s t b).cause := by
  simp [setHits, and_assoc]

theorem setCauses_eq {s : State} (hh : s.inMode .hold = false) (mask : Nat) (bs : List (Nat × Nat)) (te cjn : Nat) :
    setCauses s mask bs te cjn =
      salesEvents (changeBooks s (setHits s mask bs) te (suspendedBy mask)) 1 mask (setHits s mask bs) te cjn := by
  unfold setCauses; rw [hh]; rfl

theorem setHits_snd_lt {s : State} {bs : List (Nat × Nat)} (mask : Nat) (h : ∀ p ∈ bs, p.2 < 4096) :
    ∀ p ∈ setHits s mask bs, p.2 < 4096 := fun p hp => h p (List.mem_filter.mp hp).1

section
variable {s : State} {mask : Nat} {bs : List (Nat × Nat)} {t b : Nat} (te cjn : Nat)

theorem setCauses_shows_of_mem (hh : s.inMode .hold = false) (hl : ∀ p ∈ bs, p.2 < 4096) (hb : b < 4096)
    (h : (t, b) ∈ setHits s mask bs) : Shows .suspended ((getBook s t b).cause ||| mask) (getBook s t b).pb
      (getBook s t b).margin (getBook (setCauses s mask bs te cjn) t b) := by
  rw [setCauses_eq hh, getBook_salesEvents]
  refine changeBooks_of_mem s (setHits_snd_lt mask hl) hb h (fun k v hk => ?_) fun v => ?_
  · obtain ⟨_, hcause, hpb, hmargin⟩ := hk
    have hagain : k.cause ||| mask = (getBook s t b).cause ||| mask := by rw [hcause, Nat.or_assoc, Nat.or_self]
    exact ⟨sales_of_st rfl, hagain, hpb, hmargin⟩
  · exact ⟨sales_of_st rfl, rfl, rfl, rfl⟩

theorem getBook_setCauses_of_notMem (hh : s.inMode .hold = false) (hl : ∀ p ∈ bs, p.2 < 4096) (hb : b < 4096)
    (h : (t, b) ∉ setHits s mask bs) : getBook (setCauses s mask bs te cjn) t b = getBook s t b := by
  rw [setCauses_eq hh, getBook_salesEvents]
  exact getBook_changeBooks_of_notMem s (setHits_snd_lt mask hl) hb h

end

/-! ### Causes cleared (R59, R173) -/

/-- An entry with causes cleared: OPEN where no cause is left. -/
def clearedBy (mask : Nat) (k : Book) : Book :=
  { k with cause := k.cause &&& (127 ^^^ mask), st := if k.cause &&& (127 ^^^ mask) = 0 then votedOf Sales.open.code else k.st }

/-- The books of a list whose mask a clear reduces. -/
def clearHits (s : State) (mask : Nat) (bs : List (Nat × Nat)) (mirrorOk : Nat → Bool) (te : Nat) : List (Nat × Nat) :=
  bs.filter (fun p => clearOutcome s mask (mirrorOk p.1) te (getBook s p.1 p.2) == 1 ||
    clearOutcome s mask (mirrorOk p.1) te (getBook s p.1 p.2) == 2)

/-- An entry whose mask a clear reduces: it is SUSPENDED, a cause of the mask is set in it, MIRROR may be cleared, and where no
cause is left its window is open. -/
def ClearTakes (s : State) (mask : Nat) (mirrorOk : Bool) (te : Nat) (k : Book) : Prop :=
  k.sales = .suspended ∧ k.cause &&& (127 ^^^ mask) ≠ k.cause ∧ (k.cause &&& mask &&& 8 = 0 ∨ mirrorOk = true) ∧
    (k.cause &&& (127 ^^^ mask) ≠ 0 ∨ te + s.tim.u + k.margin * 1000 < k.pb)

/-- The seven bits of CAUSE hold all that a mask below 128 leaves. -/
theorem bits_and_xor {mask : Nat} (h : mask < 128) (c : Nat) : bits c 0 7 &&& (127 ^^^ mask) = c &&& (127 ^^^ mask) := by
  have hx : 127 ^^^ mask < 2 ^ 7 := Nat.xor_lt_two_pow (by decide) h
  calc bits c 0 7 &&& (127 ^^^ mask)
      = c &&& (127 &&& (127 ^^^ mask)) := by
        rw [bits, Nat.shiftRight_zero, ← Nat.and_two_pow_sub_one_eq_mod, Nat.and_assoc]
    _ = c &&& (127 ^^^ mask) := by
        rw [Nat.and_comm 127]; exact congrArg (c &&& ·) (Nat.and_two_pow_sub_one_of_lt_two_pow hx)

theorem clearOutcome_iff {mask : Nat} (hm : mask < 128) (s : State) (mirrorOk : Bool) (te : Nat) (k : Book) :
    (clearOutcome s mask mirrorOk te k == 1 || clearOutcome s mask mirrorOk te k == 2) = true ↔ ClearTakes s mask mirrorOk te k := by
  unfold clearOutcome ClearTakes
  simp only [bits_and_xor hm, cMIRROR]
  split
  · simp [*]
  · split
    · simp [*]
    · split
      · simp_all
      · rename_i hsales hcause hmirror
        have hok : k.cause &&& mask &&& 8 = 0 ∨ mirrorOk = true := by
          rw [not_and_or, not_not, Bool.not_eq_false] at hmirror; exact hmirror
        rw [not_not] at hsales
        split
        · simp [*]
        · split <;> simp [*]

theorem mem_clearHits {mask : Nat} (hm : mask < 128) (s : State) (bs : List (Nat × Nat)) (mirrorOk : Nat → Bool) (te t b : Nat) :
    (t, b) ∈ clearHits s mask bs mirrorOk te ↔ (t, b) ∈ bs ∧ ClearTakes s mask (mirrorOk t) te (getBook s t b) := by
  rw [clearHits, List.mem_filter, clearOutcome_iff hm]

theorem clearCauses_eq (s : State) (mask : Nat) (bs : List (Nat × Nat)) (mirrorOk : Nat → Bool) (te cjn : Nat) :
    clearCauses s mask bs mirrorOk te cjn = salesEvents (changeBooks s (clearHits s mask bs mirrorOk te) te (clearedBy mask)) 0 mask
      (clearHits s mask bs mirrorOk te) te cjn := by
  have hmap : ((bs.map (fun p => (p, clearOutcome s mask (mirrorOk p.1) te (getBook s p.1 p.2)))).filter
      (fun p => p.2 == 1 || p.2 == 2)).map (·.1) = clearHits s mask bs mirrorOk te := by
    simp [clearHits, List.filter_map, Function.comp_def]
  unfold changeBooks
  rw [← hmap, List.foldl_map]
  rfl

theorem clearHits_snd_lt {s : State} {bs : List (Nat × Nat)} (mask : Nat) (mirrorOk : Nat → Bool) (te : Nat) (h : ∀ p ∈ bs, p.2 < 4096) :
    ∀ p ∈ clearHits s mask bs mirrorOk te, p.2 < 4096 := fun p hp => h p (List.mem_filter.mp hp).1

section
variable {s : State} {mask : Nat} {bs : List (Nat × Nat)} {mirrorOk : Nat → Bool} {te t b : Nat} (cjn : Nat)

theorem clearCauses_shows_of_mem (hm : mask < 128) (hl : ∀ p ∈ bs, p.2 < 4096) (hb : b < 4096) (h : (t, b) ∈ clearHits s mask bs mirrorOk te) :
    Shows (if (getBook s t b).cause &&& (127 ^^^ mask) = 0 then .open else .suspended) ((getBook s t b).cause &&& (127 ^^^ mask))
      (getBook s t b).pb (getBook s t b).margin (getBook (clearCauses s mask bs mirrorOk te cjn) t b) := by
  obtain ⟨hsales, _⟩ := ((mem_clearHits hm ..).mp h).2
  rw [clearCauses_eq, getBook_salesEvents]
  refine changeBooks_of_mem s (clearHits_snd_lt mask mirrorOk te hl) hb h (fun k v hk => ?_) fun v => ?_
  · obtain ⟨hk, hcause, hpb, hmargin⟩ := hk
    have hagain : k.cause &&& (127 ^^^ mask) = (getBook s t b).cause &&& (127 ^^^ mask) := by
      rw [hcause, Nat.and_assoc, Nat.and_self]
    refine ⟨?_, hagain, hpb, hmargin⟩
    split
    · exact sales_of_st (if_pos (by rwa [hagain]))
    · rename_i hne
      rw [if_neg hne] at hk
      exact (sales_congr (if_neg (by rwa [hagain]))).trans hk
  · refine ⟨?_, rfl, rfl, rfl⟩
    split
    · rename_i hz; exact sales_of_st (if_pos hz)
    · rename_i hne; exact (sales_congr (if_neg hne)).trans hsales

theorem getBook_clearCauses_of_notMem (hl : ∀ p ∈ bs, p.2 < 4096) (hb : b < 4096) (h : (t, b) ∉ clearHits s mask bs mirrorOk te) :
    getBook (clearCauses s mask bs mirrorOk te cjn) t b = getBook s t b := by
  rw [clearCauses_eq, getBook_salesEvents]
  exact getBook_changeBooks_of_notMem s (clearHits_snd_lt mask mirrorOk te hl) hb h

end

/-! ### The operations of PRT.BOOKCMD (Table 6.4) -/

theorem bookModeBad_of_mode {s : State} {op : Nat} (hop : op ≠ 5)
    (h : s.inMode .sealed = true ∨ s.inMode .audit = true ∨ s.inMode .hold = true) : bookModeBad s op = true := by
  simpa [bookModeBad, hop, or_assoc] using h

theorem bookModeBad_of_not_mode {s : State} {op : Nat} (hop : op ≠ 5) (hs : s.inMode .sealed = false) (ha : s.inMode .audit = false)
    (hh : s.inMode .hold = false) : bookModeBad s op = false := by simp [bookModeBad, hop, hs, ha, hh]

/-- RESTORE has modes of its own: SEALED before S5 ends, and REPLAY. -/
theorem bookModeBad_restore (s : State) :
    bookModeBad s 5 = decide (¬ ((s.inMode .sealed = true ∧ s.sec.s5done = false) ∨ s.inMode .replay = true)) := by
  simp [bookModeBad]

/-- An operation that only reports a reason leaves every book as it was. -/
theorem bookStat_refuses (s : State) {reason : Nat} (nref te : Nat) (h : reason < 16) :
    (bookStat s reason nref te).books = s.books ∧ bookReason (bookStat s reason nref te) = reason :=
  ⟨rfl, bookReason_bookStat s nref te h⟩

/-- A word of BOOKCMD holds its book, tenant, scope and operation in their fields. -/
theorem bits_bookWord {t b scope op : Nat} (ht : t < 64) (hb : b < 4096) (hscope : scope < 4) (hop : op < 16) :
    bits (b + 2 ^ 12 * t + 2 ^ 18 * scope + 2 ^ 20 * op) 0 12 = b ∧ bits (b + 2 ^ 12 * t + 2 ^ 18 * scope + 2 ^ 20 * op) 12 6 = t ∧
    bits (b + 2 ^ 12 * t + 2 ^ 18 * scope + 2 ^ 20 * op) 18 2 = scope ∧ bits (b + 2 ^ 12 * t + 2 ^ 18 * scope + 2 ^ 20 * op) 20 4 = op ∧
    (b + 2 ^ 12 * t + 2 ^ 18 * scope + 2 ^ 20 * op) % 2 ^ 24 = b + 2 ^ 12 * t + 2 ^ 18 * scope + 2 ^ 20 * op := by
  simp only [bits, Nat.shiftRight_eq_div_pow]
  omega

/-- A word whose scope and operation are valid runs its operation, with BOOKARG, after BOOKCMD has taken the word. -/
theorem bookCmd_runs (s : State) (ok : Nat → Bool) (n : Nat) {t b scope op w e : Nat} {r : State} (ht : t < 64) (hb : b < 4096)
    (hscope : scope < 3) (hw : w = b + 2 ^ 12 * t + 2 ^ 18 * scope + 2 ^ 20 * op) (hr : r = rawSet s bPRT 0x20 w)
    (he : e = fget r bPRT 0x24 4 7) :
    (op = 1 → bookCmd s w ok n = cmdOpen r scope t b n) ∧ (op = 2 → bookCmd s w ok n = cmdSetCause r scope t b e n) ∧
    (op = 3 → bookCmd s w ok n = cmdClearCause r scope t b e ok n) ∧ (op = 4 → bookCmd s w ok n = cmdRelease r scope t b n) ∧
    (op = 5 → bookCmd s w ok n = cmdRestore r scope t b (fget r bPRT 0x24 0 3) e) := by
  subst he hr hw
  refine ⟨?_, ?_, ?_, ?_, ?_⟩ <;> intro hop <;>
  · obtain ⟨hbook, htenant, hscope', hop', hlow⟩ := bits_bookWord ht hb (show scope < 4 by omega) (show op < 16 by omega)
    unfold bookCmd
    rw [hbook, htenant, hscope', hop', hlow]
    subst hop
    exact if_neg (by omega)

theorem refused_by_mode {s x : State} {scope t b mask n : Nat} {ok : Nat → Bool}
    (h : s.inMode .sealed = true ∨ s.inMode .audit = true ∨ s.inMode .hold = true)
    (hx : x ∈ [cmdOpen s scope t b n, cmdSetCause s scope t b mask n, cmdClearCause s scope t b mask ok n, cmdRelease s scope t b n]) :
    x.books = s.books ∧ bookReason x = 3 := by
  have hbad : ∀ op ≠ 5, bookModeBad s op = true := fun op hop => bookModeBad_of_mode hop h
  have hstat : x = bookStat s 3 1 s.now := by
    simpa [cmdOpen, cmdSetCause, cmdClearCause, cmdRelease, hbad] using hx
  rw [hstat]
  exact bookStat_refuses s 1 s.now (by decide)

section
variable {s : State} {t b : Nat} (scope n : Nat)

theorem cmdOpen_opens (hmode : bookModeBad s 1 = false) (hk : (getBook s t b).sales = .dormant)
    (hwin : s.tim.u + (getBook s t b).margin * 1000 + s.now < (getBook s t b).pb) :
    cmdOpen s 0 t b n = bookStat (configBook (openBook s t b s.now) t b (getBook s t b) s.now n) 0 0 s.now := by
  simp [cmdOpen, hmode, openReason, hk, hwin]

/-- OPEN is refused with STATE or WINDOW. -/
theorem cmdOpen_refuses {reason : Nat} (hmode : bookModeBad s 1 = false) (h0 : reason ≠ 0) (h16 : reason < 16)
    (hr : (if scope = 0 then openReason s (getBook s t b) else 1) = reason) :
    (cmdOpen s scope t b n).books = s.books ∧ bookReason (cmdOpen s scope t b n) = reason := by
  unfold cmdOpen
  rw [hmode, if_neg Bool.false_ne_true]
  dsimp only
  rw [hr, if_neg h0]
  exact bookStat_refuses s _ s.now h16

/-- What OPEN leaves in an entry. -/
theorem getBook_openBook_self (s : State) (t b te : Nat) :
    (getBook (openBook s t b te) t b).sales = .open ∧ (getBook (openBook s t b te) t b).cause = 0 ∧
    (getBook (openBook s t b te) t b).pb = (getBook s t b).pb ∧ (getBook (openBook s t b te) t b).margin = (getBook s t b).margin ∧
    (getBook (openBook s t b te) t b).te = te := by
  unfold openBook
  rw [getBook_changeBook_self]
  exact ⟨sales_of_st rfl, rfl, rfl, rfl, rfl⟩

theorem cmdSetCause_refuses {mask : Nat} (hmode : bookModeBad s 2 = false) (hk : onSale (getBook s t b) = false) :
    (cmdSetCause s 0 t b mask n).books = s.books ∧ bookReason (cmdSetCause s 0 t b mask n) = 1 := by
  have hstat : cmdSetCause s 0 t b mask n = bookStat s 1 1 s.now := by simp [cmdSetCause, hmode, hk]
  rw [hstat]
  exact bookStat_refuses s 1 s.now (by decide)

theorem cmdSetCause_sets {mask : Nat} (hmode : bookModeBad s 2 = false) (h : ¬ (scope = 0 ∧ onSale (getBook s t b) = false)) :
    cmdSetCause s scope t b mask n = bookStat (setCauses s mask (scopeBooks s scope t b) s.now n) 0 0 s.now := by
  unfold cmdSetCause
  rw [hmode, if_neg Bool.false_ne_true, if_neg h]

theorem cmdClearCause_refuses_quality {mask : Nat} {ok : Nat → Bool} (hmode : bookModeBad s 3 = false)
    (hq : s.tim.qual = .starved ∨ s.tim.qual = .breach) :
    (cmdClearCause s scope t b mask ok n).books = s.books ∧ bookReason (cmdClearCause s scope t b mask ok n) = 4 := by
  have hstat : cmdClearCause s scope t b mask ok n = bookStat s 4 1 s.now := by
    unfold cmdClearCause
    rw [hmode, if_neg Bool.false_ne_true, if_pos hq]
  rw [hstat]
  exact bookStat_refuses s 1 s.now (by decide)

theorem cmdClearCause_refuses_state {mask : Nat} {ok : Nat → Bool} (hmode : bookModeBad s 3 = false)
    (hq : ¬ (s.tim.qual = .starved ∨ s.tim.qual = .breach)) (hk : (getBook s t b).sales ≠ .suspended) :
    (cmdClearCause s 0 t b mask ok n).books = s.books ∧ bookReason (cmdClearCause s 0 t b mask ok n) = 1 := by
  have hstat : cmdClearCause s 0 t b mask ok n = bookStat s 1 1 s.now := by
    unfold cmdClearCause
    rw [hmode, if_neg Bool.false_ne_true, if_neg hq, if_pos ⟨rfl, hk⟩]
  rw [hstat]
  exact bookStat_refuses s 1 s.now (by decide)

theorem getBook_cmdClearCause {mask : Nat} {ok : Nat → Bool} (hmode : bookModeBad s 3 = false)
    (hq : ¬ (s.tim.qual = .starved ∨ s.tim.qual = .breach)) (hk : ¬ (scope = 0 ∧ (getBook s t b).sales ≠ .suspended)) (t' b' : Nat) :
    getBook (cmdClearCause s scope t b mask ok n) t' b' = getBook (clearCauses s mask (scopeBooks s scope t b) ok s.now n) t' b' := by
  unfold cmdClearCause
  rw [hmode, if_neg Bool.false_ne_true, if_neg hq, if_neg hk]
  rfl

/-- An entry that RELEASE returns to DORMANT (R57). -/
def releasedBook (k : Book) : Book := { k with st := votedOf 0, cause := 0, settled := false, partSeq := none }

theorem cmdRelease_releases (hmode : bookModeBad s 4 = false) (hk : (getBook s t b).sales = .closed) :
    cmdRelease s 0 t b n =
      bookStat (configBook (changeBook s t b s.now releasedBook) t b (getBook s t b) s.now n) 0 0 s.now := by
  simp only [cmdRelease, hmode, hk]
  rfl

theorem cmdRelease_refuses (hmode : bookModeBad s 4 = false) (h : scope ≠ 0 ∨ (getBook s t b).sales ≠ .closed) :
    (cmdRelease s scope t b n).books = s.books ∧ bookReason (cmdRelease s scope t b n) = 1 := by
  have hstat : cmdRelease s scope t b n = bookStat s 1 1 s.now := by
    unfold cmdRelease
    rw [hmode, if_neg Bool.false_ne_true]
    exact if_pos h
  rw [hstat]
  exact bookStat_refuses s 1 s.now (by decide)

/-- An entry with the state and the causes of BOOKARG. -/
def restoredBook (st cause : Nat) (k : Book) : Book := { k with st := votedOf st, cause := cause }

theorem cmdRestore_refuses (st cause : Nat) (h : ¬ ((s.inMode .sealed = true ∧ s.sec.s5done = false) ∨ s.inMode .replay = true)) :
    (cmdRestore s scope t b st cause).books = s.books ∧ bookReason (cmdRestore s scope t b st cause) = 3 := by
  have hstat : cmdRestore s scope t b st cause = bookStat s 3 1 s.now := by
    simp [cmdRestore, bookModeBad_restore, h]
  rw [hstat]
  exact bookStat_refuses s 1 s.now (by decide)

theorem cmdRestore_restores (st cause : Nat) (h : (s.inMode .sealed = true ∧ s.sec.s5done = false) ∨ s.inMode .replay = true) :
    cmdRestore s 0 t b st cause = bookStat (changeBook s t b s.now (restoredBook st cause)) 0 0 s.now := by
  simp only [cmdRestore, bookModeBad_restore, h]
  rfl

theorem code_of_st {k : Book} {st : Nat} (h : k.st = votedOf st) (hst : st < 5) : k.sales.code = st := by
  obtain ⟨a, rfl⟩ : ∃ a : Sales, a.code = st := by
    interval_cases st
    exacts [⟨.dormant, rfl⟩, ⟨.open, rfl⟩, ⟨.parting, rfl⟩, ⟨.closed, rfl⟩, ⟨.suspended, rfl⟩]
  rw [sales_of_st h]

end

/-! ### What each operation does to every book -/

section
variable {s x : State} {t b t' b' scope n : Nat}

theorem cmdOpen_effect (hb : b < 4096) (hb' : b' < 4096) (hmode : bookModeBad s 1 = false) (hx : x = cmdOpen s scope t b n) :
    (scope = 0 → (getBook s t b).sales = .dormant → s.tim.u + (getBook s t b).margin * 1000 + s.now < (getBook s t b).pb →
      (getBook x t b).sales = .open ∧ (getBook x t b).cause = 0 ∧ (getBook x t b).pb = (getBook s t b).pb ∧
      (getBook x t b).margin = (getBook s t b).margin ∧ (getBook x t b).te = s.now ∧
      ((t', b') ≠ (t, b) → getBook x t' b' = getBook s t' b') ∧ bookReason x = 0) ∧
    (scope = 0 → (getBook s t b).sales = .dormant → (getBook s t b).pb ≤ s.tim.u + (getBook s t b).margin * 1000 + s.now →
      x.books = s.books ∧ bookReason x = 2) ∧
    ((scope ≠ 0 ∨ (getBook s t b).sales ≠ .dormant) → x.books = s.books ∧ bookReason x = 1) := by
  subst hx
  refine ⟨fun hscope hk hwin => ?_, fun hscope hk hwin => ?_, fun h => ?_⟩
  · subst hscope
    obtain ⟨hsales, hcause, hpb, hmargin, hte⟩ := getBook_openBook_self s t b s.now
    rw [cmdOpen_opens n hmode hk hwin]
    simp only [getBook_bookStat, getBook_configBook]
    exact ⟨hsales, hcause, hpb, hmargin, hte, getBook_changeBook_of_ne s s.now _ hb hb', bookReason_bookStat _ 0 s.now (by decide)⟩
  · refine cmdOpen_refuses scope n hmode (by decide) (by decide) ?_
    rw [if_pos hscope, openReason, if_neg (not_not.mpr hk), if_neg (Nat.not_lt.mpr hwin)]
  · refine cmdOpen_refuses scope n hmode (by decide) (by decide) ?_
    by_cases hscope : scope = 0
    · rw [if_pos hscope, openReason, if_pos (h.resolve_left (not_not.mpr hscope))]
    · rw [if_neg hscope]

theorem cmdSetCause_effect {mask : Nat} (hb : b < 4096) (hb' : b' < 4096) (hmode : bookModeBad s 2 = false) (hhold : s.inMode .hold = false)
    (hx : x = cmdSetCause s scope t b mask n) :
    (scope = 0 → onSale (getBook s t b) = false → x.books = s.books ∧ bookReason x = 1) ∧
    (¬ (scope = 0 ∧ onSale (getBook s t b) = false) → bookReason x = 0 ∧
      ((t', b') ∈ setHits s mask (scopeBooks s scope t b) →
        Shows .suspended ((getBook s t' b').cause ||| mask) (getBook s t' b').pb (getBook s t' b').margin (getBook x t' b')) ∧
      ((t', b') ∉ setHits s mask (scopeBooks s scope t b) → getBook x t' b' = getBook s t' b')) := by
  subst hx
  refine ⟨fun hscope hk => ?_, fun h => ?_⟩
  · subst hscope; exact cmdSetCause_refuses n hmode hk
  · rw [cmdSetCause_sets scope n hmode h]
    simp only [getBook_bookStat]
    exact ⟨bookReason_bookStat _ 0 s.now (by decide), setCauses_shows_of_mem s.now n hhold (scopeBooks_snd_lt s scope t hb) hb',
      getBook_setCauses_of_notMem s.now n hhold (scopeBooks_snd_lt s scope t hb) hb'⟩

theorem cmdClearCause_effect {mask : Nat} {ok : Nat → Bool} (hb : b < 4096) (hb' : b' < 4096) (hm : mask < 128)
    (hmode : bookModeBad s 3 = false) (hx : x = cmdClearCause s scope t b mask ok n) :
    ((s.tim.qual = .starved ∨ s.tim.qual = .breach) → x.books = s.books ∧ bookReason x = 4) ∧
    (¬ (s.tim.qual = .starved ∨ s.tim.qual = .breach) → scope = 0 → (getBook s t b).sales ≠ .suspended →
      x.books = s.books ∧ bookReason x = 1) ∧
    (¬ (s.tim.qual = .starved ∨ s.tim.qual = .breach) → ¬ (scope = 0 ∧ (getBook s t b).sales ≠ .suspended) →
      ((t', b') ∈ clearHits s mask (scopeBooks s scope t b) ok s.now →
        Shows (if (getBook s t' b').cause &&& (127 ^^^ mask) = 0 then .open else .suspended)
          ((getBook s t' b').cause &&& (127 ^^^ mask)) (getBook s t' b').pb (getBook s t' b').margin (getBook x t' b')) ∧
      ((t', b') ∉ clearHits s mask (scopeBooks s scope t b) ok s.now → getBook x t' b' = getBook s t' b')) := by
  subst hx
  refine ⟨cmdClearCause_refuses_quality scope n hmode, fun hq hscope hk => ?_, fun hq hk => ?_⟩
  · subst hscope; exact cmdClearCause_refuses_state n hmode hq hk
  · rw [getBook_cmdClearCause scope n hmode hq hk]
    exact ⟨clearCauses_shows_of_mem n hm (scopeBooks_snd_lt s scope t hb) hb',
      getBook_clearCauses_of_notMem n (scopeBooks_snd_lt s scope t hb) hb'⟩

theorem cmdRelease_effect (hb : b < 4096) (hb' : b' < 4096) (hmode : bookModeBad s 4 = false) (hx : x = cmdRelease s scope t b n) :
    (scope = 0 → (getBook s t b).sales = .closed → (getBook x t b).sales = .dormant ∧ (getBook x t b).cause = 0 ∧
      (getBook x t b).settled = false ∧ (getBook x t b).pb = (getBook s t b).pb ∧ (getBook x t b).margin = (getBook s t b).margin ∧
      ((t', b') ≠ (t, b) → getBook x t' b' = getBook s t' b') ∧ bookReason x = 0) ∧
    ((scope ≠ 0 ∨ (getBook s t b).sales ≠ .closed) → x.books = s.books ∧ bookReason x = 1) := by
  subst hx
  refine ⟨fun hscope hk => ?_, cmdRelease_refuses scope n hmode⟩
  subst hscope
  rw [cmdRelease_releases n hmode hk]
  simp only [getBook_bookStat, getBook_configBook, getBook_changeBook_self]
  exact ⟨sales_of_st (a := .dormant) rfl, rfl, rfl, rfl, rfl, getBook_changeBook_of_ne s s.now _ hb hb', bookReason_bookStat _ 0 s.now (by decide)⟩

theorem cmdRestore_effect {st mask : Nat} (hb : b < 4096) (hb' : b' < 4096) (hx : x = cmdRestore s scope t b st mask) (hst : st < 5) :
    (¬ ((s.inMode .sealed = true ∧ s.sec.s5done = false) ∨ s.inMode .replay = true) → x.books = s.books ∧ bookReason x = 3) ∧
    (((s.inMode .sealed = true ∧ s.sec.s5done = false) ∨ s.inMode .replay = true) → scope = 0 →
      (getBook x t b).sales.code = st ∧ (getBook x t b).cause = mask ∧ (getBook x t b).pb = (getBook s t b).pb ∧
      ((t', b') ≠ (t, b) → getBook x t' b' = getBook s t' b') ∧ bookReason x = 0) := by
  subst hx
  refine ⟨cmdRestore_refuses scope st mask, fun hmode hscope => ?_⟩
  subst hscope
  rw [cmdRestore_restores st mask hmode]
  simp only [getBook_bookStat, getBook_changeBook_self]
  exact ⟨code_of_st rfl hst, rfl, rfl, getBook_changeBook_of_ne s s.now _ hb hb', bookReason_bookStat _ 0 s.now (by decide)⟩

/-! ### Entry writes (R161) and partings (R59) -/

/-- An entry that sells no more at an instant: in PARTING or CLOSED, or on sale with P_b reached (log 31). -/
def PartedBy (now : Nat) (k : Book) : Prop := k.sales = .parting ∨ k.sales = .closed ∨ (onSale k = true ∧ k.pb ≤ now)

theorem not_dormant_of_partedBy {now : Nat} {k : Book} (h : PartedBy now k) : k.sales ≠ .dormant := by
  intro hd
  simp [PartedBy, onSale, hd] at h

theorem not_partedBy_of_onSale {now : Nat} {k : Book} (h : onSale k = true) (hpb : now < k.pb) : ¬ PartedBy now k := by
  rcases (onSale_iff k).mp h with hk | hk <;> simp [PartedBy, hk, Nat.not_le.mpr hpb]

theorem entryReason_free (k : Book) (pb m : Nat) (h : s.mode = some .sealed ∨ s.mode = some .replay) : entryReason s k pb m = 0 := by
  rcases h with h | h <;> simp [entryReason, h]

theorem entryReason_live {k : Book} (pb m : Nat) (h : s.mode = some .live ∨ s.mode = some .quiet) :
    (k.sales = .dormant → entryReason s k pb m = 0) ∧ (PartedBy s.now k → entryReason s k pb m = 1) ∧
    (onSale k = true → s.now < k.pb → entryReason s k pb m = if s.now + s.tim.u + m * 1000 < pb then 0 else 2) := by
  have hr : entryReason s k pb m = if k.sales = .dormant then 0
      else if k.sales = .parting ∨ k.sales = .closed ∨ (onSale k = true ∧ k.pb ≤ s.now) then 1
      else if s.now + s.tim.u + m * 1000 < pb then 0 else 2 := by
    rcases h with h | h <;> simp only [entryReason, h]
  rw [hr]
  refine ⟨fun hk => if_pos hk, fun hp => ?_, fun hk hpb => ?_⟩
  · rw [if_neg (not_dormant_of_partedBy hp)]; exact if_pos hp
  · have hd : k.sales ≠ .dormant := by rcases (onSale_iff k).mp hk with hk | hk <;> simp [hk]
    rw [if_neg hd]; exact if_neg (not_partedBy_of_onSale hk hpb)

theorem entryReason_still (k : Book) (pb m : Nat) (h : s.mode = some .audit ∨ s.mode = some .hold) :
    entryReason s k pb m = if k.sales = .parting ∨ k.sales = .closed ∨ (onSale k = true ∧ k.pb ≤ s.now) then 1 else 3 := by
  rcases h with h | h <;> simp only [entryReason, h]

/-- An entry with its parting instant and margin replaced. -/
def enteredBook (pb margin : Nat) (k : Book) : Book := { k with pb := pb, margin := margin }

theorem getBook_entryWrite {pb m : Nat} (he : entryReason s (getBook s t b) pb m = 0) (t' b' : Nat) :
    getBook (entryWrite s t b pb m n) t' b' = getBook (changeBook s t b s.now (enteredBook pb m)) t' b' := by
  unfold entryWrite
  dsimp only
  rw [if_pos he]
  split
  · rfl
  · rw [getBook_configBook]; rfl

theorem entryWrite_books_of_refused {pb m : Nat} (he : entryReason s (getBook s t b) pb m ≠ 0) :
    (entryWrite s t b pb m n).books = s.books := by
  unfold entryWrite
  dsimp only
  rw [if_neg he, bumpSat_books]
  split <;> rfl

theorem entryWrite_effect {pb m : Nat} (hb : b < 4096) (hb' : b' < 4096) (hx : x = entryWrite s t b pb m n) :
    (entryReason s (getBook s t b) pb m = 0 → (getBook x t b).pb = pb ∧ (getBook x t b).margin = m ∧
      (getBook x t b).sales = (getBook s t b).sales ∧ (getBook x t b).cause = (getBook s t b).cause ∧ (getBook x t b).te = s.now ∧
      ((t', b') ≠ (t, b) → getBook x t' b' = getBook s t' b')) ∧
    (entryReason s (getBook s t b) pb m ≠ 0 → x.books = s.books) := by
  subst hx
  refine ⟨fun he => ?_, entryWrite_books_of_refused⟩
  rw [getBook_entryWrite he, getBook_entryWrite he, getBook_changeBook_self]
  exact ⟨rfl, rfl, sales_congr rfl, rfl, rfl, getBook_changeBook_of_ne s s.now _ hb hb'⟩

theorem partBook_effect {u : Nat} {stepped : Bool} (hb : b < 4096) (hb' : b' < 4096) (hx : x = partBook s t b u stepped n) :
    (onSale (getBook s t b) = true → (getBook x t b).sales = .parting ∧ (getBook x t b).cause = 0 ∧ (getBook x t b).partWait = true ∧
      (getBook x t b).te = (getBook s t b).pb ∧ (getBook x t b).pb = (getBook s t b).pb ∧ (getBook x t b).partU = u ∧
      ((t', b') ≠ (t, b) → getBook x t' b' = getBook s t' b')) ∧
    (onSale (getBook s t b) = false → x = s) := by
  subst hx
  unfold partBook
  dsimp only
  refine ⟨fun hk => ?_, fun hk => if_neg (Bool.eq_false_iff.mp hk)⟩
  rw [if_pos hk, getBook_changeBook_self]
  exact ⟨sales_of_st (a := .parting) rfl, rfl, rfl, rfl, rfl, rfl, getBook_changeBook_of_ne s _ _ hb hb'⟩

end

/-- Settles O51: the word of BOOKCMD names its operation, and each operation, entry write and parting changes the books as its
lemma above says. -/
theorem salesTransitions : Obligations.SalesTransitions := by
  unfold Obligations.SalesTransitions
  intro s x r t b t' b' scope op mask n pb m u v st e k k' ok bs step ht hb hb' hmask hk hk' hbs
  subst hk hk' hbs
  refine ⟨bookCmd_runs s ok n ht hb, refused_by_mode, ?_, cmdRestore_effect hb hb', ?_, partBook_effect hb hb'⟩
  · intro hsealed haudit hhold
    have hmode : ∀ op ≠ 5, bookModeBad s op = false := fun op hop => bookModeBad_of_not_mode hop hsealed haudit hhold
    refine ⟨cmdOpen_effect hb hb' (hmode 1 (by decide)), fun hx => ?_, fun hx => ?_, cmdRelease_effect hb hb' (hmode 4 (by decide))⟩
    · obtain ⟨hrefused, hset⟩ := cmdSetCause_effect (t' := t') hb hb' (hmode 2 (by decide)) hhold hx
      refine ⟨hrefused, fun h => ?_⟩
      obtain ⟨hreason, hhit, hother⟩ := hset h
      refine ⟨hreason, fun hmem hsale hfollow hnew => hhit ((mem_setHits ..).mpr ⟨hmem, hsale, hfollow, hnew⟩), fun hout => hother ?_⟩
      rw [mem_setHits]
      rintro ⟨hmem, hsale, hfollow, hnew⟩
      rcases hout with h | h | h | h
      · exact h hmem
      · exact Bool.false_ne_true (h.symm.trans hsale)
      · exact Bool.false_ne_true (hfollow.symm.trans h)
      · exact hnew h
    · obtain ⟨hquality, hstate, hclear⟩ := cmdClearCause_effect (t' := t') hb hb' hmask (hmode 3 (by decide)) hx
      refine ⟨hquality, hstate, fun hq hk hm => ?_⟩
      subst hm
      obtain ⟨hhit, hother⟩ := hclear hq hk
      refine ⟨fun hmem hsales hnew hmirror hwin => hhit ((mem_clearHits hmask ..).mpr ⟨hmem, hsales, hnew, hmirror, hwin⟩),
        fun hout => hother ?_⟩
      rw [mem_clearHits hmask]
      rintro ⟨hmem, hsales, hnew, hmirror, hwin⟩
      rcases hout with h | h | h | ⟨h8, hno⟩ | ⟨h0, hpast⟩
      · exact h hmem
      · exact h hsales
      · exact hnew h
      · rw [hno] at hmirror; exact hmirror.elim h8 Bool.false_ne_true
      · exact hwin.elim (fun h => h h0) (Nat.not_lt.mpr hpast)
  · intro hx he
    subst he
    exact ⟨entryReason_free _ pb m, entryReason_live pb m, entryReason_still _ pb m, entryWrite_effect hb hb' hx⟩

end Sys2Proof.Machine
end

section
/-! PROOFS. The parting rule (R164) and the refusals of A6, A8 and A9 around it (Table 1.1): what each branch of the verdict on a
frame answers, and from these the verdict at every side of P's two bounds and in every sales state. -/
namespace Sys2Proof.Machine

open Sys2Proof

/-! ### P's two bounds (R164) -/

theorem isLate_iff (v : BookVer) (acc : Nat) : isLate v acc = true ↔ v.pb ≤ acc + v.margin * 1000 := by simp [isLate]

theorem eligible_iff (v : BookVer) (acc u : Nat) : eligible v acc u = true ↔ acc + u + v.margin * 1000 < v.pb := by simp [eligible]

/-- The two bounds nest: a frame that is LATE is not eligible, whatever its uncertainty. -/
theorem not_isLate_of_eligible {v : BookVer} {acc u : Nat} (h : eligible v acc u = true) : ¬ isLate v acc = true := by
  rw [eligible_iff] at h
  rw [isLate_iff]
  omega

/-! ### A6: mode and role -/

section
variable {s : State} {f : Frame} {acc u : Nat} {v : BookVer} {x : Session}

theorem verdict_of_mode (hm : modeAt s acc ≠ .live) : verdict s f acc u = (rjMODE, 0, 0) := by
  unfold verdict
  rw [if_pos hm]

theorem verdict_of_role (hm : modeAt s acc = .live) (hr : s.role ≠ .primary) : verdict s f acc u = (rjROLE, 0, 0) := by
  unfold verdict
  rw [if_neg (not_not_intro hm), if_pos hr]

/-! ### A7: the parting rule -/

/-- A8 and A9: what a frame gets that A6 and A7 let pass. -/
def salesVerdict (s : State) (f : Frame) (v : BookVer) : Nat × Nat × Nat :=
  if v.st = .suspended then (rjSUSPENDED, bits v.cause 0 7, 0)
  else if v.st ≠ .open then (rjNOT_OPEN, 0, v.st.code)
  else if ((sessOf s f.tenant f.session).elim 0 (·.unreplied)) ≥ fget s bSEQ (0x200 + 4 * f.tenant) 0 6 then (rjQUOTA, 0, 0)
  else if inFlight s f.tenant ≥ fget s bSEQ (0x100 + 4 * f.tenant) 0 21 then (rjBUSY, 0, 0)
  else (0, 0, 0)

/-- In a PRIMARY in LIVE the verdict is A7's two bounds, which a DORMANT book passes, and then that of A8 and A9. -/
theorem verdict_of_live_primary (hm : modeAt s acc = .live) (hr : s.role = .primary) (hv : v = (getBook s f.tenant f.book).verAt acc) :
    verdict s f acc u =
      if v.st ≠ .dormant ∧ isLate v acc = true then (rjLATE, 0, 0)
      else if v.st ≠ .dormant ∧ eligible v acc u = false then (rjLATE_UNCERTAIN, 0, 0)
      else salesVerdict s f v := by
  subst hv
  unfold verdict salesVerdict
  rw [if_neg (not_not_intro hm), if_neg (not_not_intro hr)]
  cases sessOf s f.tenant f.session <;> rfl

theorem verdict_of_dormant (hm : modeAt s acc = .live) (hr : s.role = .primary) (hv : v = (getBook s f.tenant f.book).verAt acc)
    (hd : v.st = .dormant) : verdict s f acc u = salesVerdict s f v := by
  rw [verdict_of_live_primary hm hr hv, if_neg fun h => h.1 hd, if_neg fun h => h.1 hd]

theorem verdict_of_late (hm : modeAt s acc = .live) (hr : s.role = .primary) (hv : v = (getBook s f.tenant f.book).verAt acc)
    (hd : v.st ≠ .dormant) (hl : isLate v acc = true) : verdict s f acc u = (rjLATE, 0, 0) := by
  rw [verdict_of_live_primary hm hr hv, if_pos ⟨hd, hl⟩]

theorem verdict_of_late_uncertain (hm : modeAt s acc = .live) (hr : s.role = .primary) (hv : v = (getBook s f.tenant f.book).verAt acc)
    (hd : v.st ≠ .dormant) (hl : ¬ isLate v acc = true) (he : ¬ eligible v acc u = true) :
    verdict s f acc u = (rjLATE_UNCERTAIN, 0, 0) := by
  rw [verdict_of_live_primary hm hr hv, if_neg fun h => hl h.2, if_pos ⟨hd, Bool.eq_false_iff.mpr he⟩]

theorem verdict_of_eligible (hm : modeAt s acc = .live) (hr : s.role = .primary) (hv : v = (getBook s f.tenant f.book).verAt acc)
    (he : eligible v acc u = true) : verdict s f acc u = salesVerdict s f v := by
  rw [verdict_of_live_primary hm hr hv, if_neg fun h => not_isLate_of_eligible he h.2,
    if_neg fun h => Bool.false_ne_true (h.2.symm.trans he)]

/-! ### A8 and A9: the sales state, the quota and the limit in flight -/

theorem salesVerdict_of_suspended (h : v.st = .suspended) : salesVerdict s f v = (rjSUSPENDED, bits v.cause 0 7, 0) := if_pos h

theorem salesVerdict_of_not_open (hs : v.st ≠ .suspended) (ho : v.st ≠ .open) :
    salesVerdict s f v = (rjNOT_OPEN, 0, v.st.code) := by
  unfold salesVerdict
  rw [if_neg hs, if_pos ho]

theorem salesVerdict_of_open (ho : v.st = .open) (hx : sessOf s f.tenant f.session = some x) :
    salesVerdict s f v =
      if x.unreplied ≥ fget s bSEQ (0x200 + 4 * f.tenant) 0 6 then (rjQUOTA, 0, 0)
      else if inFlight s f.tenant ≥ fget s bSEQ (0x100 + 4 * f.tenant) 0 21 then (rjBUSY, 0, 0)
      else (0, 0, 0) := by
  simp [salesVerdict, ho, hx]

/-- A8 and A9 give no refusal of A7. -/
theorem salesVerdict_ne_late (s : State) (f : Frame) (v : BookVer) :
    (salesVerdict s f v).1 ≠ rjLATE ∧ (salesVerdict s f v).1 ≠ rjLATE_UNCERTAIN := by
  unfold salesVerdict
  split_ifs <;> simp [rjLATE, rjLATE_UNCERTAIN, rjSUSPENDED, rjNOT_OPEN, rjQUOTA, rjBUSY]

end

/-! ### The late counters (R164) -/

theorem countRefusal_late (s : State) (f : Frame) :
    countRefusal s f rjLATE =
      bumpWrap (putBook s f.tenant f.book { getBook s f.tenant f.book with late := sat 32 ((getBook s f.tenant f.book).late + 1) })
        bPRT (0x1000 + 8 * f.tenant) 0 32 1 := rfl

theorem countRefusal_late_uncertain (s : State) (f : Frame) :
    countRefusal s f rjLATE_UNCERTAIN =
      bumpWrap (putBook s f.tenant f.book { getBook s f.tenant f.book with lateu := sat 32 ((getBook s f.tenant f.book).lateu + 1) })
        bPRT (0x1004 + 8 * f.tenant) 0 32 1 := rfl

/-- Settles O46: A6 by the mode and the role; A7 by the side of P's two bounds on which the acceptance time falls; A8 and A9 by the
sales state and, in OPEN, the session's quota and the tenant's limit. -/
theorem partingRule : Obligations.PartingRule := by
  unfold Obligations.PartingRule
  intro s f acc u v k hv hk
  subst hk
  refine ⟨verdict_of_mode, verdict_of_role, fun hm hr => ⟨fun hd => ?_, fun hd hl => ?_, fun hd hl hu => ?_, fun _ he => ?_⟩,
    countRefusal_late s f, countRefusal_late_uncertain s f⟩
  · rw [verdict_of_dormant hm hr hv hd, salesVerdict_of_not_open (by simp [hd]) (by simp [hd]), hd]
    rfl
  · exact verdict_of_late hm hr hv hd ((isLate_iff v acc).mpr hl)
  · refine verdict_of_late_uncertain hm hr hv hd ?_ ?_
    · rw [isLate_iff]
      exact Nat.not_le.mpr hl
    · rw [eligible_iff]
      exact Nat.not_lt.mpr hu
  · rw [verdict_of_eligible hm hr hv ((eligible_iff v acc u).mpr he)]
    obtain ⟨hlate, huncertain⟩ := salesVerdict_ne_late s f v
    refine ⟨hlate, huncertain, salesVerdict_of_suspended, salesVerdict_of_not_open, fun ho x hx => ?_⟩
    rw [salesVerdict_of_open ho hx]
    refine ⟨fun hq => if_pos hq, fun hq hb => ?_, fun hq hb => ?_⟩
    · rw [if_neg (Nat.not_le.mpr hq), if_pos hb]
    · rw [if_neg (Nat.not_le.mpr hq), if_neg (Nat.not_le.mpr hb)]

end Sys2Proof.Machine
end

section
/-! PROOFS. Numeric results (R178 to R180, R195 to R197): limbs are the fewest words of two's complement and spell their integer;
a rational in lowest terms; the objects that a number needs and the words they put in memory; the branches of an allocation
whose objects all have headers; and from these how a result is delivered. -/
namespace Sys2Proof.Machine

open Sys2Proof

/-! ### Limbs (R180) -/

/-- The magnitude of which `limbsOf` counts the bits: n itself, or its complement where n is negative. -/
theorem magnitude_lt_iff (n : Int) (k : Nat) :
    (if n < 0 then (-n - 1).toNat else n.toNat) < 2 ^ k ↔ -(2 ^ k) ≤ n ∧ n < 2 ^ k := by
  have hpos : (0 : Int) < 2 ^ k := by positivity
  split <;> zify <;> omega

theorem log2_lt_iff (m : Nat) {k : Nat} (hk : 0 < k) : Nat.log2 m < k ↔ m < 2 ^ k := by
  by_cases hm : m = 0
  · simp [hm, hk]
  · exact Nat.log2_lt hm

/-- A number of words suffices exactly where two's complement of that width has the integer in its range. -/
theorem limbsOf_le_iff (n : Int) {i : Nat} (hi : 0 < i) :
    limbsOf n ≤ i ↔ -(2 ^ (64 * i - 1)) ≤ n ∧ n < 2 ^ (64 * i - 1) := by
  rw [← magnitude_lt_iff, ← log2_lt_iff _ (by omega)]
  unfold limbsOf
  omega

theorem limbsOf_pos (n : Int) : 0 < limbsOf n := Nat.succ_pos _

@[simp] theorem limbWords_length (n : Int) : (limbWords n).length = limbsOf n := by simp [limbWords]

/-- The number that words spell, least significant first, before it is read as two's complement. -/
def limbsNat (ws : List TWord) : Nat := ws.foldr (fun w (a : Nat) => w.val.toNat + 2 ^ 64 * a) 0

@[simp] theorem limbsNat_nil : limbsNat [] = 0 := rfl

@[simp] theorem limbsNat_cons (w : TWord) (ws : List TWord) : limbsNat (w :: ws) = w.val.toNat + 2 ^ 64 * limbsNat ws := rfl

/-- `ofLimbs` reads the words' number as the signed residue modulo 2^(64 L), L their count. -/
theorem ofLimbs_eq_bmod {ws : List TWord} {n : Int} (h : (limbsNat ws : Int) = n % 2 ^ (64 * ws.length)) :
    ofLimbs ws = n.bmod (2 ^ (64 * ws.length)) := by
  have hcast : ((2 ^ (64 * ws.length) : Nat) : Int) = 2 ^ (64 * ws.length) := Nat.cast_pow 2 _
  rw [Int.bmod_def, hcast, ← h]
  show (if 2 * limbsNat ws ≥ 2 ^ (64 * ws.length) then (limbsNat ws : Int) - 2 ^ (64 * ws.length) else limbsNat ws) = _
  rw [← hcast]
  split <;> split <;> omega

/-- L limbs hold an integer modulo 2^(64 L): the lowest holds it modulo 2^64, the others hold n / 2^64. -/
theorem limbsNat_limbs (L : Nat) (n : Int) :
    (limbsNat ((List.range L).map (fun i => ⟨tRAW, BitVec.ofInt 64 (n / 2 ^ (64 * i))⟩)) : Int) = n % 2 ^ (64 * L) := by
  induction L generalizing n with
  | zero => simp
  | succ L ih =>
    have hlow : ((BitVec.ofInt 64 n).toNat : Int) = n % 2 ^ 64 := by
      rw [BitVec.toNat_ofInt]
      exact Int.toNat_of_nonneg (Int.emod_nonneg _ (by norm_num))
    have hlimb (i : Nat) : n / 2 ^ (64 * (i + 1)) = n / 2 ^ 64 / 2 ^ (64 * i) := by
      rw [Int.ediv_ediv_of_nonneg (by norm_num), ← pow_add, Nat.mul_succ, Nat.add_comm]
    rw [List.range_succ_eq_map, List.map_cons, List.map_map, limbsNat_cons]
    simp only [Function.comp_def, Nat.succ_eq_add_one, hlimb, Nat.mul_zero, pow_zero, Int.ediv_one]
    rw [Nat.cast_add, Nat.cast_mul, ih, hlow, Int.emod_def, Int.emod_def (n / 2 ^ 64), Int.emod_def, hlimb L]
    push_cast
    ring

theorem ofLimbs_limbWords (n : Int) : ofLimbs (limbWords n) = n := by
  have hL := limbsOf_pos n
  obtain ⟨hlo, hhi⟩ := (limbsOf_le_iff n hL).mp le_rfl
  have hvalue : (limbsNat (limbWords n) : Int) = n % 2 ^ (64 * (limbWords n).length) := by
    rw [limbWords_length]
    exact limbsNat_limbs (limbsOf n) n
  have hhalf : 2 ^ (64 * limbsOf n) = 2 * 2 ^ (64 * limbsOf n - 1) := by
    rw [← pow_succ', Nat.sub_add_cancel (by omega)]
  rw [ofLimbs_eq_bmod hvalue, limbWords_length, hhalf]
  apply Int.bmod_eq_of_le <;> push_cast <;> omega

/-! ### Lowest terms (R180) -/

/-- `lowest` divides out the common divisor and moves the sign to the numerator. -/
theorem lowest_spec {n d p : Int} {q : Nat} (hd : d ≠ 0) (h : (p, q) = lowest n d) :
    0 < q ∧ Nat.gcd p.natAbs q = 1 ∧ p * d = n * q := by
  set g := Nat.gcd n.natAbs d.natAbs
  have hgpos : 0 < g := Nat.gcd_pos_of_pos_right _ (Int.natAbs_pos.mpr hd)
  have hgd : g ∣ d.natAbs := Nat.gcd_dvd_right _ _
  have hgm : (g : Int) ∣ (if d < 0 then -n else n) := by
    have hgn : (g : Int) ∣ n := Int.natCast_dvd.mpr (Nat.gcd_dvd_left _ _)
    split <;> simp [hgn]
  obtain ⟨rfl, rfl⟩ : p = (if d < 0 then -n else n) / (g : Int) ∧ q = d.natAbs / g := Prod.ext_iff.mp h
  refine ⟨Nat.div_pos (Nat.le_of_dvd (Int.natAbs_pos.mpr hd) hgd) hgpos, ?_, ?_⟩
  · have habs : ((if d < 0 then -n else n) / (g : Int)).natAbs = n.natAbs / g := by
      rw [Int.natAbs_ediv_of_dvd hgm]
      split <;> simp
    rw [habs]
    exact Nat.coprime_div_gcd_div_gcd hgpos
  · have hsign : (if d < 0 then -n else n) * d = n * |d| := by
      split
      · rw [abs_of_neg ‹_›, neg_mul_comm]
      · rw [abs_of_nonneg (not_lt.mp ‹_›)]
    have hq : ((d.natAbs / g : Nat) : Int) * g = |d| := by
      rw [← Nat.cast_mul, Nat.div_mul_cancel hgd, Int.natCast_natAbs]
    apply mul_right_cancel₀ (Int.natCast_pos.mpr hgpos).ne'
    rw [mul_right_comm, Int.ediv_mul_cancel hgm, hsign, mul_assoc, hq]

/-! ### The objects of a number (R178, R197) -/

theorem size_of_headed {o : NewObj} (h : o.kind.isSome = true) : o.size = 8 * (o.body.length + 1) := by
  simp [NewObj.size, h, b2n]

theorem intPlan_eq (a : Nat) (n : Int) :
    intPlan a n = (if in64 n then wInt n else tw tBIGNUM a, if in64 n then [] else [⟨some 0x13, limbWords n⟩],
      if in64 n then a else a + 8 * (limbsOf n + 1)) := by
  unfold intPlan
  split
  · rfl
  · dsimp only
    rw [size_of_headed rfl, limbWords_length]

/-- The objects of a number all have headers: it needs no list cell. -/
theorem headed_ratPlan (a : Nat) (n : Int) (d : Nat) : ∀ o ∈ (ratPlan a n d).2, o.kind.isSome = true := by
  have hint (a : Nat) (n : Int) : ∀ o ∈ (intPlan a n).2.1, o.kind.isSome = true := by
    rw [intPlan_eq]
    dsimp only
    split <;> simp
  unfold ratPlan
  split
  · exact hint a n
  · simp only [List.mem_append, List.mem_singleton]
    rintro o ((ho | ho) | rfl)
    · exact hint _ _ o ho
    · exact hint _ _ o ho
    · rfl

/-- The words of an object with a header: the header, its body after it, then the objects that follow. -/
theorem objStores_headed (a id kind : Nat) (body : List TWord) (more : List NewObj) :
    objStores a id (⟨some kind, body⟩ :: more) =
      (a, header kind body.length id) :: body.zipIdx.map (fun x => (a + 8 * (x.2 + 1), x.1)) ++
        objStores (a + 8 * (body.length + 1)) (id + 1) more := by
  rw [objStores, size_of_headed rfl]
  simp [List.zipIdx_succ, b2n]

/-- The word of a rational and its objects: those of its numerator, and unless it is an integer those of its denominator and a
ratio object that holds both words. -/
theorem ratPlan_eq {a a1 d : Nat} {n : Int} {p q : TWord × List NewObj × Nat} (hp : intPlan a n = p) (ha1 : p.2.2 = a1) (hq : intPlan a1 d = q) :
    ratPlan a n d = (if d = 1 then p.1 else tw tRATIO q.2.2, if d = 1 then p.2.1 else p.2.1 ++ q.2.1 ++ [⟨some 0x19, [p.1, q.1]⟩]) := by
  subst hp ha1 hq
  unfold ratPlan
  split <;> rfl

/-! ### Allocation of objects that have headers (R179, R196) -/

/-- The state after objects of n identity numbers and a size in bytes stand in memory: the numbers taken, the word delivered, ALLOC
advanced (R179, R196). -/
def allocated (s : State) (c rd : Nat) (w : TWord) (n size : Nat) : State :=
  let s2 := updCore s c (fun k => { k with idctr := ⟨k.idctr.tag, k.idctr.val + BitVec.ofNat 64 n⟩ })
  let s3 := putReg s2 c rd w
  putReg s3 c 31 ⟨(reg s3 c 31).tag, (reg s3 c 31).val + BitVec.ofNat 64 size⟩

section
variable {s : State} {c reserve rd : Nat} {objs : List NewObj} {w : TWord}

theorem objsSize_of_headed (h : ∀ o ∈ objs, o.kind.isSome = true) :
    objsSize objs = (objs.map (fun o => 8 * (o.body.length + 1))).sum := by
  rw [objsSize, List.sum_eq_foldl_nat, List.foldl_map]
  exact List.foldl_ext _ _ _ fun a o ho => by rw [size_of_headed (h o ho)]

theorem objsSize_ne_zero (h : ∀ o ∈ objs, o.kind.isSome = true) (hne : objs ≠ []) : objsSize objs ≠ 0 := by
  obtain ⟨o, more, rfl⟩ := List.exists_cons_of_ne_nil hne
  rw [objsSize_of_headed h, List.map_cons, List.sum_cons]
  omega

theorem idCount_of_headed (h : ∀ o ∈ objs, o.kind.isSome = true) :
    (objs.filter (fun o => o.kind.isSome)).length = objs.length := by
  rw [List.filter_eq_self.mpr h]

theorem idTrap_of_tag {n : Nat} (hn : n ≠ 0) (ht : (getCore s c).idctr.tag ≠ tINT) :
    idTrap s c n = some (tagTrap rTYPE) := by simp [idTrap, hn, ht]

theorem idTrap_of_end {n : Nat} (hn : n ≠ 0) (ht : (getCore s c).idctr.tag = tINT)
    (hend : 2 ^ 40 < (getCore s c).idctr.val.toNat + n) : idTrap s c n = some (tagTrap rOVERFLOW) := by
  unfold idTrap
  rw [if_neg hn, if_neg (not_not.mpr ht), if_pos hend]

theorem idTrap_none {n : Nat} (ht : (getCore s c).idctr.tag = tINT) (hroom : (getCore s c).idctr.val.toNat + n ≤ 2 ^ 40) :
    idTrap s c n = none := by
  unfold idTrap
  dsimp only
  rw [if_neg (not_not.mpr ht), if_neg (Nat.not_lt.mpr hroom), ite_self]

/-- R205 is judged before the reservation. -/
theorem allocDeliver_of_destBad (hw : destBad s c rd w = true) :
    allocDeliver s c reserve false objs [(rd, w)] = .trap s (tagTrap rTYPE) := by
  simp [allocDeliver, hw]

/-! An allocation whose destination takes its word and whose reservation fits. -/

variable (hw : destBad s c rd w = false) (hroom : reserve = 0 ∨ (reg s c 31).val.toNat + reserve ≤ (getCore s c).alimit.val.toNat)
include hw hroom

/-- Past the first two checks, the identity counter decides, then the objects, if there are any, are stored. -/
theorem allocDeliver_eq : allocDeliver s c reserve false objs [(rd, w)] =
    (idTrap s c (objs.filter (fun o => o.kind.isSome)).length).elim
      (if objsSize objs = 0 then .done (putReg s c rd w)
      else (ptrChk s (reg s c 31).val kSTORE).fin fun s0 a =>
        (plainWords s0 c (objStores a (getCore s c).idctr.val.toNat objs)).fin fun s1 _ =>
          .done (allocated s1 c rd w (objs.filter (fun o => o.kind.isSome)).length (objsSize objs)))
      (.trap s) := by
  unfold allocDeliver
  dsimp only
  rw [if_neg (by simp [hw]), if_neg (by omega)]
  cases idTrap s c (objs.filter (fun o => o.kind.isSome)).length <;> rfl

theorem allocDeliver_nil : allocDeliver s c reserve false [] [(rd, w)] = .done (putReg s c rd w) :=
  allocDeliver_eq hw hroom

variable (hobjs : ∀ o ∈ objs, o.kind.isSome = true)
include hobjs

theorem allocDeliver_of_idTrap {t : Trap} (h : idTrap s c objs.length = some t) :
    allocDeliver s c reserve false objs [(rd, w)] = .trap s t := by
  rw [allocDeliver_eq hw hroom, idCount_of_headed hobjs, h, Option.elim_some]

theorem allocDeliver_stores (hne : objs ≠ []) (h : idTrap s c objs.length = none) :
    allocDeliver s c reserve false objs [(rd, w)] =
      (ptrChk s (reg s c 31).val kSTORE).fin fun s0 a =>
        (plainWords s0 c (objStores a (getCore s c).idctr.val.toNat objs)).fin fun s1 _ =>
          .done (allocated s1 c rd w objs.length (objs.map (fun o => 8 * (o.body.length + 1))).sum) := by
  rw [allocDeliver_eq hw hroom, idCount_of_headed hobjs, h, Option.elim_none, if_neg (objsSize_ne_zero hobjs hne), objsSize_of_headed hobjs]

end

/-! ### Delivery of a numeric result (R195 to R197) -/

section
variable {s : State} {c rd reserve q : Nat} {n d p : Int}

theorem deliverNum_of_alloc (h0 : 0 < reserve) (h : (getCore s c).alimit.val.toNat < (reg s c 31).val.toNat + reserve) :
    deliverNum s c rd n d reserve = .trap s (tagTrap rALLOC) := if_pos ⟨h0, h⟩

variable (hpq : (p, q) = lowest n d)
  (hroom : reserve = 0 ∨ (reg s c 31).val.toNat + reserve ≤ (getCore s c).alimit.val.toNat)
include hpq hroom

theorem deliverNum_of_overflow (h : limbsOf p > 1024 ∨ limbsOf q > 1024) : deliverNum s c rd n d reserve = .trap s (tagTrap rOVERFLOW) := by
  unfold deliverNum
  rw [← hpq]
  dsimp only
  rw [if_neg (by omega), if_pos h]

theorem deliverNum_allocates (hp : limbsOf p ≤ 1024) (hq : limbsOf q ≤ 1024) {w : TWord} {objs : List NewObj}
    (hplan : ratPlan (reg s c 31).val.toNat p q = (w, objs)) :
    deliverNum s c rd n d reserve = allocDeliver s c reserve false objs [(rd, w)] := by
  unfold deliverNum
  rw [← hpq]
  dsimp only
  rw [if_neg (by omega), if_neg (by omega), hplan]

end

/-- Settles O52: the checks of `deliverNum` in their order, then an allocation of the objects that the result needs, all of which
have headers. -/
theorem canonicalResults : Obligations.CanonicalResults := by
  unfold Obligations.CanonicalResults
  intro s s1 s2 s3 c rd reserve a a1 a2 q L id i n d p k on od objs wp wq w l t kd body more
    hd hpq hk ha hon hwp ha1 hod hwq ha2 hobjs hw hl
  have hplan : ratPlan a p q = (w, objs) := by
    rw [ratPlan_eq (intPlan_eq a p) ha1.symm (intPlan_eq a1 q), ← hon, ← hod, ← hwp, ← hwq, ← ha2, ← hobjs, ← hw]
  have hheaded : ∀ o ∈ objs, o.kind.isSome = true := by
    have h := headed_ratPlan a p q
    rwa [hplan] at h
  subst hk ha
  refine ⟨lowest_spec hd hpq, ?_, ⟨rfl, objStores_headed i id kd body more⟩, deliverNum_of_alloc,
    fun hroom => ⟨deliverNum_of_overflow hpq hroom, fun hp hq => ?_⟩⟩
  · rintro rfl
    obtain ⟨hlo, hhi⟩ := (limbsOf_le_iff p (limbsOf_pos p)).mp le_rfl
    exact ⟨limbsOf_pos p, hlo, hhi, fun hi h1 h2 => (limbsOf_le_iff p hi).mpr ⟨h1, h2⟩, limbWords_length p, ofLimbs_limbWords p⟩
  · rw [deliverNum_allocates hpq hroom hp hq hplan]
    refine ⟨allocDeliver_of_destBad, fun hdest => ⟨fun hq1 hin => ?_, fun hne => ?_⟩⟩
    · have hnil : objs = [] := by rw [hobjs, if_pos hq1, hon, if_pos hin]
      have hint : w = wInt p := by rw [hw, if_pos hq1, hwp, if_pos hin]
      rw [hnil]
      exact ⟨hint, allocDeliver_nil hdest hroom⟩
    · have hlen : objs.length ≠ 0 := List.length_eq_zero_iff.not.mpr hne
      refine ⟨fun ht => allocDeliver_of_idTrap hdest hroom hheaded (idTrap_of_tag hlen ht),
        fun ht hend => allocDeliver_of_idTrap hdest hroom hheaded (idTrap_of_end hlen ht hend), fun ht hids => ?_⟩
      rw [allocDeliver_stores hdest hroom hheaded hne (idTrap_none ht hids)]
      refine ⟨fun hptr => ?_, fun hptr hst => ?_, fun hptr hst h2 h3 => ?_⟩
      · exact Acs.fin_trap (if_neg (by simp [hptr]))
      · rw [Acs.fin_of (ptrChk_ok hptr), ← hl, Acs.fin_trap hst]
      · rw [Acs.fin_of (ptrChk_ok hptr), ← hl, Acs.fin_of hst, h3, h2]
        rfl

end Sys2Proof.Machine
end

section
/-! PROOFS. Control flow (R225 to R228): how a conditional branch ends by the value of its condition, what a jump register and the
push of a call answer, how RET compares LINK with the shadow-stack top, and from these where every row of Tables 8.7 and 8.8
continues. -/
namespace Sys2Proof.Machine

open Sys2Proof

/-! ### Operands that may be consumed (R184 to R186) -/

theorem consume_of_forall {s : State} {ws : List TWord} {r : IRes} (h : ∀ w ∈ ws, w.tag ≠ tPOISON ∧ w.tag ≠ tUNBOUND) :
    consume s ws r = r := by
  have hp : ws.any (fun w => w.tag == tPOISON) = false := by simpa using fun w hw => (h w hw).1
  have hu : ws.any (fun w => w.tag == tUNBOUND) = false := by simpa using fun w hw => (h w hw).2
  simp [consume, consumeTrap, hp, hu]

/-! ### Conditional branches (R225) -/

/-- The operands of a branch that names ra alone, or ra and rb. -/
def branchOperands (s : State) (c : Nat) (f : BF) (one : Bool) : List TWord :=
  if one then [reg s c f.ra.toNat] else [reg s c f.ra.toNat, reg s c f.rb.toNat]

/-- A branch that passes every check before its condition: its encoding is well formed and its operands may be consumed. -/
def BranchReady (s : State) (c : Nat) (f : BF) (one : Bool) : Prop :=
  (one = true → f.rb = 0) ∧ ∀ w ∈ branchOperands s c f one, w.tag ≠ tPOISON ∧ w.tag ≠ tUNBOUND

section
variable {s t : State} {c op : Nat} {f : BF} {one : Bool} {cond : TWord → TWord → Option Bool}

theorem branchReady_one (hrb : f.rb = 0) (hx : (reg t c f.ra.toNat).tag ≠ tPOISON ∧ (reg t c f.ra.toNat).tag ≠ tUNBOUND) :
    BranchReady t c f true := ⟨fun _ => hrb, by simpa [branchOperands] using hx⟩

theorem branchReady_two (hx : (reg t c f.ra.toNat).tag ≠ tPOISON ∧ (reg t c f.ra.toNat).tag ≠ tUNBOUND)
    (hy : (reg t c f.rb.toNat).tag ≠ tPOISON ∧ (reg t c f.rb.toNat).tag ≠ tUNBOUND) : BranchReady t c f false :=
  ⟨nofun, by simpa [branchOperands] using ⟨hx, hy⟩⟩

/-- A branch that is ready ends as its condition on its operands says. -/
theorem branch_eq (hat : AtInsn s t c (encB op f)) (hop : 0x20 ≤ op ∧ op ≤ 0x27) (hready : BranchReady t c f one) :
    branch c op f one cond s =
      .next ((cond (reg t c f.ra.toNat) (reg t c f.rb.toNat)).elim (trapCore t c (tagTrap rTYPE)) fun b =>
        if b then jumped t t c (target t c f.off.toInt) else retired t t c) := by
  obtain ⟨hrb, hops⟩ := hready
  have hdef : definedOp (encB op f) = true :=
    definedOp_encB op f (by omega) (by simp only [funcCount]; split_ifs <;> omega) (by omega)
  have hform : firstTrap [ill (one && f.rb != 0)] = none := by cases one <;> simp_all [firstTrap, ill]
  rw [branchOperands] at hops
  unfold branch
  rw [runInsn_end hat hdef]
  dsimp only
  rw [chk_no hform, consume_of_forall hops]
  cases cond (reg t c f.ra.toNat) (reg t c f.rb.toNat) with
  | none => rfl
  | some b => cases b <;> rfl

variable {i : Instr} (hi : exec i s = branch c op f one cond s) (hat : AtInsn s t c (encB op f)) (hop : 0x20 ≤ op ∧ op ≤ 0x27)
  (hready : BranchReady t c f one)
include hi hat hop hready

theorem branch_of_some {p : Prop} [Decidable p] (h : cond (reg t c f.ra.toNat) (reg t c f.rb.toNat) = some (decide p)) :
    exec i s = .next (if p then jumped t t c (target t c f.off.toInt) else retired t t c) := by
  rw [hi, branch_eq hat hop hready, h, Option.elim_some]
  simp only [decide_eq_true_eq]

theorem branch_of_none (h : cond (reg t c f.ra.toNat) (reg t c f.rb.toNat) = none) : Traps i s t c (tagTrap rTYPE) := by
  unfold Traps
  rw [hi, branch_eq hat hop hready, h, Option.elim_none]

end

/-! ### The rows of Table 8.7 and their conditions -/

section
variable {c : Nat} {f : BF} {s : State}

theorem exec_beq : exec (.beq c f) s = branch c 0x20 f false (fun x y => some (x == y)) s := rfl
theorem exec_bne : exec (.bne c f) s = branch c 0x21 f false (fun x y => some (x != y)) s := rfl
theorem exec_blt : exec (.blt c f) s = branch c 0x22 f false intLt s := rfl
theorem exec_bge : exec (.bge c f) s = branch c 0x23 f false (fun x y => (intLt x y).map (!·)) s := rfl
theorem exec_bt : exec (.bt c f) s = branch c 0x24 f true (fun x _ => boolOf x) s := rfl
theorem exec_bf : exec (.bf c f) s = branch c 0x25 f true (fun x _ => (boolOf x).map (!·)) s := rfl
theorem exec_bnil : exec (.bnil c f) s = branch c 0x26 f true (fun x _ => some (x.tag == tNIL)) s := rfl
theorem exec_bnnil : exec (.bnnil c f) s = branch c 0x27 f true (fun x _ => some (x.tag != tNIL)) s := rfl

end

section
variable {x y : TWord}

theorem intLt_of_int (hx : x.tag = tINT) (hy : y.tag = tINT) : intLt x y = some (decide (x.val.toInt < y.val.toInt)) :=
  if_pos ⟨hx, hy⟩

theorem intLt_of_not_int (h : ¬ (x.tag = tINT ∧ y.tag = tINT)) : intLt x y = none := if_neg h

theorem boolOf_of_bool (hx : x.tag = tBOOL) : boolOf x = some (decide (x.val = 1)) := if_pos hx

theorem boolOf_of_not_bool (hx : x.tag ≠ tBOOL) : boolOf x = none := if_neg hx

/-- A row whose condition is another's negated. -/
theorem map_not_decide {o : Option Bool} {p q : Prop} [Decidable p] [Decidable q] (h : o = some (decide p)) (hq : ¬ p ↔ q) :
    o.map (!·) = some (decide q) := by
  simp [h, ← hq]

end

/-- Settles O10: each row is a `branch`, so its condition on the operands decides between the target, the next instruction and the
tag trap. -/
theorem branchesComplete : Obligations.BranchesComplete := by
  unfold Obligations.BranchesComplete
  intro s t c f x y a hx hy ha hxp hxu
  subst hx hy ha
  refine ⟨fun hyp hyu => ?two, fun hrb => ?one⟩
  case two =>
    have hready := branchReady_two ⟨hxp, hxu⟩ ⟨hyp, hyu⟩
    refine ⟨fun hat => ?beq, fun hat => ?bne, fun hat hi hj => ?blt, fun hat hi hj => ?bge, fun hat hn => ?bltTrap, fun hat hn => ?bgeTrap⟩
    case beq => exact branch_of_some exec_beq hat (by decide) hready rfl
    case bne => exact branch_of_some exec_bne hat (by decide) hready (congrArg some (decide_not ..).symm)
    case blt => exact branch_of_some exec_blt hat (by decide) hready (intLt_of_int hi hj)
    case bge => exact branch_of_some exec_bge hat (by decide) hready (map_not_decide (intLt_of_int hi hj) not_lt)
    case bltTrap => exact branch_of_none exec_blt hat (by decide) hready (intLt_of_not_int hn)
    case bgeTrap => exact branch_of_none exec_bge hat (by decide) hready (Option.map_eq_none_iff.mpr (intLt_of_not_int hn))
  case one =>
    have hready := branchReady_one hrb ⟨hxp, hxu⟩
    refine ⟨fun hat hb => ?bt, fun hat hb => ?bf, fun hat => ?bnil, fun hat => ?bnnil, fun hat hn => ?btTrap, fun hat hn => ?bfTrap⟩
    case bt => exact branch_of_some exec_bt hat (by decide) hready (boolOf_of_bool hb)
    case bf => exact branch_of_some exec_bf hat (by decide) hready (map_not_decide (boolOf_of_bool hb) Iff.rfl)
    case bnil => exact branch_of_some exec_bnil hat (by decide) hready rfl
    case bnnil => exact branch_of_some exec_bnnil hat (by decide) hready (congrArg some (decide_not ..).symm)
    case btTrap => exact branch_of_none exec_bt hat (by decide) hready (boolOf_of_not_bool hn)
    case bfTrap => exact branch_of_none exec_bf hat (by decide) hready (Option.map_eq_none_iff.mpr (boolOf_of_not_bool hn))

/-! ### Jumps through a register (R226) -/

theorem definedOp_jumpr (f : RF) {func : Nat} (h : func < 3) : definedOp (encR 0x2A f func) = true :=
  definedOp_encR 0x2A func f (by decide) h (by omega)

section
variable {s : State} {w : TWord} {g : Nat → IRes}

theorem jumpReg_of_retaddr (ht : w.tag = tRETADDR) (hv : retOk w.val = true) : jumpReg s w g = g w.val.toNat := by
  have hc : w.tag ≠ tPOISON ∧ w.tag ≠ tUNBOUND := by rw [ht]; decide
  rw [jumpReg, consume_one hc, chk_no (by simp [firstTrap, tagIf, ht, hv])]

theorem jumpReg_of_not_retaddr (ht : w.tag ≠ tRETADDR) (hp : w.tag ≠ tPOISON) (hu : w.tag ≠ tUNBOUND) :
    jumpReg s w g = .trap s (tagTrap rTYPE) := by
  rw [jumpReg, consume_one ⟨hp, hu⟩]
  simp [chk, firstTrap, tagIf, ht]

end

section
variable {s t : State} {c : Nat} {f : RF} (hd : f.rd = 0) (hb : f.rb = 0) (he : f.rd2 = 0)
include hd hb he

/-- JR and CALLR name ra alone. -/
theorem chk_jumpr_form {r : IRes} : chk t [ill (f.d ≠ 0 ∨ f.b ≠ 0 ∨ f.e ≠ 0)] r = r :=
  chk_no (by simp [firstTrap, ill, RF.d, RF.b, RF.e, hd, hb, he])

theorem execJr_at (hat : AtInsn s t c (encR 0x2A f 0)) :
    execJr c f s = .next (endInsn t c (jumpReg t (reg t c f.a) fun a => .goto t a)) := by
  unfold execJr
  rw [runInsn_end hat (definedOp_jumpr f (by decide)), chk_jumpr_form hd hb he]

theorem execCallr_at (hat : AtInsn s t c (encR 0x2A f 1)) :
    execCallr c f s = .next (endInsn t c (jumpReg t (reg t c f.a) fun a => callTo t c a)) := by
  unfold execCallr
  rw [runInsn_end hat (definedOp_jumpr f (by decide)), chk_jumpr_form hd hb he]

end

/-! ### The push of a call (R226, R227) -/

/-- The state after a call has pushed its return address at p and written LINK. -/
def linked (s : State) (c p : Nat) (ssp w : TWord) : State :=
  putReg (updCore s c (fun k => { k with ssp := ⟨ssp.tag, BitVec.ofNat 64 p⟩ })) c 28 w

theorem callTo_ok {t t1 t2 : State} {c p : Nat} {y : Xl} {ssp : TWord} (dest : Nat) (hssp : (getCore t c).ssp = ssp)
    (hptr : ptrOk ssp.val = true) (hp : ssp.val.toNat = p + 8) (hx : xlate t c p kPUSH = .ok t1 y)
    (hw : wrAt t1 c y (linkWord t c) 64 = .ok t2 ()) :
    callTo t c dest = .goto (linked t2 c p ssp (linkWord t c)) dest := by
  have hlt : p < 2 ^ 48 := by have := ptr_lt hptr; omega
  have hsub : ((ssp.val.toNat : Nat) : Int) - 8 = p := by omega
  subst hssp
  unfold callTo
  dsimp only
  rw [Acs.fin_of (ptrChk_ok hptr), hsub, Acs.fin_of (addrChk_ok hlt), Acs.fin_of hx, Acs.fin_of hw]
  rfl

/-! ### RET (R228) -/

/-- RET compares LINK with the shadow-stack top, once LINK may be consumed and the top has been read. -/
theorem execRet_at {s t t1 : State} {c : Nat} {y : Xl} {link top ssp : TWord} (hat : AtInsn s t c (encR 0x2A ⟨0, 0, 0, 0⟩ 2))
    (hlink : reg t c 28 = link) (hssp : (getCore t c).ssp = ssp) (hcons : link.tag ≠ tPOISON ∧ link.tag ≠ tUNBOUND)
    (hret : link.tag = tRETADDR → retOk link.val = true) (hptr : ptrOk ssp.val = true)
    (htop : ldWord t c ssp.val.toNat kPOP 64 = .ok t1 (y, top)) :
    execRet c ⟨0, 0, 0, 0⟩ s = .next (
      if link.tag ≠ tRETADDR then trapCore t1 c ⟨cSSMISMATCH, 2, ssp.val.toNat, kPOP, false⟩
      else if link ≠ top then trapCore t1 c ⟨cSSMISMATCH, 1, ssp.val.toNat, kPOP, false⟩
      else jumped (updCore t1 c (fun k => { k with ssp := ⟨ssp.tag, ssp.val + 8⟩ })) t c link.val.toNat) := by
  subst hlink hssp
  unfold execRet
  rw [runInsn_end hat (definedOp_jumpr _ (by decide))]
  dsimp only
  rw [chk_no (by rfl), consume_one hcons, chk_no (by simpa [firstTrap] using hret), Acs.fin_of (ptrChk_ok hptr), Acs.fin_of htop]
  split_ifs <;> rfl

/-- Settles O11: J and JR write nothing; CALL and CALLR continue from the state that `callTo` leaves; RET ends by its comparison. -/
theorem jumpsComplete : Obligations.JumpsComplete := by
  unfold Obligations.JumpsComplete
  intro s t t1 t2 t3 c a f off x w link top p y ssp ha hssp hw
  subst ha hw
  refine ⟨fun hat => ?j, fun hd hb he hx ht hv hat => ?jr, fun hd hb he hx ht hp hu => ⟨fun hat => ?jrTrap, fun hat => ?callrTrap⟩,
    fun hptr hp hxl hwr h3 => ?calls, fun hf hat hlink hp hu hret hptr htop => ?rets⟩
  case j => exact runInsn_goto hat (definedOp_encJ 0x28 off (by decide) (by decide) (by decide)) rfl
  case jr =>
    subst hx
    refine (execJr_at hd hb he hat).trans ?_
    rw [jumpReg_of_retaddr ht hv]
    rfl
  case jrTrap =>
    subst hx
    refine (execJr_at hd hb he hat).trans ?_
    rw [jumpReg_of_not_retaddr ht hp hu]
    rfl
  case callrTrap =>
    subst hx
    refine (execCallr_at hd hb he hat).trans ?_
    rw [jumpReg_of_not_retaddr ht hp hu]
    rfl
  case calls =>
    subst h3
    refine ⟨fun hat => ?_, fun hd hb he hx ht hv hat => ?_⟩
    · exact runInsn_goto hat (definedOp_encJ 0x29 off (by decide) (by decide) (by decide)) (callTo_ok _ hssp hptr hp hxl hwr)
    · subst hx
      refine (execCallr_at hd hb he hat).trans ?_
      rw [jumpReg_of_retaddr ht hv, callTo_ok _ hssp hptr hp hxl hwr]
      rfl
  case rets =>
    subst hf
    have hend := execRet_at hat hlink hssp ⟨hp, hu⟩ hret hptr htop
    refine ⟨fun ht heq => hend.trans ?_, fun ht hne => hend.trans ?_, fun ht => hend.trans ?_⟩
    · rw [if_neg (not_not_intro ht), if_neg (not_not_intro heq)]
    · rw [if_neg (not_not_intro ht), if_pos hne]
    · rw [if_pos ht]

end Sys2Proof.Machine
end

section

/-! PROOFS. What every row keeps (R109, R111, R112; O58, O59): the forms in which rows are written keep the queue and one-time
storage where their bodies do; the rows, by the section of the model they stand in; the rows that program one-time storage; a step
and a run of steps. -/
namespace Sys2Proof.Machine

open Sys2Proof

-- Each proof is checked before the next begins, so that no more than one is held in memory.
set_option Elab.async false

/-! ### Rules for what keeps the queue and one-time storage -/

/-- The queue and one-time storage of t are those of s. -/
@[simp] def Same (s t : State) : Prop := t.pending = s.pending ∧ t.sec.otp = s.sec.otp

/-- A row answers a state that keeps the queue and one-time storage. -/
def Keeps (s : State) : Host.Outcome State Fault Refusal → Prop
  | .next t => Same s t
  | _ => False

/-- An instruction's body ends in a state that keeps the queue and one-time storage. -/
def BodyKeeps (s : State) (r : IRes) : Prop := Same s r.st

/-- An access ends in a state that keeps the queue and one-time storage. -/
def AcsKeeps {α : Type} (s : State) (x : Acs α) : Prop := Same s x.st

/-- A console action ends in a state that keeps the queue and one-time storage. -/
def ActKeeps (s : State) (r : ActRes) : Prop := Same s r.st

section
variable {s t : State}

@[simp] theorem keeps_next : Keeps s (.next t) ↔ Same s t := Iff.rfl

theorem keeps_of_exists {o : Host.Outcome State Fault Refusal} (h : ∃ x, o = .next x ∧ x.pending = s.pending ∧ x.sec.otp = s.sec.otp) :
    Keeps s o := by
  obtain ⟨x, rfl, hx⟩ := h
  exact hx

@[simp] theorem keeps_ite {p : Prop} [Decidable p] {a b : Host.Outcome State Fault Refusal} :
    Keeps s (if p then a else b) ↔ if p then Keeps s a else Keeps s b := by split <;> rfl

@[simp] theorem bodyKeeps_iff {r : IRes} : BodyKeeps s r ↔ Same s r.st := Iff.rfl
@[simp] theorem bodyKeeps_done : BodyKeeps s (.done t) ↔ Same s t := Iff.rfl
@[simp] theorem bodyKeeps_goto {a : Nat} : BodyKeeps s (.goto t a) ↔ Same s t := Iff.rfl
@[simp] theorem bodyKeeps_stay : BodyKeeps s (.stay t) ↔ Same s t := Iff.rfl
@[simp] theorem bodyKeeps_trap {x : Trap} : BodyKeeps s (.trap t x) ↔ Same s t := Iff.rfl

@[simp] theorem bodyKeeps_ite {p : Prop} [Decidable p] {a b : IRes} :
    BodyKeeps s (if p then a else b) ↔ if p then BodyKeeps s a else BodyKeeps s b := by split <;> rfl

@[simp] theorem bodyKeeps_chk {l : List (Bool × Trap)} {r : IRes} (h : BodyKeeps s r) : BodyKeeps s (chk s l r) :=
  ⟨chk_keep_pending s l r h.1, chk_keep_sec_otp s l r h.2⟩

@[simp] theorem chk_done_st {l : List (Bool × Trap)} : (chk s l (.done s)).st = s := by unfold chk; split <;> rfl

@[simp] theorem bodyKeeps_consume {ws : List TWord} {r : IRes} (h : BodyKeeps s r) : BodyKeeps s (consume s ws r) :=
  ⟨consume_keep_pending s ws r h.1, consume_keep_sec_otp s ws r h.2⟩

@[simp] theorem bodyKeeps_jumpReg {w : TWord} {f : Nat → IRes} (h : ∀ a, BodyKeeps s (f a)) : BodyKeeps s (jumpReg s w f) :=
  ⟨jumpReg_keep_pending s w f fun a => (h a).1, jumpReg_keep_sec_otp s w f fun a => (h a).2⟩

@[simp] theorem bodyKeeps_fin {α : Type} {x : Acs α} {f : State → α → IRes} (h : AcsKeeps s x) (hf : ∀ a v, BodyKeeps a (f a v)) :
    BodyKeeps s (x.fin f) :=
  ⟨(Acs.fin_pending x f fun a v => (hf a v).1).trans h.1, (Acs.fin_otp x f fun a v => (hf a v).2).trans h.2⟩

@[simp] theorem bodyKeeps_effCop {c n : Nat} {f : CF} {o : EffOp} {issue : State → Issued} (h : ∀ a, Same a (issue a).st) :
    BodyKeeps s (effCop c f n o issue s) :=
  ⟨effCop_keep_pending c f n o issue s fun a => (h a).1, effCop_keep_sec_otp c f n o issue s fun a => (h a).2⟩

theorem same_unitIssue {c unit : Nat} {e : CopEnd} {run : State → State × List TWord} (h : ∀ a, Same a (run a).1) :
    Same s (unitIssue c unit e run s).st :=
  ⟨unitIssue_keep_pending c unit e run s fun a => (h a).1, unitIssue_keep_sec_otp c unit e run s fun a => (h a).2⟩

@[simp] theorem acsKeeps_iff {α : Type} {x : Acs α} : AcsKeeps s x ↔ Same s x.st := Iff.rfl

@[simp] theorem acsKeeps_ite {α : Type} {p : Prop} [Decidable p] {a b : Acs α} :
    AcsKeeps s (if p then a else b) ↔ if p then AcsKeeps s a else AcsKeeps s b := by split <;> rfl

@[simp] theorem acsKeeps_bind {α β : Type} {x : Acs α} {f : State → α → Acs β} (h : AcsKeeps s x) (hf : ∀ a v, AcsKeeps a (f a v)) :
    AcsKeeps s (x.bind f) :=
  ⟨(Acs.bind_pending x f fun a v => (hf a v).1).trans h.1, (Acs.bind_otp x f fun a v => (hf a v).2).trans h.2⟩

@[simp] theorem actKeeps_iff {r : ActRes} : ActKeeps s r ↔ Same s r.st := Iff.rfl

theorem actKeeps_consume1 {l : ConLine} {f : List Byte → ActRes} (h : ∀ b, ActKeeps s (f b)) : ActKeeps s (consume1 l f s) :=
  ⟨consume1_keep_pending l f s fun b => (h b).1, consume1_keep_sec_otp l f s fun b => (h b).2⟩

/-! ### Rules for the forms in which rows are written -/

@[simp] theorem keeps_runInsn {c enc : Nat} {body : State → IRes} (h : ∀ a, BodyKeeps a (body a)) : Keeps s (runInsn c enc body s) :=
  keeps_of_exists (runInsn_keep c enc body s (fun a => (h a).1) (fun a => (h a).2))

@[simp] theorem keeps_pureCop {c unit op : Nat} {f : CF} {e : CopEnd} {checks : State → List (Bool × Trap)} {run : State → Acs PureRes}
    (h : ∀ a, AcsKeeps a (run a)) : Keeps s (pureCop c f unit op e checks run s) :=
  keeps_of_exists (pureCop_keep c f unit op e checks run s (fun a => (h a).1) (fun a => (h a).2))

theorem keeps_runCmd {l : ConLine} {sp : CmdSpec} {act : Nat → State → ActRes} (h : ∀ n a, ActKeeps a (act n a)) :
    Keeps s (.next (runCmd l sp act s)) :=
  ⟨runCmd_keep_pending l sp act s fun n a => (h n a).1, runCmd_keep_sec_otp l sp act s fun n a => (h n a).2⟩

theorem keeps_bookLine {l : ConLine} {sp : CmdSpec} {act : Nat → State → ActRes} (h : ∀ n a, ActKeeps a (act n a)) :
    Keeps s (bookLine l sp act s) := keeps_of_exists (bookLine_keep l sp act s (fun n a => (h n a).1) (fun n a => (h n a).2))

theorem keeps_runShow {l : ConLine} {ok : Bool} {act : State → ActRes} (h : ∀ a, ActKeeps a (act a)) : Keeps s (.next (runShow l ok act s)) :=
  ⟨runShow_keep_pending l ok act s fun a => (h a).1, runShow_keep_sec_otp l ok act s fun a => (h a).2⟩

theorem keeps_authLine {l : ConLine} {sp : CmdSpec} {act : Nat → State → ActRes} (h : ∀ n a, ActKeeps a (act n a)) :
    Keeps s (.next (authLine l sp act s)) :=
  ⟨authLine_keep_pending l sp act s fun n a => (h n a).1, authLine_keep_sec_otp l sp act s fun n a => (h n a).2⟩

theorem keeps_ptpMsg {m : PtpMsg} {f : Nat → State} (h : ∀ r, Same s (f r)) : Keeps s (.next (ptpMsg s m f)) :=
  ⟨ptpMsg_keep_pending s m f fun r => (h r).1, ptpMsg_keep_sec_otp s m f fun r => (h r).2⟩

theorem keeps_mgmtFrame {f : Frame} {cs : List SClass} {ms : List DMode} {go : State → State} (h : ∀ a, Same a (go a)) :
    Keeps s (.next (mgmtFrame s f cs ms go)) :=
  ⟨mgmtFrame_keep_pending s f cs ms go fun a => (h a).1, mgmtFrame_keep_sec_otp s f cs ms go fun a => (h a).2⟩

end

section
variable (s : State) (c op : Nat) (f : RF) (g : IF)

@[simp] theorem bitInsn_keeps (fn : BitVec 64 → BitVec 64 → BitVec 64) : Keeps s (bitInsn c f op fn s) := keeps_of_exists (bitInsn_keep ..)
@[simp] theorem shiftInsn_keeps (fn : BitVec 64 → Nat → BitVec 64) : Keeps s (shiftInsn c f op fn s) := keeps_of_exists (shiftInsn_keep ..)
@[simp] theorem loadInsn_keeps (ev : List MemEv) : Keeps s (loadInsn c op g ev s) := keeps_of_exists (loadInsn_keep ..)
@[simp] theorem storeInsn_keeps (ev : List MemEv) : Keeps s (storeInsn c op g ev s) := keeps_of_exists (storeInsn_keep ..)
@[simp] theorem branch_keeps (b : BF) (one : Bool) (cond : TWord → TWord → Option Bool) : Keeps s (branch c op b one cond s) :=
  keeps_of_exists (branch_keep ..)
@[simp] theorem fabricWrite_keeps (req b off width v : Nat) : Keeps s (fabricWrite s req b off width v) := keeps_of_exists (fabricWrite_keep ..)
@[simp] theorem resume_keeps (l : ConLine) (scope t b : Nat) (causes : List Nat) : Keeps s (resume l scope t b causes s) :=
  keeps_of_exists (resume_keep ..)

end

@[simp] theorem lanes_rows_keep (s : State) :
    (∀ q p rateOk taps, Keeps s (execTrainingComplete q p rateOk taps s)) ∧ (∀ q p, Keeps s (execTrainingTimeout q p s) ∧ Keeps s
      (execFaultTimeout q p s)) ∧ (∀ q p rxCut txCut, Keeps s (execPcsLockLoss q p rxCut txCut s)) ∧ (∀ k eyes, Keeps s (execMarginMeasure
      k eyes s)) ∧ (∀ k corr unc sym berlog, Keeps s (execBerEstimate k corr unc sym berlog s)) := by
  simp [execTrainingComplete, execTrainingTimeout, execPcsLockLoss, execFaultTimeout, execMarginMeasure, execBerEstimate]

@[simp] theorem arith_rows_keep (s : State) :
    (∀ c f, Keeps s (execAdd c f s) ∧ Keeps s (execSub c f s) ∧ Keeps s (execMul c f s) ∧ Keeps s (execDiv c f s) ∧ Keeps s (execMdivi c f
      s) ∧ Keeps s (execCmp c f s) ∧ Keeps s (execAnd c f s) ∧ Keeps s (execOr c f s) ∧ Keeps s (execXor c f s) ∧ Keeps s (execAndn c f s)
      ∧ Keeps s (execSll c f s) ∧ Keeps s (execSrl c f s) ∧ Keeps s (execSra c f s) ∧ Keeps s (execMov c f s) ∧ Keeps s (execTag c f s) ∧
      Keeps s (execNop c f s)) ∧ (∀ c g, Keeps s (execAddi c g s) ∧ Keeps s (execCmpi c g s) ∧ Keeps s (execAndi c g s) ∧ Keeps s (execOri
      c g s) ∧ Keeps s (execShi c g s) ∧ Keeps s (execLi c g s)) := by
  simp [execAdd, execSub, execMul, execDiv, execMdivi, execCmp, execAnd, execOr, execXor, execAndn, execSll, execSrl, execSra, execMov,
    execTag, execNop, execAddi, execCmpi, execAndi, execOri, execShi, execLi]

@[simp] theorem lists_rows_keep (s : State) :
    (∀ c f, Keeps s (execCar c f s) ∧ Keeps s (execCdr c f s) ∧ Keeps s (execSetcar c f s) ∧ Keeps s (execSetcdr c f s)) := by
  simp [execCar, execCdr, execSetcar, execSetcdr]

@[simp] theorem memOps_rows_keep (s : State) :
    (∀ c g ev, Keeps s (execLd c g ev s) ∧ Keeps s (execSt c g ev s) ∧ Keeps s (execLda c g ev s) ∧ Keeps s (execStr c g ev s)) ∧ (∀ c f
      stop, Keeps s (execSm c f stop s) ∧ Keeps s (execLm c f stop s)) ∧ (∀ c f, Keeps s (execSavel c f s) ∧ Keeps s (execSaveh c f s) ∧
      Keeps s (execLoadl c f s) ∧ Keeps s (execLoadh c f s)) := by
  simp [execLd, execSt, execLda, execStr, execSm, execLm, execSavel, execSaveh, execLoadl, execLoadh]

@[simp] theorem flow_rows_keep (s : State) :
    (∀ c b, Keeps s (execBeq c b s) ∧ Keeps s (execBne c b s) ∧ Keeps s (execBlt c b s) ∧ Keeps s (execBge c b s) ∧ Keeps s (execBt c b s)
      ∧ Keeps s (execBf c b s) ∧ Keeps s (execBnil c b s) ∧ Keeps s (execBnnil c b s)) ∧ (∀ c off, Keeps s (execJ c off s) ∧ Keeps s
      (execCall c off s)) := by
  simp [execBeq, execBne, execBlt, execBge, execBt, execBf, execBnil, execBnnil, execJ, execCall]

@[simp] theorem execRetx_keeps (s : State) (c : Nat) (f : RF) : Keeps s (execRetx c f s) :=
  keeps_runInsn fun _ => bodyKeeps_chk (by simp)

@[simp] theorem execTlbiAll_keeps (s : State) (c : Nat) (f : RF) : Keeps s (execTlbiAll c f s) :=
  keeps_runInsn fun _ => bodyKeeps_chk (by simp)

@[simp] theorem sysOps_rows_keep (s : State) :
    (∀ c f, Keeps s (execFence c f s) ∧ Keeps s (execFenceI c f s) ∧ Keeps s (execRetx c f s) ∧ Keeps s (execTlbiAll c f s)) ∧ (∀ c g,
      Keeps s (execMfcr c g s)) := by
  simp [execFence, execFenceI, execMfcr]

@[simp] theorem coreEvt_rows_keep (s : State) :
    (∀ c cause, Keeps s (execInterruptTake c cause s)) ∧ (∀ c, Keeps s (execCoreWatchdogExpire c s)) ∧ (∀ c uaddr redir, Keeps s
      (execUwaitTimeout c uaddr redir s)) ∧ (∀ tenant, Keeps s (execPairUnavailableTimeout tenant s)) ∧ (∀ c pass, Keeps s
      (execCoreSelftestComplete c pass s)) ∧ (∀ pair pass, Keeps s (execPairTestComplete pair pass s)) ∧ (∀ cluster, Keeps s
      (execDrbgReseedTimer cluster s) ∧ Keeps s (execEntropyRestore cluster s)) := by
  simp [execInterruptTake, execCoreWatchdogExpire, execUwaitTimeout, execPairUnavailableTimeout, execCoreSelftestComplete,
    execPairTestComplete, execDrbgReseedTimer, execEntropyRestore]

@[simp] theorem cop_rows_keep (s : State) :
    (∀ c h e, Keeps s (execSha256 c h e s) ∧ Keeps s (execSha3 c h e s) ∧ Keeps s (execP256v c h e s) ∧ Keeps s (execP384v c h e s) ∧
      Keeps s (execEd25519v c h e s) ∧ Keeps s (execChained c h e s)) := by
  simp [execSha256, execSha3, execP256v, execP384v, execEd25519v, execChained]

@[simp] theorem awp_rows_keep (s : State) :
    (∀ f, Keeps s (execOffer f s) ∧ Keeps s (execCancel f s) ∧ Keeps s (execHeartbeat f s)) ∧ (∀ f reads, Keeps s (execQuery f reads s)) ∧
      (∀ lane target, Keeps s (execArpRequest lane target s) ∧ Keeps s (execNeighbourSolicitation lane target s)) ∧ (∀ lane v6 dst src,
      Keeps s (execEchoRequest lane v6 dst src s)) ∧ (∀ lane, Keeps s (execPauseFrame lane s)) ∧ (∀ lane atA2, Keeps s (execFrameDiscard
      lane atA2 s)) := by
  simp [execOffer, execCancel, execQuery, execHeartbeat, execArpRequest, execNeighbourSolicitation, execEchoRequest, execPauseFrame,
    execFrameDiscard]

@[simp] theorem time_rows_keep (s : State) :
    (∀ m, Keeps s (execSync m s) ∧ Keeps s (execFollowUp m s)) ∧ (∀ m ptpScale offset, Keeps s (execAnnounce m ptpScale offset s)) ∧ (∀ r,
      Keeps s (execPpsEdge r s)) ∧ Keeps s (execSlewEnd s) ∧ Keeps s (execLeapTableInstant s) ∧ Keeps s (execPpsOutEdge s) ∧ (∀ inp, Keeps
      s (execRefInputReturn inp s) ∧ Keeps s (execPllLockRegained inp s)) := by
  simp [execSync, execFollowUp, execAnnounce, execPpsEdge, execSlewEnd, execLeapTableInstant, execPpsOutEdge, execRefInputReturn,
    execPllLockRegained]

@[simp] theorem flash_rows_keep (s : State) :
    (∀ d channel, Keeps s (execDieTimeout d channel s)) ∧ (∀ k reads, Keeps s (execPatrolRead k reads s)) ∧ (∀ k, Keeps s
      (execBlockEvaluate k s)) ∧ Keeps s (execQuietWindowBoundary s) ∧ Keeps s (execWearEvaluate s) ∧ Keeps s (execMapCheckpoint s) ∧
      Keeps s (execZqCalibration s) ∧ (∀ d temp, Keeps s (execDqTraining d temp s)) := by
  simp [execDieTimeout, execPatrolRead, execBlockEvaluate, execQuietWindowBoundary, execWearEvaluate, execMapCheckpoint,
    execZqCalibration, execDqTraining]

@[simp] theorem tamper_rows_keep (s : State) :
    Keeps s (execClockTamper s) ∧ Keeps s (execSupplyGlitch s) ∧ Keeps s (execThermalHold s) ∧ (∀ temps, Keeps s (execThermalSample temps
      s)) ∧ (∀ upsets, Keeps s (execTmrScrub upsets s)) := by
  simp [execClockTamper, execSupplyGlitch, execThermalSample, execThermalHold, execTmrScrub]

@[simp] theorem power_rows_keep (s : State) :
    (∀ kept lat, Keeps s (execPfailLatch kept lat s)) ∧ Keeps s (execPfailRestart s) ∧ Keeps s (execPfailGlitch s) ∧ Keeps s
      (execExternalReset s) ∧ Keeps s (execMgmtWatchdogExpire s) ∧ Keeps s (execMgmtLockstepMismatch s) ∧ Keeps s (execHoldFlushComplete
      s) ∧ Keeps s (execVbatLost s) ∧ (∀ rail rising kept lat, Keeps s (execPowerOnReset rail rising kept lat s)) ∧ (∀ mv, Keeps s
      (execHoldupSample mv s) ∧ Keeps s (execVbatLow mv s)) ∧ (∀ loops temp mv, Keeps s (execVaultMonitorSample loops temp mv s)) := by
  simp [execPfailLatch, execPfailRestart, execPfailGlitch, execPowerOnReset, execExternalReset, execMgmtWatchdogExpire,
    execMgmtLockstepMismatch, execHoldFlushComplete, execHoldupSample, execVbatLow, execVbatLost, execVaultMonitorSample]

@[simp] theorem mode_rows_keep (s : State) :
    Keeps s (execDrainComplete s) ∧ (∀ l, Keeps s (execSetModeHold l s) ∧ Keeps s (execResetDevice l s)) ∧ (∀ con, Keeps s
      (execRtsAsserted con s)) := by
  simp [execDrainComplete, execSetModeHold, execResetDevice, execRtsAsserted]

@[simp] theorem regCmds_rows_keep (s : State) :
    (∀ req block val, Keeps s (execUnlock req block val s)) ∧ (∀ req mask, Keeps s (execUpdate req mask s)) ∧ (∀ req, Keeps s (execSnap
      req s)) ∧ (∀ req val, Keeps s (execModeWrite req val s) ∧ Keeps s (execRefenWrite req val s) ∧ Keeps s (execEclassWrite req val s) ∧
      Keeps s (execRplRunWrite req val s)) ∧ (∀ req block off width val, Keeps s (execRegisterWrite req block off width val s)) ∧ (∀
      block, Keeps s (execPostedWriteTaken block s) ∧ Keeps s (execPostedDomainReset block s)) ∧ (∀ req block off val, Keeps s
      (execIndirectAddrWrite req block off val s) ∧ Keeps s (execIndirectDataWrite req block off val s)) ∧ (∀ req scope tenant book, Keeps
      s (execBookcmdOpen req scope tenant book s) ∧ Keeps s (execBookcmdSetcause req scope tenant book s) ∧ Keeps s (execBookcmdClearcause
      req scope tenant book s) ∧ Keeps s (execBookcmdRelease req scope tenant book s) ∧ Keeps s (execBookcmdRestore req scope tenant book
      s)) ∧ (∀ req lane val, Keeps s (execFreezeWrite req lane val s) ∧ Keeps s (execLmargWrite req lane val s)) := by
  simp [execUnlock, execUpdate, execSnap, execModeWrite, execRegisterWrite, execPostedWriteTaken, execPostedDomainReset,
    execIndirectAddrWrite, execIndirectDataWrite, execBookcmdOpen, execBookcmdSetcause, execBookcmdClearcause, execBookcmdRelease,
    execBookcmdRestore, execRefenWrite, execEclassWrite, execFreezeWrite, execLmargWrite, execRplRunWrite]

@[simp] theorem witness_rows_keep (s : State) :
    Keeps s (execWitnessEventInstant s) ∧ Keeps s (execAuthfailMinute s) ∧ (∀ f, Keeps s (execReport f s) ∧ Keeps s (execAlarm f s)) ∧ (∀
      n r, Keeps s (execLoopPulse n r s)) := by
  simp [execWitnessEventInstant, execReport, execAlarm, execAuthfailMinute, execLoopPulse]

@[simp] theorem boot_rows_keep (s : State) :
    (∀ failed, Keeps s (execBootStepTimeout failed s)) ∧ Keeps s (execSweepComplete s) ∧ (∀ block, Keeps s (execDomainResetEnd block s)) := by
  simp [execBootStepTimeout, execSweepComplete, execDomainResetEnd]

@[simp] theorem conEvents_rows_keep (s : State) :
    (∀ con, Keeps s (execBreakLine con s) ∧ Keeps s (execConsoleIdleTimeout con s)) ∧ (∀ con code, Keeps s (execBadLine con code s)) ∧ (∀
      l, Keeps s (execAuthOperate l s) ∧ Keeps s (execAuthEngineer l s) ∧ Keeps s (execAuthRegulate l s) ∧ Keeps s (execAuthLogout l s) ∧
      Keeps s (execAuthObserve l s) ∧ Keeps s (execState l s) ∧ Keeps s (execStageDrop l s)) ∧ (∀ l n, Keeps s (execCjFrom l n s) ∧ Keeps
      s (execStageBegin l n s)) ∧ (∀ l k, Keeps s (execCjTail l k s)) ∧ (∀ l nonce, Keeps s (execAttest l nonce s)) := by
  simp [execBreakLine, execBadLine, execConsoleIdleTimeout, execAuthOperate, execAuthEngineer, execAuthRegulate, execAuthLogout,
    execAuthObserve, execCjFrom, execCjTail, execState, execAttest, execStageBegin, execStageDrop]

@[simp] theorem seq_rows_keep (s : State) :
    (∀ t b, Keeps s (execPartingInstant t b s)) ∧ (∀ t b clear, Keeps s (execPartNumber t b clear s)) := by
  simp [execPartingInstant, execPartNumber]

@[simp] theorem mgmt_rows_keep (s : State) :
    (∀ f key, Keeps s (execSessload f key s)) ∧ (∀ f tenant session, Keeps s (execSessdrop f tenant session s)) ∧ (∀ f, Keeps s
      (execExpreq f s) ∧ Keeps s (execImpdata f s)) ∧ (∀ reqid, Keeps s (execExportIdleTimeout reqid s)) := by
  simp [execSessload, execSessdrop, execExpreq, execExportIdleTimeout, execImpdata]

@[simp] theorem mirror_rows_keep (s : State) :
    (∀ role ident sigOk, Keeps s (execHello role ident sigOk s)) ∧ (∀ lseq tenant tagOk body, Keeps s (execRecord lseq tenant tagOk body
      s) ∧ Keeps s (execGrain lseq tenant tagOk body s)) ∧ (∀ lseq tenant k digest tagOk, Keeps s (execAnchor lseq tenant k digest tagOk
      s)) ∧ (∀ lseq tenant first digests tagOk, Keeps s (execDigest lseq tenant first digests tagOk s)) ∧ (∀ lseq acked limit tagOk, Keeps
      s (execAck lseq acked limit tagOk s)) ∧ (∀ lseq expected tagOk, Keeps s (execNack lseq expected tagOk s)) ∧ (∀ lseq pos tagOk, Keeps
      s (execPosition lseq pos tagOk s)) ∧ (∀ lseq tenant n mine theirs tagOk, Keeps s (execDiverge lseq tenant n mine theirs tagOk s)) ∧
      Keeps s (execMirrorRetransmitTimeout s) ∧ Keeps s (execMirrorAckTimer s) ∧ Keeps s (execDigestSendTimer s) ∧ Keeps s
      (execMirrorLossTimeout s) ∧ (∀ tenant, Keeps s (execMirrorLagTimeout tenant s)) := by
  simp [execHello, execRecord, execGrain, execAnchor, execDigest, execAck, execNack, execPosition, execDiverge,
    execMirrorRetransmitTimeout, execMirrorAckTimer, execDigestSendTimer, execMirrorLossTimeout, execMirrorLagTimeout]

@[simp] theorem manage_rows_keep (s : State) :
    (∀ l ref on, Keeps s (execSetTimeref l ref on s)) ∧ (∀ l t b causes, Keeps s (execResumeBook l t b causes s)) ∧ (∀ l t causes, Keeps s
      (execResumeTenant l t causes s)) ∧ (∀ l causes, Keeps s (execResumeDevice l causes s)) := by
  simp [execSetTimeref, execResumeBook, execResumeTenant, execResumeDevice]

@[simp] theorem journalCmds_rows_keep (s : State) :
    (∀ l mask, Keeps s (execClearTamper l mask s)) ∧ (∀ l n, Keeps s (execWitnessLoopCal l n s)) := by
  simp [execClearTamper, execWitnessLoopCal]

@[simp] theorem records_rows_keep (s : State) :
    Keeps s (execCountsWrite s) ∧ Keeps s (execTelemetrySecond s) ∧ Keeps s (execTelemetrySummary s) ∧ (∀ vals, Keeps s
      (execTelemetrySample vals s)) := by
  simp [execCountsWrite, execTelemetrySample, execTelemetrySecond, execTelemetrySummary]

@[simp] theorem shows_rows_keep (s : State) :
    (∀ l, Keeps s (execShowTime l s) ∧ Keeps s (execShowTamper l s) ∧ Keeps s (execShowPower l s)) ∧ (∀ l t, Keeps s (execShowJournal l t
      s)) ∧ (∀ l t, Keeps s (execShowMirror l t s)) ∧ (∀ l t, Keeps s (execShowTenant l t s)) ∧ (∀ l t b, Keeps s (execShowBook l t b s)) ∧
      (∀ l die reloc, Keeps s (execShowMedia l die reloc s)) ∧ (∀ l k, Keeps s (execShowLane l k s)) := by
  simp [execShowTime, execShowJournal, execShowTamper, execShowBook, execShowMedia, execShowPower, execShowMirror, execShowTenant,
    execShowLane]

@[simp] theorem unit_events_keep (s : State) :
    (∀ q p partner rsFec, Keeps s (execAnComplete q p partner rsFec s)) ∧ (∀ q p, Keeps s (execLinkEventWindowEnd q p s)) ∧ (∀ c g bank,
      Keeps s (execSysc c g bank s)) ∧ (∀ c, Keeps s (execPairWaitTimeout c s)) ∧ (∀ c, Keeps s (execAppendWaitTimeout c s)) ∧ (∀ cluster
      kind busy, Keeps s (execEntropyTestFail cluster kind busy s)) ∧ (∀ addr uncorrectable corrected, Keeps s (execDramPatrolRead addr
      uncorrectable corrected s)) ∧ (∀ m, Keeps s (execPdelayReq m s)) ∧ (∀ gm, Keeps s (execPtpSampleTimeout gm s)) ∧ (∀ r sec locked
      crcOk, Keeps s (execTodLine r sec locked crcOk s)) ∧ (∀ r, Keeps s (execPpsMissing r s)) ∧ Keeps s (execURecompute s) ∧ Keeps s
      (execAcqWaitExpire s) ∧ (∀ inp, Keeps s (execRefInputLoss inp s)) ∧ (∀ block, Keeps s (execKeyguardExpire block s)) := by
  simp only [execAnComplete, execLinkEventWindowEnd, execSysc, execPairWaitTimeout, execAppendWaitTimeout, execEntropyTestFail,
    execDramPatrolRead, execPdelayReq, execPtpSampleTimeout, execTodLine, execPpsMissing, execURecompute, execAcqWaitExpire,
    execRefInputLoss, execKeyguardExpire]
  and_intros <;> intros <;> (repeat' split) <;> simp

@[simp] theorem journal_events_keep (s : State) :
    (∀ t, Keeps s (execRowHoldTimeout t s)) ∧ (∀ t, Keeps s (execFcdelayTimeout t s)) ∧ (∀ n bad, Keeps s (execSapwoodFree n bad s)) ∧ (∀
      k eraseFail lost, Keeps s (execRelocation k eraseFail lost s)) ∧ (∀ cjn, Keeps s (execCommandReplyRelease cjn s)) ∧ (∀ busy, Keeps s
      (execWitnessTransmit busy s)) ∧ (∀ eui fctr micOk, Keeps s (execJoinreq eui fctr micOk s)) ∧ (∀ a, Keeps s (execSupervisionTimeout a
      s)) ∧ (∀ con, Keeps s (execChallengeTimeout con s)) ∧ (∀ con, Keeps s (execAuthLockExpire con s)) ∧ (∀ t b, Keeps s (execBookClose t
      b s)) ∧ (∀ t, Keeps s (execGrainRequestNumber t s)) ∧ (∀ t, Keeps s (execGrainDurable t s)) ∧ (∀ t session, Keeps s
      (execReplyRelease t session s)) ∧ (∀ set reason seg, Keeps s (execImportVerify set reason seg s)) ∧ (∀ bad, Keeps s
      (execFlashOperationComplete bad s)) ∧ Keeps s (execReplayGrain s) ∧ (∀ l tag, Keeps s (execShowWitness l tag s)) ∧ (∀ l import_,
      Keeps s (execShowReplay l import_ s)) := by
  simp only [execRowHoldTimeout, execFcdelayTimeout, execSapwoodFree, execRelocation, execCommandReplyRelease, execWitnessTransmit,
    execJoinreq, execSupervisionTimeout, execChallengeTimeout, execAuthLockExpire, execBookClose, execGrainRequestNumber,
    execGrainDurable, execReplyRelease, execImportVerify, execFlashOperationComplete, execReplayGrain, execShowWitness, execShowReplay]
  and_intros <;> intros <;> (repeat' split) <;> simp

@[simp] theorem operand_insns_keep (s : State) :
    (∀ c g, Keeps s (execLix c g s)) ∧ (∀ c g, Keeps s (execRetag c g s)) ∧ (∀ c g, Keeps s (execTypep c g s)) ∧ (∀ c f, Keeps s (execCons
      c f s)) ∧ (∀ c f, Keeps s (execLen c f s)) ∧ (∀ c f, Keeps s (execIdhash c f s)) ∧ (∀ c f, Keeps s (execVref c f s)) ∧ (∀ c f, Keeps
      s (execVset c f s)) ∧ (∀ c f, Keeps s (execSref c f s)) ∧ (∀ c f, Keeps s (execSset c f s)) ∧ (∀ c f, Keeps s (execMakev c f s)) ∧
      (∀ c f, Keeps s (execMaker c f s)) ∧ (∀ c f, Keeps s (execMakes c f s)) := by
  unfold execLix execRetag execTypep execCons execLen execIdhash execVref execVset execSref execSset execMakev execMaker
    execMakes
  and_intros <;> intros <;> refine keeps_runInsn fun _ => ?_
  all_goals repeat' (first
    | with_reducible refine bodyKeeps_chk ?_ | with_reducible refine bodyKeeps_consume ?_ | with_reducible refine bodyKeeps_fin ?_ fun _ _ => ?_
    | with_reducible refine bodyKeeps_effCop fun _ => ?_ | with_reducible refine bodyKeeps_jumpReg fun _ => ?_ | (simp; done) | split)

@[simp] theorem memory_insns_keep (s : State) :
    (∀ c g, Keeps s (execAddp c g s)) ∧ (∀ c g, Keeps s (execLdb c g s)) ∧ (∀ c g, Keeps s (execStb c g s)) ∧ (∀ c f, Keeps s (execJr c f
      s)) ∧ (∀ c f, Keeps s (execCallr c f s)) ∧ (∀ c f, Keeps s (execRet c f s)) ∧ (∀ c f, Keeps s (execTlbw c f s)) ∧ (∀ c f, Keeps s
      (execTlbiVa c f s)) ∧ (∀ c f, Keeps s (execTlbiAsid c f s)) ∧ (∀ c g, Keeps s (execMtcr c g s)) ∧ (∀ c rd, Keeps s (execIpisend c rd
      s)) := by
  unfold execAddp execLdb execStb execJr execCallr execRet execTlbw execTlbiVa execTlbiAsid execMtcr execIpisend
  and_intros <;> intros <;> refine keeps_runInsn fun _ => ?_
  all_goals repeat' (first
    | with_reducible refine bodyKeeps_chk ?_ | with_reducible refine bodyKeeps_consume ?_ | with_reducible refine bodyKeeps_fin ?_ fun _ _ => ?_
    | with_reducible refine bodyKeeps_effCop fun _ => ?_ | with_reducible refine bodyKeeps_jumpReg fun _ => ?_ | (simp; done) | split)

@[simp] theorem coprocessor_insns_keep (s : State) :
    (∀ c h e, Keeps s (execDraw c h e s)) ∧ (∀ c h e, Keeps s (execDrawn c h e s)) ∧ (∀ c h e, Keeps s (execReseed c h e s)) ∧ (∀ c h e,
      Keeps s (execTread c h e s)) ∧ (∀ c h e, Keeps s (execAppend c h e s)) := by
  unfold execDraw execDrawn execReseed execTread execAppend
  and_intros <;> intros <;> refine keeps_runInsn fun _ => ?_
  all_goals repeat' (first
    | with_reducible refine bodyKeeps_chk ?_ | with_reducible refine bodyKeeps_consume ?_ | with_reducible refine bodyKeeps_fin ?_ fun _ _ => ?_
    | with_reducible refine bodyKeeps_effCop fun _ => ?_ | with_reducible refine bodyKeeps_jumpReg fun _ => ?_ | (simp; done) | split)

@[simp] theorem cipher_insns_keep (s : State) :
    (∀ c h e, Keeps s (execHmac c h e s)) ∧ (∀ c h e, Keeps s (execGcmseal c h e s)) ∧ (∀ c h e, Keeps s (execGcmopen c h e s)) := by
  unfold execHmac execGcmseal execGcmopen
  and_intros <;> intros <;> refine keeps_pureCop fun _ => ?_
  all_goals repeat' (first | with_reducible refine acsKeeps_bind ?_ fun _ _ => ?_ | (simp; done) | split | dsimp only)

@[simp] theorem mode_lines_keep (s : State) :
    (∀ l, Keeps s (execSetModeLive l s)) ∧ (∀ l, Keeps s (execSetModeQuiet l s)) ∧ (∀ l, Keeps s (execSetModeAudit l s)) ∧ (∀ l, Keeps s
      (execSetModeReplay l s)) ∧ (∀ l block off val key, Keeps s (execSetReg l block off val key s)) ∧ (∀ l block off, Keeps s
      (execShowReg l block off s)) ∧ (∀ l off g, Keeps s (execStageData l off g s)) ∧ (∀ l d, Keeps s (execStageEnd l d s)) := by
  unfold execSetModeLive execSetModeQuiet execSetModeAudit execSetModeReplay execSetReg execShowReg execStageData execStageEnd
  and_intros <;> intros <;> refine keeps_runCmd fun _ _ => ?_
  all_goals repeat' (first | with_reducible refine actKeeps_consume1 fun _ => ?_ | (simp; done) | split | dsimp only)

@[simp] theorem staged_lines_keep (s : State) :
    (∀ l, Keeps s (execSetEclass l s)) ∧ (∀ l t key, Keeps s (execImportKey l t key s)) ∧ (∀ l key, Keeps s (execOpenMgmt l key s)) ∧ (∀ l
      slot im, Keeps s (execLoadImage l slot im s)) ∧ (∀ l t, Keeps s (execLoadRules l t s)) ∧ (∀ l t, Keeps s (execLoadDict l t s)) ∧ (∀
      l, Keeps s (execLoadLeaps l s)) ∧ (∀ l at_ u, Keeps s (execSetTime l at_ u s)) ∧ (∀ l ref off, Keeps s (execStepTime l ref off s)) ∧
      (∀ l t b at_ margin, Keeps s (execSetBook l t b at_ margin s)) ∧ (∀ l t b, Keeps s (execOpenBook l t b s)) ∧ (∀ l t b, Keeps s
      (execSuspendBook l t b s)) ∧ (∀ l t, Keeps s (execSuspendTenant l t s)) ∧ (∀ l t b, Keeps s (execSettleBook l t b s)) ∧ (∀ l t b,
      Keeps s (execReleaseBook l t b s)) := by
  unfold execSetEclass execImportKey execOpenMgmt execLoadImage execLoadRules execLoadDict execLoadLeaps execSetTime
    execStepTime execSetBook execOpenBook execSuspendBook execSuspendTenant execSettleBook execReleaseBook
  and_intros <;> intros <;> refine keeps_runCmd fun _ _ => ?_
  all_goals repeat' (first | with_reducible refine actKeeps_consume1 fun _ => ?_ | (simp; done) | split | dsimp only)

@[simp] theorem journal_lines_keep (s : State) :
    (∀ l t seq, Keeps s (execRetire l t seq s)) ∧ (∀ l t, Keeps s (execMirrorReattach l t s)) ∧ (∀ l t fr th cross, Keeps s
      (execReplayStart l t fr th cross s)) ∧ (∀ l t set journal, Keeps s (execReplayClear l t set journal s)) ∧ (∀ l kind key, Keeps s
      (execWitnessPair l kind key s)) ∧ (∀ l a, Keeps s (execWitnessUnpair l a s)) ∧ (∀ l t seq body, Keeps s (execShowGrain l t seq body
      s)) ∧ (∀ l t session, Keeps s (execShowSession l t session s)) ∧ (∀ l t ctx regs, Keeps s (execShowCtx l t ctx regs s)) := by
  unfold execRetire execMirrorReattach execReplayStart execReplayClear execWitnessPair execWitnessUnpair execShowGrain
    execShowSession execShowCtx
  and_intros <;> intros <;> refine keeps_runCmd fun _ _ => ?_
  all_goals repeat' (first | with_reducible refine actKeeps_consume1 fun _ => ?_ | (simp; done) | split | dsimp only)

/-! ### Rows with a step of their own -/

section
variable (s : State)

@[simp] theorem execAuthResponse_keeps (l : ConLine) (sig : List Byte) : Keeps s (execAuthResponse l sig s) :=
  keeps_authLine fun _ _ => by split <;> simp

@[simp] theorem execDelayResp_keeps (m : PtpMsg) (sent : Int) (var : Nat) : Keeps s (execDelayResp m sent var s) :=
  keeps_ptpMsg fun _ => by dsimp only; split <;> simp

@[simp] theorem execPdelayResp_keeps (m : PtpMsg) (sent : Int) (var : Nat) : Keeps s (execPdelayResp m sent var s) :=
  keeps_ptpMsg fun _ => by
    split
    · dsimp only; split <;> simp
    · simp

@[simp] theorem execKeyimp_keeps (f : Frame) (e : Envelope) : Keeps s (execKeyimp f e s) :=
  keeps_mgmtFrame fun _ => by
    split
    · simp
    · split <;> simp

@[simp] theorem execIndirectDataRead_keeps (req block off : Nat) : Keeps s (execIndirectDataRead req block off s) := by
  unfold execIndirectDataRead sawRead
  split <;> simp

/-- A counter at its end issues nothing. -/
@[simp] theorem execCtrinc_keeps (c : Nat) (f : CF) (e : CopEnd) : Keeps s (execCtrinc c f e s) := by
  refine keeps_runInsn fun a => bodyKeeps_chk (bodyKeeps_consume (bodyKeeps_chk (bodyKeeps_effCop fun b => ?_)))
  dsimp only
  split
  · simp
  · exact same_unitIssue fun _ => by simp

@[simp] theorem execRowProgramComplete_keeps (t : Nat) (fails again : List Nat) : Keeps s (execRowProgramComplete t fails again s) := by
  unfold execRowProgramComplete
  split
  · simp
  · split
    · simp
    · split
      · simp
      · rename_i s1 h
        have hkeep := programRow_keep s t false _ fails again s1 h
        simp [hkeep]

@[simp] theorem execHeartwoodSeal_keeps (t : Nat) (fails again : List Nat) : Keeps s (execHeartwoodSeal t fails again s) := by
  unfold execHeartwoodSeal
  split
  · simp
  · split
    · simp
    · split
      · simp
      · rename_i s1 h
        have hkeep := copyRows_keep 4 s t _ fails again s1 h
        simp [hkeep]

@[simp] theorem execRebuildComplete_keeps (d : Nat) : Keeps s (execRebuildComplete d s) := by
  unfold execRebuildComplete
  split
  · simp
  · dsimp only
    split
    · simp
    · rename_i s1 h
      have hkeep := rebuildBlks_keep _ s s1 h
      simp [hkeep]

theorem bodyKeeps_comparator {c pos : Nat} {o : EffOp} {go : State → IRes} (h : ∀ a, BodyKeeps a (go a)) :
    BodyKeeps s (comparator s c pos o go) :=
  ⟨comparator_keep_pending s c pos o go fun a => (h a).1, comparator_keep_sec_otp s c pos o go fun a => (h a).2⟩

theorem bodyKeeps_of_same {a b : State} {r : IRes} (h : Same a b) (hr : BodyKeeps b r) : BodyKeeps a r :=
  ⟨hr.1.trans h.1, hr.2.trans h.2⟩

@[simp] theorem execTake_keeps (c : Nat) (f : CF) (e : CopEnd) (bad : List Nat) : Keeps s (execTake c f e bad s) := by
  refine keeps_runInsn fun a => bodyKeeps_chk (bodyKeeps_fin (by simp) fun b o => ?_)
  cases (getCore a c).granted with
  | some g =>
    simp only [Option.isNone, Bool.false_eq_true, if_false]
    split
    · simp
    · split <;> simp
  | none =>
    refine bodyKeeps_of_same (b := voidBad b bad (takeList b c (coreTenant (getCore a c)))) (by simp) ?_
    generalize voidBad b bad (takeList b c (coreTenant (getCore a c))) = v
    dsimp only [Option.isNone]
    simp only [if_true]
    generalize (if takeOpen _ _ _ _ = true then _ else _ : Option Input) = i
    split
    · simp
    · refine bodyKeeps_fin (by cases i <;> simp) fun w _ => ?_
      split
      · refine bodyKeeps_comparator _ fun d => ?_
        split
        · simp
        · cases i <;> simp
      · split
        · simp
        · cases i <;> simp
end

/-! ### Rows that program one-time storage -/

/-- The queue of t is that of s, and one-time storage has only taken what was not programmed. -/
def Grows (s t : State) : Prop := t.pending = s.pending ∧ OtpLe s.sec.otp t.sec.otp

/-- A row answers a state that keeps the queue and whose one-time storage has only grown. -/
def Runs (s : State) (o : Host.Outcome State Fault Refusal) : Prop := ∃ t, o = .next t ∧ Grows s t

section
variable {s t : State}

theorem grows_of_same (h : Same s t) : Grows s t := ⟨h.1, otple_of_eq h.2⟩

theorem runs_of_keeps {o : Host.Outcome State Fault Refusal} (h : Keeps s o) : Runs s o := by
  cases o with
  | next t => exact ⟨t, rfl, grows_of_same h⟩
  | fault x => exact h.elim
  | refused x => exact h.elim

theorem grows_err (code : Nat) (vals : List Int) : Grows s (err s code vals).st := grows_of_same (by simp)

/-- A fuse that never reads back programs nothing. -/
theorem grows_fuse {good : Bool} {r : ActRes} (h : Grows s r.st) : Grows s (fuse good s r).st := by
  cases good with
  | true => exact h
  | false => exact grows_of_same (by simp [fuse])

theorem grows_consume1 {l : ConLine} {f : List Byte → ActRes} (h : ∀ b, Grows s (f b).st) : Grows s (consume1 l f s).st := by
  refine ⟨consume1_keep_pending l f s fun b => (h b).1, ?_⟩
  unfold consume1
  dsimp only
  split
  · exact (grows_err ..).2
  · split
    · simpa using (h _).2
    · exact (h _).2

theorem runs_runCmd {l : ConLine} {sp : CmdSpec} {act : Nat → State → ActRes} (h : ∀ n a, Grows a (act n a).st) :
    Runs s (.next (runCmd l sp act s)) := by
  refine ⟨_, rfl, runCmd_keep_pending l sp act s fun n a => (h n a).1, ?_⟩
  rcases runCmd_otp l sp act s with hsame | ⟨n, a, ha, hact⟩
  · exact otple_of_eq hsame
  · rw [hact, ← ha]
    exact (h n a).2

end

theorem upd_some_of_none {α : Type} {l : List (Option α)} {i j : Nat} {x y : α} (hfree : (l[j]?).join = none) (h : l[i]? = some (some x)) :
    (upd l j (fun _ => some y))[i]? = some (some x) := by
  rw [upd_get]
  split
  · simp_all
  · exact h

theorem freeSlot_none {s : State} {i : Nat} (h : freeSlot s = some i) : (s.sec.otp.ops[i]?).join = none := by
  simpa using List.find?_some h

section
variable (s : State) (l : ConLine)

/-- The hash is programmed where none is (R109). -/
theorem execCommissionJkeyHash_runs (hash : Digest) (progEn fuseOk : Bool) : Runs s (execCommissionJkeyHash l hash progEn fuseOk s) := by
  refine runs_runCmd fun n a => ?_
  split
  · exact grows_err ..
  · split
    · exact grows_err ..
    · rename_i hnone
      split
      · exact grows_err ..
      · refine grows_fuse ⟨rfl, ?_⟩
        simp_all [OtpLe, okB]

/-- A public key is programmed in a slot that holds none (R110). -/
theorem execCommissionOpkey_runs (fuseOk : Bool) : Runs s (execCommissionOpkey l fuseOk s) := by
  refine runs_runCmd fun n a => grows_consume1 fun b => ?_
  split
  · exact grows_err ..
  · split
    · exact grows_err ..
    · split
      · exact grows_err ..
      · rename_i i hfree
        refine grows_fuse ⟨rfl, fun _ h => h, fun j h hj => ?_, fun _ h => h, fun _ => rfl, Nat.le_refl _⟩
        exact upd_some_of_none (freeSlot_none hfree) hj

theorem genesisChains_otp (l : List Nat) (n : Nat) : (l.foldl (fun a t =>
    setStrm a t { strm a t with genesis := genesisDigest t n, lastDig := genesisDigest t n }) s).sec.otp = s.sec.otp :=
  foldl_otp _ _ _ fun _ _ => rfl

/-- The genesis records change no one-time value but the genesis time. -/
theorem writeGenesis_otp : OtpLe s.sec.otp (writeGenesis s).sec.otp := by
  have hchains := genesisChains_otp s (List.range 64 ++ [sD]) s.now
  unfold writeGenesis
  dsimp only
  generalize (List.range 64 ++ [sD]).foldl _ s = chained at hchains ⊢
  simp [OtpLe, hchains]

theorem grows_writeGenesis {a b : State} (hqueue : b.pending = a.pending) (hotp : OtpLe a.sec.otp b.sec.otp) : Grows a (writeGenesis b) :=
  ⟨by simp [hqueue], otple_trans hotp (writeGenesis_otp b)⟩

theorem grows_ok {a b : State} {vals : List Int} (h : Grows a b) : Grows a (ok b vals).st := h

/-- The role is programmed where it is NONE (R111). -/
theorem execCommissionRole_runs (role : Nat) (fuseOk : Bool) : Runs s (execCommissionRole l role fuseOk s) := by
  refine runs_runCmd fun n a => ?_
  split
  · exact grows_err ..
  · split
    · exact grows_err ..
    · rename_i hrole
      refine grows_fuse (grows_ok (grows_writeGenesis rfl ?_))
      have hnone : a.sec.otp.role = .none := by simpa [State.role] using hrole
      exact ⟨fun _ h => h, fun _ _ h => h, fun _ h => h, fun h => absurd hnone h, Nat.le_refl _⟩

/-- A slot that is revoked stays so (R112). -/
theorem execRevokeOpkey_runs (slot : Nat) (fuseOk : Bool) : Runs s (execRevokeOpkey l slot fuseOk s) := by
  refine runs_runCmd fun n a => ?_
  split
  · exact grows_err ..
  · refine grows_fuse ⟨rfl, fun _ h => h, fun _ _ h => h, fun j hj => ?_, fun _ => rfl, Nat.le_refl _⟩
    show (upd _ _ _)[j]? = some true
    rw [upd_get, hj]
    split <;> rfl

/-- The rollback counter takes the larger of itself and the image's. -/
theorem execCommitImage_runs (fuseOk : Bool) : Runs s (execCommitImage l fuseOk s) :=
  runs_runCmd fun _ _ => grows_fuse ⟨rfl, fun _ h => h, fun _ _ h => h, fun _ h => h, fun _ => rfl, Nat.le_max_left ..⟩

theorem stepS9_grows : Grows s (stepS9 s) := by
  refine ⟨by simp, ?_⟩
  unfold stepS9
  dsimp only
  split <;> simp [OtpLe]

theorem execSealedStepComplete_runs (f : BootFacts) : Runs s (execSealedStepComplete f s) := by
  unfold execSealedStepComplete
  split
  · exact runs_of_keeps (by simp)
  · refine ⟨_, rfl, ?_⟩
    split
    case h_10 => exact stepS9_grows s
    case h_8 => split <;> exact grows_of_same (by simp)
    all_goals exact grows_of_same (by simp)

end

/-! ### Every command -/

theorem exec_runs (i : Instr) (s : State) : Runs s (exec i s) := by
  unfold exec
  cases i with
  | commissionJkeyHash l hash progEn fuseOk => exact execCommissionJkeyHash_runs s l hash progEn fuseOk
  | commissionOpkey l fuseOk => exact execCommissionOpkey_runs s l fuseOk
  | commissionRole l role fuseOk => exact execCommissionRole_runs s l role fuseOk
  | revokeOpkey l slot fuseOk => exact execRevokeOpkey_runs s l slot fuseOk
  | commitImage l fuseOk => exact execCommitImage_runs s l fuseOk
  | sealedStepComplete f => exact execSealedStepComplete_runs s f
  | _ => exact runs_of_keeps (by simp)

theorem idle_grows (s : State) : Grows s (idle s) := grows_of_same (by unfold idle advance; split <;> simp)

theorem step_next (s : State) : ∃ t, step s = .next t ∧ t.pending = s.pending.drop 1 ∧ OtpLe s.sec.otp t.sec.otp := by
  unfold step
  cases hq : s.pending with
  | nil => exact ⟨idle s, rfl, (idle_grows s).1.trans hq, (idle_grows s).2⟩
  | cons i rest => exact exec_runs i { s with pending := rest }

/-- Settles O58: each row answers a next state that keeps the queue (`exec_runs`), and a step drops the command it ran. -/
theorem everyCommandAnswers : Obligations.EveryCommandAnswers := by
  unfold Obligations.EveryCommandAnswers
  refine ⟨fun i s => ?_, fun s => ?_⟩
  · obtain ⟨t, ht, hgrows⟩ := exec_runs i s
    exact ⟨t, ht, hgrows.1⟩
  · obtain ⟨t, ht, hqueue, -⟩ := step_next s
    exact ⟨⟨t, ht⟩, t, ht, hqueue⟩

theorem step_otp {s t : State} (h : step s = .next t) : OtpLe s.sec.otp t.sec.otp := by
  obtain ⟨u, hu, -, hotp⟩ := step_next s
  cases h.symm.trans hu
  exact hotp

/-- Settles O59: every row only adds to one-time storage, and a run is an induction over its steps. -/
theorem oneTimeStorage : Obligations.OneTimeStorage := by
  unfold Obligations.OneTimeStorage
  refine ⟨fun _ _ => step_otp, fun n run hrun i j hij => ?_⟩
  induction j, hij using Nat.le_induction with
  | base => exact fun _ => otple_of_eq rfl
  | succ j _ ih => exact fun hj => otple_trans (ih (by omega)) (step_otp (hrun j (by omega)))

end Sys2Proof.Machine
end

section
/-! PROOFS. The frames of a register write, a retirement and a memory write (R203, R204, R210, R255, R300), a step at the queue's front,
and the state at reset (O55, O57, O60). -/
namespace Sys2Proof.Machine

open Sys2Proof

-- Each proof is checked before the next begins, so that no more than one is held in memory.
set_option Elab.async false

/-! ### Frames of a register write, a retirement and a memory write -/

theorem getCore_putReg (s : State) (c w : Nat) (v : TWord) :
    getCore (putReg s c w v) c =
      { getCore s c with regs := upd (getCore s c).regs w (fun _ => v), status := setBits (getCore s c).status (8 + w / 8) 1 1 } :=
  getCore_updCore_self ..

/-- DIRTY of a register's group is bit 8 + w / 8 of STATUS (R204). -/
theorem testBit_status_putReg (s : State) (c w i : Nat) (v : TWord) :
    (getCore (putReg s c w v) c).status.testBit i = (i == 8 + w / 8 || (getCore s c).status.testBit i) := by
  rw [getCore_putReg, testBit_setBits]
  by_cases h : i = 8 + w / 8
  · subst h
    simp
  · rw [if_neg (by omega)]
    simp [h]

/-- The core after a retirement, by what EG and its count are. -/
theorem getCore_retire (s : State) (c lvl pc : Nat) :
    getCore (retire s c lvl pc) c =
      let k := getCore s c
      { k with
        pc := pc % 2 ^ 48
        lastRet := s.tim.ticks
        uicnt := if lvl = 0 then ⟨k.uicnt.tag, k.uicnt.val + 1⟩ else k.uicnt
        egCount := if k.eg = true ∧ k.egCount < 15 then k.egCount + 1 else 0
        status := if k.eg = true ∧ 15 ≤ k.egCount then setBits k.status 7 1 0 else k.status } := by
  rw [retire, getCore_updCore_self]
  generalize getCore s c = k
  have hcount : (if lvl = 0 then countU k else k) = { k with uicnt := if lvl = 0 then ⟨k.uicnt.tag, k.uicnt.val + 1⟩ else k.uicnt } := by
    split <;> rfl
  have heg (u : TWord) : ({ k with uicnt := u } : Core).eg = k.eg := rfl
  rw [hcount]
  dsimp only
  rw [heg]
  by_cases hg : k.eg = true
  · by_cases hn : 15 ≤ k.egCount
    · simp [hg, hn, Nat.not_lt.mpr hn]
    · simp [hg, hn, Nat.not_le.mp hn]
  · simp [hg]

theorem mem_putMem_of_eq (s : State) {a b : Nat} (w : TWord) (h : b / 8 = a / 8) : mem (putMem s a w) b = w := by
  have hb : mem (putMem s a w) b = mem (putMem s a w) a := by simp only [mem, memGet, h]
  rw [hb, mem_putMem_self]

/-- Settles O55: each clause is the frame of one state operation. -/
theorem registersAndRetirement : Obligations.RegistersAndRetirement := by
  unfold Obligations.RegistersAndRetirement
  rintro s t c d w r lvl pc a b i v k k' rfl
  refine ⟨?regWrite, ?retirement, ?memWrite⟩
  case regWrite =>
    rintro rfl rfl
    refine ⟨reg_putReg_self s c w v, reg_putReg_of_ne s c v, getCore_updCore_of_ne s _, ?_, testBit_status_putReg s c w i v, ?_, rfl⟩
    · rw [getCore_putReg]
      exact upd_length ..
    · rw [getCore_putReg]
  case retirement =>
    rintro rfl rfl
    rw [getCore_retire]
    generalize getCore s c = k
    refine ⟨rfl, rfl, fun h => if_pos h, fun h => if_neg h, fun heg => ?noGuard, fun heg hn => ?guarded, fun heg hn => ?last, rfl,
      getCore_updCore_of_ne s _, rfl⟩
    case noGuard => simp [heg]
    case guarded => simp [heg, hn, Nat.not_le.mpr hn]
    case last =>
      refine ⟨by simp [Nat.not_lt.mpr hn], ?_, fun hi => ?_⟩
      · simp only [heg, hn, and_self, if_true]
        simp [Core.eg, bit_eq_testBit, testBit_setBits]
      · simp only [heg, hn, and_self, if_true]
        rw [testBit_setBits, if_neg (by omega)]
  case memWrite =>
    rintro rfl
    exact ⟨mem_putMem_of_eq s v, mem_putMem_of_ne s v, putMem_inv, rfl⟩

/-- Settles O57. -/
theorem stepRunsFront : Obligations.StepRunsFront := by
  unfold Obligations.StepRunsFront
  intro s
  refine ⟨fun c rest h => ?_, fun h => ⟨idle s, ?_, rfl, ?_, ?_⟩⟩
  · simp [step, h]
  · simp [step, h]
  · unfold idle advance
    split <;> rfl
  · unfold idle advance
    split <;> exact h

/-- Settles O60. -/
theorem resetState : Obligations.ResetState := by
  unfold Obligations.ResetState
  refine ⟨rfl, rfl, rfl, rfl, rfl, rfl, rfl, by decide, fun t b => ?books, fun _ => ⟨rfl, rfl, rfl, rfl, rfl⟩, by decide, by decide, by decide,
    by decide, rfl, rfl, rfl, rfl, rfl, rfl⟩
  case books =>
    have hbook : getBook State.reset t b = emptyBook := rfl
    rw [hbook]
    decide

end Sys2Proof.Machine
end

section
/-! PROOFS. Translation (R248, R266 to R276; O53): the reason that a page gives for each kind of access, the accessed and dirty update,
the lookup, and from these how an access is translated. -/
namespace Sys2Proof.Machine

open Sys2Proof

-- Each proof is checked before the next begins, so that no more than one is held in memory.
set_option Elab.async false

/-! ### What a page permits (R270, Table 10.4) -/

theorem pteTyp_lt (e : TlbEnt) : pteTyp e < 4 := Nat.mod_lt _ (by decide)

section
variable (e : TlbEnt) (lvl : Nat)

/-- U of the entry agrees with the level. -/
def userOk : Bool := pteBit e 4 == (lvl == 0)

/-- Page types that a load may read at a level. -/
abbrev loadType : Prop := pteTyp e = 0 ∨ (lvl ≠ 0 ∧ (pteTyp e = 1 ∨ pteTyp e = 2)) ∨ (lvl = 2 ∧ pteTyp e = 3)

/-- Page types that a store may write at a level. -/
abbrev storeType : Prop := pteTyp e = 0 ∨ (lvl ≠ 0 ∧ pteTyp e = 1) ∨ (lvl = 2 ∧ pteTyp e = 3)

theorem permReason_fetch : permReason e lvl kFETCH =
    if pteBit e 3 = false then aNOEXEC else if pteTyp e ≠ 0 then aPAGETYPE else if userOk e lvl = false then aUSER else 0 := by
  have ht := pteTyp_lt e
  unfold permReason userOk
  generalize pteTyp e = ty at ht
  cases pteBit e 3 with
  | false => rfl
  | true => interval_cases ty <;> simp [kFETCH, kPUSH, kPOP, kLOAD, kSTORE, kCARD, bne]

theorem permReason_load : permReason e lvl kLOAD =
    if pteBit e 1 = false then aREAD else if ¬ loadType e lvl then aPAGETYPE else if userOk e lvl = false then aUSER else 0 := by
  have ht := pteTyp_lt e
  unfold permReason userOk loadType
  generalize pteTyp e = ty at ht
  cases pteBit e 1 with
  | false => rfl
  | true => interval_cases ty <;> simp [kFETCH, kPUSH, kPOP, kLOAD, kSTORE, kCARD, bne]

theorem permReason_store {i : Nat} (hi : i = kSTORE ∨ i = kCARD) : permReason e lvl i =
    if pteBit e 2 = false then aWRITE else if ¬ storeType e lvl then aPAGETYPE else if userOk e lvl = false then aUSER else 0 := by
  have ht := pteTyp_lt e
  unfold permReason userOk storeType
  generalize pteTyp e = ty at ht
  cases pteBit e 2 with
  | false => rcases hi with rfl | rfl <;> rfl
  | true => rcases hi with rfl | rfl <;> interval_cases ty <;> simp [kFETCH, kPUSH, kPOP, kLOAD, kSTORE, kCARD, bne]

theorem permReason_push : permReason e lvl kPUSH = if pteTyp e ≠ 2 then aPAGETYPE else 0 := by
  simp [permReason, kFETCH, kPUSH, kPOP, kLOAD, kSTORE, kCARD]

theorem permReason_pop : permReason e lvl kPOP = if pteBit e 1 = false then aREAD else if pteTyp e ≠ 2 then aPAGETYPE else 0 := by
  simp [permReason, kFETCH, kPUSH, kPOP, kLOAD, kSTORE, kCARD]

end

/-! ### Accessed and dirty (R276) -/

section
variable {s : State} {c n : Nat} {e : TlbEnt} {write : Bool} {miss : Trap}

theorem setAD_set (h5 : pteBit e 5 = true) (h6 : write = true → pteBit e 6 = true) : setAD s c n e write miss = .ok s e := by
  unfold setAD
  cases write with
  | false => simp [h5]
  | true => simp [h5, h6]

theorem adDue_iff : (pteBit e 5 && (!write || pteBit e 6)) = false ↔ ¬ (pteBit e 5 = true ∧ (write = true → pteBit e 6 = true)) := by
  cases write <;> simp

/-- The image with A, and for a write D, set. -/
theorem adImage_eq {img : BitVec 64} (himg : ∀ j, img.toNat.testBit j = (j == 5 || (write && j == 6) || e.img.toNat.testBit j)) :
    BitVec.ofNat 64 (setBits (if write then setBits e.img.toNat 6 1 1 else e.img.toNat) 5 1 1) = img := by
  apply BitVec.eq_of_getLsbD_eq
  intro j hj
  rw [BitVec.getLsbD_ofNat, BitVec.getLsbD, himg]
  by_cases h5 : j = 5
  · subst h5
    simp [testBit_setBits]
  · cases write with
    | false =>
      rw [testBit_setBits, if_neg (by omega)]
      simp [hj, h5]
    | true =>
      by_cases h6 : j = 6
      · subst h6
        simp [testBit_setBits]
      · rw [testBit_setBits, if_neg (by omega)]
        rw [if_pos rfl, testBit_setBits, if_neg (by omega)]
        simp [hj, h5, h6]

theorem bits_adImage {img : BitVec 64} {lo w : Nat} (himg : ∀ j, img.toNat.testBit j = (j == 5 || (write && j == 6) || e.img.toNat.testBit j))
    (h : lo + w ≤ 5 ∨ 7 ≤ lo) : bits img.toNat lo w = bits e.img.toNat lo w := by
  apply Nat.eq_of_testBit_eq
  intro j
  rw [testBit_bits, testBit_bits, himg]
  by_cases hj : j < w
  · have h5 : lo + j ≠ 5 := by omega
    have h6 : lo + j ≠ 6 := by omega
    rw [beq_false_of_ne h5, beq_false_of_ne h6, Bool.and_false, Bool.false_or, Bool.false_or]
  · simp [hj]

theorem setAD_due {img : BitVec 64} (hdue : ¬ (pteBit e 5 = true ∧ (write = true → pteBit e 6 = true))) (hmem : mem s e.pte = ⟨tRAW, e.img⟩)
    (himg : ∀ j, img.toNat.testBit j = (j == 5 || (write && j == 6) || e.img.toNat.testBit j)) :
    setAD s c n e write miss =
      .ok (putMem (updCore s c (fun k => { k with tlb := ins k.tlb n { e with img := img } })) e.pte ⟨tRAW, img⟩) { e with img := img } := by
  unfold setAD
  rw [adDue_iff.mpr hdue]
  dsimp only
  rw [adImage_eq himg, if_pos hmem]
  rfl

theorem setAD_stale (hdue : ¬ (pteBit e 5 = true ∧ (write = true → pteBit e 6 = true))) (hmem : mem s e.pte ≠ ⟨tRAW, e.img⟩) :
    setAD s c n e write miss = .trap (updCore s c (fun k => { k with tlb := del k.tlb n })) miss := by
  unfold setAD
  rw [adDue_iff.mpr hdue]
  dsimp only
  rw [if_neg hmem]
  rfl

end

/-! ### Translation (R266 to R269) -/

/-- An entry translates an address of an ASID. -/
def Maps (asid va : Nat) (e : TlbEnt) : Prop := e.asid = asid ∧ e.va ≤ va ∧ va < e.va + pageBytes e.size

theorem lookup_none {l : Map TlbEnt} {asid va : Nat} (h : ∀ p ∈ l, ¬ Maps asid va p.2) : lookup l asid va = none := by
  rw [lookup, List.find?_eq_none]
  intro p hp
  simpa [Maps] using h p hp

theorem lookup_some {l : Map TlbEnt} {asid va n : Nat} {e : TlbEnt} (h : lookup l asid va = some (n, e)) : (n, e) ∈ l ∧ Maps asid va e := by
  refine ⟨List.mem_of_find?_eq_some h, ?_⟩
  simpa [Maps] using List.find?_some h

section
variable {s : State} {c va kind : Nat}

/-- The translation that an entry gives once A and D stand. -/
def entXl (e : TlbEnt) (va : Nat) : Xl :=
  ⟨va, bits e.img.toNat 13 33 * 0x2000 + (va - e.va), if pteTyp e = 3 then .device else .dram, pteTyp e, pteGen e, pteBit e 2⟩

theorem entXl_img {e : TlbEnt} {img : BitVec 64} {write : Bool}
    (himg : ∀ j, img.toNat.testBit j = (j == 5 || (write && j == 6) || e.img.toNat.testBit j)) : entXl { e with img := img } va = entXl e va := by
  have hbits {lo w : Nat} (h : lo + w ≤ 5 ∨ 7 ≤ lo) : bits img.toNat lo w = bits e.img.toNat lo w := bits_adImage himg h
  have hpa : bits img.toNat 13 33 = bits e.img.toNat 13 33 := hbits (by decide)
  have htyp : pteTyp { e with img := img } = pteTyp e := hbits (by decide)
  have hgen : pteGen { e with img := img } = pteGen e := hbits (by decide)
  have hw : pteBit { e with img := img } 2 = pteBit e 2 := by simp [pteBit, bit_eq_testBit, himg]
  simp only [entXl, hpa, htyp, hgen, hw]

theorem xlate_window (h : (getCore s c).level = 2) (hw : inWindow va = true) : xlate s c va kind =
    if kind = kPUSH ∨ kind = kPOP then .trap s ⟨cACCESS, aPAGETYPE, va, kind, false⟩
    else if windowTgt va = .aperture ∧ isWrite kind = true then .trap s ⟨cACCESS, aCTXWIN, va, kind, false⟩
    else .ok s ⟨va, va, windowTgt va, 4, 3, true⟩ := if_pos ⟨h, hw⟩

variable (hout : ¬ ((getCore s c).level = 2 ∧ inWindow va = true))
include hout

theorem xlate_miss (h : lookup (getCore s c).tlb (asidOf (getCore s c)) va = none) : xlate s c va kind = .trap s ⟨cTLBMISS, 0, va, kind, false⟩ := by
  unfold xlate
  dsimp only
  rw [if_neg hout, h]

variable {n : Nat} {e : TlbEnt} (h : lookup (getCore s c).tlb (asidOf (getCore s c)) va = some (n, e))
include h

theorem xlate_denied (hr : permReason e (getCore s c).level kind ≠ 0) :
    xlate s c va kind = .trap s ⟨cACCESS, permReason e (getCore s c).level kind, va, kind, false⟩ := by
  unfold xlate
  dsimp only
  rw [if_neg hout, h]
  exact if_pos hr

theorem xlate_permitted (hr : permReason e (getCore s c).level kind = 0) :
    xlate s c va kind = (setAD s c n e (isWrite kind) ⟨cTLBMISS, 0, va, kind, false⟩).bind fun s1 e1 => .ok s1 (entXl e1 va) := by
  unfold xlate
  dsimp only
  rw [if_neg hout, h]
  exact if_neg (not_not_intro hr)

end

theorem refused_eq_zero {p : Prop} [Decidable p] {r x : Nat} (hr : r ≠ 0) : (if p then r else x) = 0 ↔ ¬ p ∧ x = 0 := by
  by_cases h : p <;> simp [h, hr]

/-- Settles O53: the window, the lookup, the permission and the A/D update, each by its own lemma. -/
theorem translation : Obligations.Translation := by
  unfold Obligations.Translation
  rintro s c va kind n asid lvl i e e' k img wr pass miss rfl rfl rfl rfl rfl
  refine ⟨fun hlvl hwin => ?window, fun hout => ⟨fun hnone => ?miss, fun hent => ⟨lookup_some hent, fun hr => ?denied, fun hr => ⟨fun h5 h6 => ?set,
    fun hdue hmem himg he' => ?due, fun hdue hmem => ?stale⟩⟩⟩, ?permission⟩
  case window =>
    rw [xlate_window hlvl hwin, isWrite]
    refine ⟨fun hsh => if_pos hsh, fun hsh htgt hwr => ?_, fun hsh hn => ?_⟩
    · rw [if_neg hsh, if_pos ⟨htgt, hwr⟩]
    · rw [if_neg hsh, if_neg hn]
  case miss => exact xlate_miss hout (lookup_none hnone)
  case denied => exact xlate_denied hout hent hr
  case set =>
    rw [xlate_permitted hout hent hr, isWrite, setAD_set h5 h6]
    rfl
  case due =>
    subst he'
    rw [xlate_permitted hout hent hr, isWrite, setAD_due hdue hmem himg]
    exact congrArg _ (entXl_img himg)
  case stale =>
    rw [xlate_permitted hout hent hr, isWrite, setAD_stale hdue hmem]
    rfl
  case permission => 
    rintro rfl
    refine ⟨?_, ?_, fun hi => ?_, ?_, ?_, fun hi h1 => ?_, fun hi h2 => ?_, fun h3 => ?_, fun ht h3 => ?_, fun ht hl h1 => ?_, fun ht h2 => ?_,
      fun ht => ?_, fun ht hu h1 => ?_, fun ht hu h2 => ?_, fun ht hu h3 => ?_⟩
    · rw [permReason_fetch, refused_eq_zero (by decide), refused_eq_zero (by decide), refused_eq_zero (by decide)]
      simp [userOk]
    · rw [permReason_load, refused_eq_zero (by decide), refused_eq_zero (by decide), refused_eq_zero (by decide), not_not]
      simp [userOk, loadType]
    · rw [permReason_store e _ hi, refused_eq_zero (by decide), refused_eq_zero (by decide), refused_eq_zero (by decide), not_not]
      simp [userOk, storeType]
    · rw [permReason_push, refused_eq_zero (by decide)]
      simp
    · rw [permReason_pop, refused_eq_zero (by decide), refused_eq_zero (by decide)]
      simp
    · rcases hi with rfl | rfl
      · simp [permReason_load, h1]
      · simp [permReason_pop, h1]
    · simp [permReason_store e _ hi, h2]
    · simp [permReason_fetch, h3]
    · simp [permReason_fetch, h3, ht]
    · simp [permReason_load, h1, loadType, ht, hl]
    · simp [permReason_store e _ (.inl rfl), h2, storeType, ht]
    · simp [permReason_push, ht]
    · simp [permReason_load, h1, loadType, ht, userOk, hu]
    · simp [permReason_store e _ (.inl rfl), h2, storeType, ht, userOk, hu]
    · simp [permReason_fetch, h3, ht, userOk, hu]

end Sys2Proof.Machine
end

section
/-! PROOFS. Slot accesses (R181, R205, R283 to R287; O54): the checks of a loaded word, the read barrier and healing, and the write
barrier's card. -/
namespace Sys2Proof.Machine

open Sys2Proof

-- Each proof is checked before the next begins, so that no more than one is held in memory.
set_option Elab.async false

/-! ### Parts of a slot access -/

section
variable {s s1 s2 s3 : State} {c va kind width : Nat} {x y : Xl} {w v : TWord} {t : Trap}

theorem ldWord_ok (hx : xlate s c va kind = .ok s1 x) (hr : rdAt s1 c x width = .ok s2 w) : ldWord s c va kind width = .ok s2 (x, w) :=
  (Acs.bind_of hx).trans (Acs.bind_of hr)

theorem ldWord_miss (hx : xlate s c va kind = .trap s1 t) : ldWord s c va kind width = .trap s1 t := Acs.bind_trap hx

theorem ldWord_trap (hx : xlate s c va kind = .ok s1 x) (hr : rdAt s1 c x width = .trap s2 t) : ldWord s c va kind width = .trap s2 t :=
  (Acs.bind_of hx).trans (Acs.bind_trap hr)

theorem ptrChk_bad {a : BitVec 64} (h : ptrOk a = false) : ptrChk s a kind = .trap s ⟨cTAGTRAP, rBADPTR, a.toNat % 2 ^ 48, kind, false⟩ :=
  if_neg (by simp [h])

theorem rdAt_dram (h : x.tgt = .dram) : rdAt s c x width = .ok s (mem s x.pa) := by simp [rdAt, h]

theorem wrAt_dram (h : x.tgt = .dram) : wrAt s c x w width = .ok (putMem s x.pa w) () := by simp [wrAt, h]

theorem wrAll_nil : wrAll s c [] = .ok s () := rfl

theorem wrAll_dram (h : x.tgt = .dram) : wrAll s c [(x, w)] = .ok (putMem s x.pa w) () := by
  have hdev : (x.tgt == Tgt.device) = false := by
    rw [h]
    rfl
  simp [wrAll, hdev, Acs.each, wrAt_dram h, Acs.bind]

theorem condemned_iff {k : Core} {a : Nat} : condemned k a = true ↔
    ∃ n < 4, ((k.condemn[2 * n]?).getD wZero).val.toNat ≤ a ∧ a < ((k.condemn[2 * n + 1]?).getD wZero).val.toNat := by
  simp only [condemned, List.any_eq_true, List.mem_range, decide_eq_true_eq]
  exact exists_congr fun n => and_congr_right fun _ => ⟨fun h => h.2, fun h => ⟨by omega, h⟩⟩

end

/-! ### Loads (R181, R205, R283) -/

section
variable {s s1 s2 s3 : State} {c rd : Nat} {x y : Xl} {w v : TWord} {t : Trap}

theorem tagChk_reserved (h : w.tag ∉ allTags) : tagChk s c w = .trap s (tagTrap rRESERVED) := if_pos (by simpa using h)

theorem allTags_of_priv {g : BitVec 8} (h : g ∈ [tFORWARD, tHEADER, tCTXREF, tSAVELINK, tRAW]) : g ∈ allTags := by
  simp only [List.mem_cons, List.not_mem_nil, or_false] at h
  rcases h with rfl | rfl | rfl | rfl | rfl <;> decide

theorem loadOk_eq_false {lvl : Nat} {g : BitVec 8} : loadOk lvl g = false ↔ lvl = 0 ∧ g ∈ [tFORWARD, tHEADER, tCTXREF, tSAVELINK, tRAW] := by
  by_cases h : lvl = 0
  · simp [loadOk, h, -not_and]
    tauto
  · simp [loadOk, h]

theorem tagChk_priv (h0 : lvlOf s c = 0) (h : w.tag ∈ [tFORWARD, tHEADER, tCTXREF, tSAVELINK, tRAW]) : tagChk s c w = .trap s (tagTrap rPRIV) := by
  unfold tagChk
  rw [if_neg (by simpa using allTags_of_priv h), loadOk_eq_false.mpr ⟨h0, h⟩]
  rfl

theorem tagChk_ok (hall : w.tag ∈ allTags) (h : ¬ (lvlOf s c = 0 ∧ w.tag ∈ [tFORWARD, tHEADER, tCTXREF, tSAVELINK, tRAW])) :
    tagChk s c w = .ok s w := by
  unfold tagChk
  rw [if_neg (by simpa using hall), if_pos]
  rw [← loadOk_eq_false] at h
  simpa using h

theorem destBad_iff : destBad s c rd w = true ↔ lvlOf s c = 0 ∧ rd = 30 ∧ w.tag ≠ tSTACKPTR := by
  simp [destBad, and_assoc]

/-- The tags whose words point into the heap are those of `isHeap`. -/
theorem isHeap_iff : isHeap w = true ↔ w.tag ∈ heapTags := by simp [isHeap]

theorem barrierLoad_off (h : (getCore s c).level = 2 ∨ w.tag ∉ heapTags ∨ condemned (getCore s c) w.val.toNat = false) :
    barrierLoad s c x w = .ok s w := by
  refine if_neg fun ⟨hl, hh, hc⟩ => ?_
  rw [isHeap_iff] at hh
  rcases h with h | h | h
  · exact hl h
  · exact h hh
  · simp [h] at hc

section
variable (hl : (getCore s c).level ≠ 2) (hh : w.tag ∈ heapTags) (hc : condemned (getCore s c) w.val.toNat = true)
include hl hh hc

theorem barrierLoad_hit : barrierLoad s c x w =
    (ptrChk s w.val kLOAD).bind fun s0 a =>
    (ldWord s0 c a kLOAD 64).bind fun s1 y =>
      if y.2.tag = tFORWARD ∧ condemned (getCore s c) y.2.val.toNat = false then
        (heal s1 c x w ⟨w.tag, y.2.val⟩).bind fun s2 _ => .ok s2 ⟨w.tag, y.2.val⟩
      else .trap s1 ⟨cTAGTRAP, rTYPE, x.va, kLOAD, false⟩ := if_pos ⟨hl, isHeap_iff.mpr hh, hc⟩

theorem barrierLoad_badptr (hp : ptrOk w.val = false) :
    barrierLoad s c x w = .trap s ⟨cTAGTRAP, rBADPTR, w.val.toNat % 2 ^ 48, kLOAD, false⟩ := by
  rw [barrierLoad_hit hl hh hc, Acs.bind_trap (ptrChk_bad hp)]

theorem barrierLoad_trap (hp : ptrOk w.val = true) (hld : ldWord s c w.val.toNat kLOAD 64 = .trap s1 t) : barrierLoad s c x w = .trap s1 t := by
  rw [barrierLoad_hit hl hh hc, Acs.bind_of (ptrChk_ok hp), Acs.bind_trap hld]

theorem barrierLoad_read (hp : ptrOk w.val = true) (hld : ldWord s c w.val.toNat kLOAD 64 = .ok s1 (y, v)) : barrierLoad s c x w =
    if v.tag = tFORWARD ∧ condemned (getCore s c) v.val.toNat = false then
      (heal s1 c x w ⟨w.tag, v.val⟩).bind fun s2 _ => .ok s2 ⟨w.tag, v.val⟩
    else .trap s1 ⟨cTAGTRAP, rTYPE, x.va, kLOAD, false⟩ := by
  rw [barrierLoad_hit hl hh hc, Acs.bind_of (ptrChk_ok hp), Acs.bind_of hld]

end

theorem loadSlot_read {va width : Nat} (hx : xlate s c va kLOAD = .ok s1 x) (hr : rdAt s1 c x width = .ok s2 w) :
    loadSlot s c rd va width =
      (tagChk s2 c w).bind fun s w => if destBad s c rd w then .trap s (tagTrap rTYPE) else barrierLoad s c x w :=
  Acs.bind_of (ldWord_ok hx hr)

theorem loadSlot_checked {va width : Nat} (hx : xlate s c va kLOAD = .ok s1 x) (hr : rdAt s1 c x width = .ok s2 w) (hall : w.tag ∈ allTags)
    (hpriv : ¬ (lvlOf s2 c = 0 ∧ w.tag ∈ [tFORWARD, tHEADER, tCTXREF, tSAVELINK, tRAW])) :
    loadSlot s c rd va width = if destBad s2 c rd w then .trap s2 (tagTrap rTYPE) else barrierLoad s2 c x w := by
  rw [loadSlot_read hx hr, Acs.bind_of (tagChk_ok hall hpriv)]

end

/-! ### Healing and stores (R284 to R287) -/

section
variable {s s1 s2 s3 : State} {c va width a b : Nat} {x y : Xl} {w v new : TWord} {t : Trap} {card : List (Xl × TWord)}

theorem heal_due (htyp : x.typ = 0) (hw : x.w = true) : heal s c x w new =
    (xlate s c x.va kSTORE).bind fun s1 y =>
      if mem s1 y.pa = w then
        (cardOf s1 c y new).bind fun s2 card => (wrAll s2 c card).bind fun s3 _ => wrAt s3 c y new 64
      else .ok s1 () := if_neg (by simp [htyp, hw])

theorem cardDue_iff {k : Core} {gen : Nat} (hk : k = getCore s c) : cardDue s c gen w = true ↔
    k.level ≠ 2 ∧ w.tag ∈ heapTags ∧ k.cardbase.tag ≠ tNIL ∧ ∀ p, lookup k.tlb (asidOf k) w.val.toNat = some p → pteGen p.2 < gen := by
  subst hk
  unfold cardDue barrierOn lvlOf
  dsimp only
  cases lookup (getCore s c).tlb (asidOf (getCore s c)) w.val.toNat with
  | none => simp [isHeap, and_assoc]
  | some p => simp [isHeap, and_assoc]

theorem cardOf_off {gen : Nat} (hg : x.gen = gen) (h : cardDue s c gen w = false) : cardOf s c x w = .ok s [] := by
  subst hg
  exact if_neg (by simp [h])

theorem cardOf_due (h : cardDue s c x.gen w = true) : cardOf s c x w =
    (addrChk s ((getCore s c).cardbase.val.toNat + x.va / 512) kCARD).bind fun s0 a =>
    (ldCard s0 c (a - a % 8)).bind fun s1 y =>
      if y.2.tag = tRAW then .ok s1 [(y.1, ⟨tRAW, setByte y.2.val (a % 8) 1⟩)]
      else .trap s1 ⟨cTAGTRAP, rTYPE, a, kCARD, false⟩ := if_pos h

theorem stWord_at (hx : xlate s c va kSTORE = .ok s1 x) :
    stWord s c va w width = (cardOf s1 c x w).bind fun s2 card => (wrAll s2 c card).bind fun s3 _ => wrAt s3 c x w width := Acs.bind_of hx

end

/-- Settles O54: loads by their checks and the read barrier, healing, stores by the write barrier. -/
theorem slotAccess : Obligations.SlotAccess := by
  unfold Obligations.SlotAccess
  intro s s1 s2 s3 s4 c rd va width a b x y w v new t k card
  refine ⟨fun hx => ?miss, fun hx hr => ?readTrap, fun hx hr hk => ?load, fun h => if_pos h, fun htyp hw => ?heals, condemned_iff,
    fun hx => Acs.bind_trap hx, fun hx hk => ?store, fun h => ⟨rdAt_dram h, wrAt_dram h, wrAll_dram h⟩⟩
  case miss => exact Acs.bind_trap (ldWord_miss hx)
  case readTrap => exact Acs.bind_trap (ldWord_trap hx hr)
  case load =>
    subst hk
    refine ⟨fun hres => ?_, fun h0 hpriv => ?_, fun hall hpriv => ⟨fun h0 h30 ht => ?_, fun hdest => ?_⟩⟩
    · rw [loadSlot_read hx hr, Acs.bind_trap (tagChk_reserved hres)]
    · rw [loadSlot_read hx hr, Acs.bind_trap (tagChk_priv h0 hpriv)]
    · rw [loadSlot_checked hx hr hall hpriv, if_pos (destBad_iff.mpr ⟨h0, h30, ht⟩)]
    · rw [loadSlot_checked hx hr hall hpriv, if_neg (fun h => hdest (destBad_iff.mp h))]
      refine ⟨barrierLoad_off, fun hl hh hc => ⟨barrierLoad_badptr hl hh hc, barrierLoad_trap hl hh hc, fun hp hld => ?_⟩⟩
      rw [barrierLoad_read hl hh hc hp hld]
      refine ⟨fun hv => if_neg ?_, fun hf hn hnew => ?_⟩
      · rintro ⟨hf, hn⟩
        rcases hv with hv | hv
        · exact hv hf
        · simp [hn] at hv
      · subst hnew
        rw [if_pos ⟨hf, hn⟩]
        exact ⟨fun h => Acs.bind_of h, fun h => Acs.bind_trap h⟩
  case heals =>
    rw [heal_due htyp hw]
    refine ⟨fun h => Acs.bind_trap h, fun h hne => ?_, fun h heq hcard hwr => ?_⟩
    · rw [Acs.bind_of h, if_neg hne]
    · rw [Acs.bind_of h, if_pos heq, Acs.bind_of hcard, Acs.bind_of hwr]
  case store =>
    refine ⟨fun hoff => ?_, fun hl hh hn hgen ha => ?_⟩
    · have hdue : cardDue s1 c x.gen w = false := by
        rw [← Bool.not_eq_true, cardDue_iff hk]
        rintro ⟨h1, h2, h3, h4⟩
        rcases hoff with h | h | h | ⟨p, hp, hge⟩
        · exact h1 h
        · exact h h2
        · exact h3 h
        · exact absurd (h4 p hp) (by omega)
      rw [stWord_at hx, Acs.bind_of (cardOf_off rfl hdue), Acs.bind_of wrAll_nil]
    · have hdue : cardDue s1 c x.gen w = true := (cardDue_iff hk).mpr ⟨hl, hh, hn, hgen⟩
      have haddr : (k.cardbase.val.toNat : Int) + x.va / 512 = (a : Int) := by
        rw [ha]
        push_cast
        rfl
      rw [stWord_at hx, cardOf_due hdue, ← hk, haddr]
      refine ⟨fun hbig => ?_, fun hsmall hb => ⟨fun hld => ?_, fun hld hv => ?_, fun hld hv hwr => ?_⟩⟩
      · have htrap : addrChk s1 (a : Int) kCARD = .trap s1 ⟨cTAGTRAP, rBADPTR, 0, kCARD, false⟩ := if_neg (by omega)
        rw [htrap]
        rfl
      all_goals
        subst hb
        rw [addrChk_ok hsmall, Acs.bind_of rfl]
      · rw [Acs.bind_trap hld, Acs.bind_trap rfl]
      · rw [Acs.bind_of hld, if_neg hv, Acs.bind_trap rfl]
      · rw [Acs.bind_of hld, if_pos hv, Acs.bind_of rfl, Acs.bind_of hwr]

end Sys2Proof.Machine
end

section
/-! PROOFS. Arithmetic (R187 to R190, R194; O1 to O3): how an instruction that a core fetched ends, operands that may be consumed, and
the operand forms of Tables 7.5 to 7.8 as the cases of the model's sums, products, quotients and comparisons. -/
namespace Sys2Proof.Machine

open Sys2Proof

-- Each proof is checked before the next begins, so that no more than one is held in memory.
set_option Elab.async false

/-! ### How an instruction that core c fetched ends -/

/-- Instruction i, which core c fetched in t, ends with r. -/
def Ends (i : Instr) (s t : State) (c : Nat) (r : IRes) : Prop := exec i s = .next (endInsn t c r)

section
variable {i : Instr} {s t u : State} {c d : Nat} {r : IRes} {w : TWord}

theorem Ends.retires (h : Ends i s t c r) (hr : r = .done u) : Retires i s t u c := by
  subst hr
  exact h

theorem Ends.stays (h : Ends i s t c r) (hr : r = .stay u) : exec i s = .next u := by
  subst hr
  exact h

theorem Ends.traps {x : Trap} (h : Ends i s t c r) (hr : r = .trap u x) : Traps i s u c x := by
  subst hr
  exact h

theorem deliver_ok {v : State} (h : destBad v c d w = false) : deliver v c d w = .done (putReg v c d w) := if_neg (by simp [h])

theorem Ends.delivers (h : Ends i s t c r) (hr : r = deliver t c d w) : Delivers i s t c d w :=
  fun hd => h.retires (hr.trans (deliver_ok hd))

end

/-! ### Operands that may be consumed -/

/-- Neither POISON nor UNBOUND. -/
def Usable (w : TWord) : Prop := w.tag ≠ tPOISON ∧ w.tag ≠ tUNBOUND

section
variable {w x y : TWord}

theorem usable_of_tag {g : BitVec 8} (h : w.tag = g) (hg : g ≠ tPOISON ∧ g ≠ tUNBOUND) : Usable w := by
  rw [Usable, h]
  exact hg

theorem usable_of_integer (h : isInteger w = true) : Usable w := by
  simp only [isInteger, Bool.or_eq_true, beq_iff_eq] at h
  rcases h with h | h <;> exact usable_of_tag h (by decide)

theorem usable_of_rational (h : isRational w = true) : Usable w := by
  rw [isRational, Bool.or_eq_true, beq_iff_eq] at h
  rcases h with h | h
  · exact usable_of_integer h
  · exact usable_of_tag h (by decide)

theorem isInteger_of_int (h : w.tag = tINT) : isInteger w = true := by simp [isInteger, h]

theorem isRational_of_int (h : w.tag = tINT) : isRational w = true := by simp [isRational, isInteger_of_int h]

theorem not_rational_of_tag {g : BitVec 8} (h : w.tag = g) (hg : g ≠ tINT ∧ g ≠ tBIGNUM ∧ g ≠ tRATIO) : isRational w = false := by
  simp [isRational, isInteger, h, hg]

end

/-! ### Sums and differences (R187) -/

/-- The sum, or for SUB the difference. -/
def signed (neg : Bool) (a b : Int) : Int := if neg then a - b else a + b

theorem signed_eq (neg : Bool) (a b : Int) : a + (if neg then -1 else 1) * b = signed neg a b := by
  unfold signed
  split <;> ring

section
variable {s s1 s2 : State} {c rd : Nat} {x y : TWord} {neg : Bool} {a b : Rn}

theorem genSum_int (hx : x.tag = tINT) (hy : y.tag = tINT) : genSum s c rd x y neg =
    if in64 (signed neg (sval x) (sval y)) then deliver s c rd (wInt (signed neg (sval x) (sval y)))
    else deliverNum s c rd (signed neg (sval x) (sval y)) 1 24 := by
  unfold genSum
  dsimp only
  rw [consume_two (usable_of_tag hx (by decide)) (usable_of_tag hy (by decide)), if_pos ⟨hx, hy⟩, signed_eq]

theorem genSum_rational (hx : isRational x = true) (hy : isRational y = true) (hint : ¬ (x.tag = tINT ∧ y.tag = tINT))
    (ha : readNum s c x = .ok s1 a) (hb : readNum s1 c y = .ok s2 b) :
    genSum s c rd x y neg = deliverNum s2 c rd (signed neg (a.n * b.d) (b.n * a.d)) (a.d * b.d) (sumReserve a b) := by
  unfold genSum
  dsimp only
  rw [consume_two (usable_of_rational hx) (usable_of_rational hy), if_neg hint, if_pos (by simp [hx, hy]), Acs.fin_of ha, Acs.fin_of hb, signed_eq]

theorem genSum_money (hx : x.tag = tMONEY) (hy : y.tag = tMONEY) (hin : in64 (signed neg (sval x) (sval y)) = true) :
    genSum s c rd x y neg = deliver s c rd (wMoney (signed neg (sval x) (sval y))) := by
  unfold genSum
  simp only [signed_eq]
  rw [consume_two (usable_of_tag hx (by decide)) (usable_of_tag hy (by decide)), not_rational_of_tag hx (by decide)]
  simp [hx, hy, deliverMoney, hin, tMONEY, tINT]

theorem deliverTime_ok {n : Int} (h0 : 0 ≤ n) (h1 : n < 2 ^ 63) : deliverTime s c rd n = deliver s c rd ⟨tTIME, BitVec.ofInt 64 n⟩ :=
  if_pos ⟨h0, h1⟩

theorem genSum_time_int (hx : x.tag = tTIME) (hy : y.tag = tINT) : genSum s c rd x y neg = deliverTime s c rd (signed neg (sval x) (sval y)) := by
  unfold genSum
  simp only [signed_eq]
  rw [consume_two (usable_of_tag hx (by decide)) (usable_of_tag hy (by decide)), not_rational_of_tag hx (by decide)]
  simp [hx, hy, tTIME, tINT, tMONEY]

theorem genSum_int_time (hx : x.tag = tINT) (hy : y.tag = tTIME) : genSum s c rd x y false = deliverTime s c rd (sval x + sval y) := by
  unfold genSum
  dsimp only
  rw [consume_two (usable_of_tag hx (by decide)) (usable_of_tag hy (by decide)), not_rational_of_tag hy (by decide)]
  simp [hx, hy, tTIME, tINT, tMONEY]

theorem genSum_time_time (hx : x.tag = tTIME) (hy : y.tag = tTIME) : genSum s c rd x y true = deliver s c rd (wInt (sval x - sval y)) := by
  unfold genSum
  dsimp only
  rw [consume_two (usable_of_tag hx (by decide)) (usable_of_tag hy (by decide)), not_rational_of_tag hx (by decide)]
  simp [hx, hy, tTIME, tINT, tMONEY]

end

section
variable {s t : State} {c : Nat} {f : RF} {g : IF}

theorem definedOp_arith (f : RF) {func : Nat} (h : func < funcCount 0x01) : definedOp (encR 0x01 f func) = true :=
  definedOp_encR _ _ _ (by decide) h (lt_of_lt_of_le h (by decide))

/-- A row whose field rd2 must be 0. -/
theorem chk_rd2_zero {r : IRes} (h : f.rd2 = 0) : chk t [ill (f.e ≠ 0)] r = r := chk_no (by simp [firstTrap, ill, RF.e, h])

/-- A row whose destinations must differ. -/
theorem chk_rd2_ne {r : IRes} (h : f.rd2 ≠ f.rd) : chk t [ill (f.e = f.d)] r = r :=
  chk_no (by simp [firstTrap, ill, RF.e, RF.d, BitVec.toNat_inj, h])

theorem add_ends (hat : AtInsn s t c (encR 0x01 f 0)) (h : f.rd2 = 0) :
    Ends (.add c f) s t c (genSum t c f.d (reg t c f.a) (reg t c f.b) false) :=
  (runInsn_end hat (definedOp_arith f (by decide))).trans (by rw [chk_rd2_zero h])

theorem sub_ends (hat : AtInsn s t c (encR 0x01 f 1)) (h : f.rd2 = 0) :
    Ends (.sub c f) s t c (genSum t c f.d (reg t c f.a) (reg t c f.b) true) :=
  (runInsn_end hat (definedOp_arith f (by decide))).trans (by rw [chk_rd2_zero h])

theorem addi_ends (hat : AtInsn s t c (encI 0x02 g)) :
    Ends (.addi c g) s t c (genSum t c g.rd.toNat (reg t c g.ra.toNat) (wInt (simm g)) false) :=
  runInsn_end hat (definedOp_encI _ _ (by decide) (by decide) (by decide))

end

section
variable {i : Instr} {s t u t1 t2 : State} {c d : Nat} {x y : TWord} {neg : Bool} {a b : Rn}

section
variable {n : Int} (h : Ends i s t c (genSum t c d x y neg)) (hn : signed neg (sval x) (sval y) = n)
include h hn

theorem sum_int (hx : x.tag = tINT) (hy : y.tag = tINT) :
    (in64 n = true → Delivers i s t c d (wInt n)) ∧ (in64 n = false → deliverNum t c d n 1 24 = .done u → Retires i s t u c) := by
  rw [genSum_int hx hy, hn] at h
  exact ⟨fun hin => h.delivers (if_pos hin), fun hin hu => h.retires ((if_neg (by simp [hin])).trans hu)⟩

theorem sum_money (hx : x.tag = tMONEY) (hy : y.tag = tMONEY) (hin : in64 n = true) : Delivers i s t c d (wMoney n) := by
  subst hn
  exact h.delivers (genSum_money hx hy hin)

theorem sum_time (hx : x.tag = tTIME) (hy : y.tag = tINT) (h0 : 0 ≤ n) (h1 : n < 2 ^ 63) : Delivers i s t c d ⟨tTIME, BitVec.ofInt 64 n⟩ := by
  subst hn
  exact h.delivers ((genSum_time_int hx hy).trans (deliverTime_ok h0 h1))

end

theorem sum_rational {n : Int} (h : Ends i s t c (genSum t c d x y neg)) (hn : signed neg (a.n * b.d) (b.n * a.d) = n)
    (hx : isRational x = true) (hy : isRational y = true) (hint : ¬ (x.tag = tINT ∧ y.tag = tINT)) (ha : readNum t c x = .ok t1 a)
    (hb : readNum t1 c y = .ok t2 b) (hu : deliverNum t2 c d n (a.d * b.d) (sumReserve a b) = .done u) : Retires i s t u c := by
  subst hn
  exact h.retires ((genSum_rational hx hy hint ha hb).trans hu)

end

/-- An INT reads as itself, over 1. -/
theorem readNum_int {s : State} {c : Nat} {w : TWord} (h : w.tag = tINT) : readNum s c w = .ok s ⟨sval w, 1, 1, 1⟩ := by
  have hne : w.tag ≠ tRATIO := by
    rw [h]
    decide
  have hread : readInt s c w = .ok s (sval w, 1) := if_pos h
  rw [readNum, if_neg hne, Acs.bind_of hread]

/-- Settles O1: each form is one case of `genSum`. -/
theorem sumsComplete : Obligations.SumsComplete := by
  unfold Obligations.SumsComplete
  rintro s t u t1 t2 c f g a b x y z rfl rfl rfl
  refine ⟨fun hat h0 => ?add, fun hat h0 => ?sub, fun hat => ?addi⟩
  case add =>
    have hend := add_ends hat h0
    refine ⟨fun hx hy => (sum_int (u := u) hend rfl hx hy).1, fun hx hy => (sum_int hend rfl hx hy).2, fun hx hy => sum_rational hend rfl hx hy,
      fun hx hy => sum_money hend rfl hx hy, ?_⟩
    rintro (⟨hx, hy⟩ | ⟨hx, hy⟩) hlo hhi
    · exact sum_time hend rfl hx hy hlo hhi
    · exact hend.delivers ((genSum_int_time hx hy).trans (deliverTime_ok hlo hhi))
  case sub =>
    have hend := sub_ends hat h0
    exact ⟨fun hx hy => (sum_int (u := u) hend rfl hx hy).1, fun hx hy => (sum_int hend rfl hx hy).2,
      fun hx hy => sum_rational hend rfl hx hy, fun hx hy => sum_money hend rfl hx hy, fun hx hy => sum_time hend rfl hx hy,
      fun hx hy => hend.delivers (genSum_time_time hx hy)⟩
  case addi =>
    have hend := addi_ends hat
    have himm : sval (wInt (simm g)) = g.imm.toInt := sval_simm g
    rw [← himm]
    refine ⟨fun hz => (sum_int (u := u) hend rfl hz rfl).1, fun hz => (sum_int hend rfl hz rfl).2, fun hz hne ha hu => ?_,
      fun hz => sum_time hend rfl hz rfl⟩
    refine sum_rational hend rfl hz (isRational_of_int rfl) (fun h => hne h.1) ha (readNum_int rfl) ?_
    simpa [signed] using hu

/-! ### Products, quotients and integer division (R188, R189, R194) -/

section
variable {s s1 s2 : State} {c rd rd2 : Nat} {x y : TWord} {a b : Rn}

theorem genMul_int (hx : x.tag = tINT) (hy : y.tag = tINT) : genMul s c rd rd2 x y =
    if in64 (sval x * sval y) then deliver s c rd (wInt (sval x * sval y)) else deliverNum s c rd (sval x * sval y) 1 24 := by
  unfold genMul
  rw [consume_two (usable_of_tag hx (by decide)) (usable_of_tag hy (by decide)), if_pos ⟨hx, hy⟩]

theorem genMul_rational (hx : isRational x = true) (hy : isRational y = true) (hint : ¬ (x.tag = tINT ∧ y.tag = tINT))
    (ha : readNum s c x = .ok s1 a) (hb : readNum s1 c y = .ok s2 b) :
    genMul s c rd rd2 x y = deliverNum s2 c rd (a.n * b.n) (a.d * b.d) (mulReserve a b) := by
  unfold genMul
  rw [consume_two (usable_of_rational hx) (usable_of_rational hy), if_neg hint, if_pos (by simp [hx, hy]), Acs.fin_of ha, Acs.fin_of hb]

theorem not_integer_of_tag {w : TWord} {g : BitVec 8} (h : w.tag = g) (hg : g ≠ tINT ∧ g ≠ tBIGNUM) : isInteger w = false := by
  simp [isInteger, h, hg]

theorem genMul_money_integer (hx : x.tag = tMONEY) (hy : isInteger y = true) : genMul s c rd rd2 x y = moneyByInt s c rd x y := by
  unfold genMul
  rw [consume_two (usable_of_tag hx (by decide)) (usable_of_integer hy), not_rational_of_tag hx (by decide)]
  simp [hx, hy, tMONEY, tINT]

theorem genMul_integer_money (hx : isInteger x = true) (hy : y.tag = tMONEY) : genMul s c rd rd2 x y = moneyByInt s c rd y x := by
  unfold genMul
  rw [consume_two (usable_of_integer hx) (usable_of_tag hy (by decide)), not_rational_of_tag hy (by decide),
    not_integer_of_tag hy (by decide)]
  simp [hx, hy, tMONEY, tINT]

theorem genMul_money_ratio (hx : x.tag = tMONEY) (hy : y.tag = tRATIO) : genMul s c rd rd2 x y = moneyByRatio s c rd rd2 x y := by
  unfold genMul
  rw [consume_two (usable_of_tag hx (by decide)) (usable_of_tag hy (by decide)), not_rational_of_tag hx (by decide),
    not_integer_of_tag hy (by decide)]
  simp [hx, hy, tMONEY, tINT, tRATIO]

theorem genMul_ratio_money (hx : x.tag = tRATIO) (hy : y.tag = tMONEY) : genMul s c rd rd2 x y = moneyByRatio s c rd rd2 y x := by
  unfold genMul
  rw [consume_two (usable_of_tag hx (by decide)) (usable_of_tag hy (by decide)), not_rational_of_tag hy (by decide),
    not_integer_of_tag hx (by decide)]
  simp [hx, hy, tMONEY, tINT, tRATIO]

/-- MONEY by an integer, in the range of MONEY. -/
theorem moneyByInt_ok {n : Int} {l : Nat} (h : readInt s c y = .ok s1 (n, l)) (hin : in64 (sval x * n) = true) :
    moneyByInt s c rd x y = deliver s1 c rd (wMoney (sval x * n)) := by
  rw [moneyByInt, Acs.fin_of h]
  exact if_pos hin

/-- MONEY by a RATIO: the quotient, and the numerator of the breakage. -/
theorem moneyByRatio_ok (h : readNum s c y = .ok s1 b) (hroom : (reg s1 c 31).val.toNat + 8 * (b.ld + 1) ≤ (getCore s1 c).alimit.val.toNat)
    (hin : in64 (Int.tdiv (sval x * b.n) b.d) = true) :
    moneyByRatio s c rd rd2 x y =
      allocDeliver s1 c (8 * (b.ld + 1)) false (intPlan (reg s1 c 31).val.toNat (Int.tmod (sval x * b.n) b.d)).2.1
        [(rd, wMoney (Int.tdiv (sval x * b.n) b.d)), (rd2, (intPlan (reg s1 c 31).val.toNat (Int.tmod (sval x * b.n) b.d)).1)] := by
  rw [moneyByRatio, Acs.fin_of h]
  dsimp only
  rw [if_neg (Nat.not_lt.mpr hroom), if_neg (by simp [hin]), Int.tmod_def]

theorem genDiv_ok (hx : isRational x = true) (hy : isRational y = true) (ha : readNum s c x = .ok s1 a) (hb : readNum s1 c y = .ok s2 b)
    (hb0 : b.n ≠ 0) : genDiv s c rd x y = deliverNum s2 c rd (a.n * b.d) (a.d * b.n) (divReserve a b) := by
  unfold genDiv
  rw [consume_two (usable_of_rational hx) (usable_of_rational hy), if_pos (by simp [hx, hy]), Acs.fin_of ha, Acs.fin_of hb, if_neg hb0]

section
variable (hy0 : sval y ≠ 0)
include hy0

theorem genMdivi_money_int (hx : x.tag = tMONEY) (hy : y.tag = tINT) (hin : in64 (Int.tdiv (sval x) (sval y)) = true) :
    genMdivi s c rd rd2 x y =
      allocDeliver s c 0 false [] [(rd, wMoney (Int.tdiv (sval x) (sval y))), (rd2, wMoney (Int.tmod (sval x) (sval y)))] := by
  unfold genMdivi
  rw [consume_two (usable_of_tag hx (by decide)) (usable_of_tag hy (by decide))]
  simp [hx, hy, hy0, hin, tMONEY, tINT]

theorem genMdivi_money_money (hx : x.tag = tMONEY) (hy : y.tag = tMONEY) :
    genMdivi s c rd rd2 x y =
      allocDeliver s c 24 false (intPlan (reg s c 31).val.toNat (Int.tdiv (sval x) (sval y))).2.1
        [(rd, (intPlan (reg s c 31).val.toNat (Int.tdiv (sval x) (sval y))).1), (rd2, wMoney (Int.tmod (sval x) (sval y)))] := by
  unfold genMdivi
  rw [consume_two (usable_of_tag hx (by decide)) (usable_of_tag hy (by decide))]
  simp [hx, hy, hy0, tMONEY, tINT]

theorem genMdivi_int_int (hx : x.tag = tINT) (hy : y.tag = tINT) :
    genMdivi s c rd rd2 x y =
      allocDeliver s c 24 false (intPlan (reg s c 31).val.toNat (Int.tdiv (sval x) (sval y))).2.1
        [(rd, (intPlan (reg s c 31).val.toNat (Int.tdiv (sval x) (sval y))).1), (rd2, wInt (Int.tmod (sval x) (sval y)))] := by
  unfold genMdivi
  rw [consume_two (usable_of_tag hx (by decide)) (usable_of_tag hy (by decide))]
  simp [hx, hy, hy0, tMONEY, tINT]

end

/-- Nothing to allocate: the two results go to their registers. -/
theorem allocDeliver_two {v w : TWord} (hv : destBad s c rd v = false) (hw : destBad s c rd2 w = false) :
    allocDeliver s c 0 false [] [(rd, v), (rd2, w)] = .done (putReg (putReg s c rd v) c rd2 w) := by
  simp [allocDeliver, hv, hw, idTrap, objsSize, putRegs]

end

section
variable {s t : State} {c : Nat} {f : RF}

theorem mul_ends (hat : AtInsn s t c (encR 0x01 f 2)) (h : f.rd2 ≠ f.rd) :
    Ends (.mul c f) s t c (genMul t c f.d f.e (reg t c f.a) (reg t c f.b)) :=
  (runInsn_end hat (definedOp_arith f (by decide))).trans (by rw [chk_rd2_ne h])

theorem div_ends (hat : AtInsn s t c (encR 0x01 f 3)) (h : f.rd2 = 0) :
    Ends (.div c f) s t c (genDiv t c f.d (reg t c f.a) (reg t c f.b)) :=
  (runInsn_end hat (definedOp_arith f (by decide))).trans (by rw [chk_rd2_zero h])

theorem mdivi_ends (hat : AtInsn s t c (encR 0x01 f 4)) (h : f.rd2 ≠ f.rd) :
    Ends (.mdivi c f) s t c (genMdivi t c f.d f.e (reg t c f.a) (reg t c f.b)) :=
  (runInsn_end hat (definedOp_arith f (by decide))).trans (by rw [chk_rd2_ne h])

end

/-- Settles O2: each form is one case of `genMul`, `genDiv` or `genMdivi`. -/
theorem productsComplete : Obligations.ProductsComplete := by
  unfold Obligations.ProductsComplete
  rintro s t u t1 t2 c f a b x y rfl rfl
  refine ⟨fun hat hne => ?mul, fun hat h0 => ?div, fun hat hne hy0 => ?mdivi⟩
  case mul =>
    have hend := mul_ends hat hne
    refine ⟨fun hx hy hin => ?_, fun hx hy hin hu => ?_, fun hx hy hint ha hb hu => ?_, fun n l hx hy hn hin hd => ?_, fun n l hx hy hn hin hd => ?_,
      fun hx hy hr hroom hin hu => ?_, fun hx hy hr hroom hin hu => ?_⟩
    · exact hend.delivers ((genMul_int hx hy).trans (if_pos hin))
    · exact hend.retires (((genMul_int hx hy).trans (if_neg (by simp [hin]))).trans hu)
    · exact hend.retires ((genMul_rational hx hy hint ha hb).trans hu)
    · exact hend.retires (((genMul_money_integer hx hy).trans (moneyByInt_ok hn hin)).trans (deliver_ok hd))
    · exact hend.retires (((genMul_integer_money hx hy).trans (moneyByInt_ok hn hin)).trans (deliver_ok hd))
    · exact hend.retires (((genMul_money_ratio hx hy).trans (moneyByRatio_ok hr hroom hin)).trans hu)
    · exact hend.retires (((genMul_ratio_money hx hy).trans (moneyByRatio_ok hr hroom hin)).trans hu)
  case div =>
    intro hx hy ha hb hb0 hu
    exact (div_ends hat h0).retires ((genDiv_ok hx hy ha hb hb0).trans hu)
  case mdivi =>
    have hend := mdivi_ends hat hne
    refine ⟨fun hx hy hin hq hr => ?_, fun hx hy hu => ?_, fun hx hy hu => ?_⟩
    · exact hend.retires ((genMdivi_money_int hy0 hx hy hin).trans (allocDeliver_two hq hr))
    · exact hend.retires ((genMdivi_money_money hy0 hx hy).trans hu)
    · exact hend.retires ((genMdivi_int_int hy0 hx hy).trans hu)

/-! ### Comparisons (R190) -/

section
variable {s s1 s2 : State} {c rd : Nat} {x y : TWord} {a b : Rn}

theorem genCmp_rational (hx : isRational x = true) (hy : isRational y = true) (ha : readNum s c x = .ok s1 a) (hb : readNum s1 c y = .ok s2 b) :
    genCmp s c rd x y = deliver s2 c rd (wInt (ordInt (a.n * b.d) (b.n * a.d))) := by
  unfold genCmp
  rw [consume_two (usable_of_rational hx) (usable_of_rational hy), if_pos (by simp [hx, hy]), Acs.fin_of ha, Acs.fin_of hb]

theorem genCmp_int (hx : x.tag = tINT) (hy : y.tag = tINT) : genCmp s c rd x y = deliver s c rd (wInt (ordInt (sval x) (sval y))) := by
  rw [genCmp_rational (isRational_of_int hx) (isRational_of_int hy) (readNum_int hx) (readNum_int hy)]
  simp

theorem usable_congr (h : x.tag = y.tag) (hx : Usable x) : Usable y := by
  rw [Usable, ← h]
  exact hx

theorem genCmp_signed (heq : x.tag = y.tag) (hx : x.tag = tMONEY ∨ x.tag = tTIME) :
    genCmp s c rd x y = deliver s c rd (wInt (ordInt (sval x) (sval y))) := by
  have hrat : isRational x = false := by rcases hx with hx | hx <;> exact not_rational_of_tag hx (by decide)
  have huse : Usable x := by rcases hx with hx | hx <;> exact usable_of_tag hx (by decide)
  unfold genCmp
  rw [consume_two huse (usable_congr heq huse), if_neg (by simp [hrat]), if_pos ⟨heq, hx⟩]

theorem genCmp_unsigned (heq : x.tag = y.tag) (hx : x.tag = tCHAR ∨ x.tag = tBOOL ∨ x.tag = tSYMBOL ∨ x.tag = tNIL) :
    genCmp s c rd x y = deliver s c rd (wInt (ordInt x.val.toNat y.val.toNat)) := by
  have hrat : isRational x = false := by rcases hx with hx | hx | hx | hx <;> exact not_rational_of_tag hx (by decide)
  have huse : Usable x := by rcases hx with hx | hx | hx | hx <;> exact usable_of_tag hx (by decide)
  have hsgn : ¬ (x.tag = tMONEY ∨ x.tag = tTIME) := by rcases hx with hx | hx | hx | hx <;> rw [hx] <;> decide
  unfold genCmp
  rw [consume_two huse (usable_congr heq huse), if_neg (by simp [hrat]), if_neg (fun h => hsgn h.2), if_pos ⟨heq, hx⟩]

end

section
variable {s t : State} {c : Nat} {f : RF} {g : IF}

theorem cmp_ends (hat : AtInsn s t c (encR 0x01 f 5)) (h : f.rd2 = 0) :
    Ends (.cmp c f) s t c (genCmp t c f.d (reg t c f.a) (reg t c f.b)) :=
  (runInsn_end hat (definedOp_arith f (by decide))).trans (by rw [chk_rd2_zero h])

theorem cmpi_ends (hat : AtInsn s t c (encI 0x03 g)) :
    Ends (.cmpi c g) s t c (genCmp t c g.rd.toNat (reg t c g.ra.toNat) (wInt (simm g))) :=
  runInsn_end hat (definedOp_encI _ _ (by decide) (by decide) (by decide))

end

/-- Settles O3: each form is one case of `genCmp`. -/
theorem comparisonsComplete : Obligations.ComparisonsComplete := by
  unfold Obligations.ComparisonsComplete
  rintro s t t1 t2 c f g a b x y z rfl rfl rfl
  refine ⟨fun hat h0 => ?cmp, fun hat => ?cmpi⟩
  case cmp =>
    have hend := cmp_ends hat h0
    refine ⟨fun hx hy => hend.delivers (genCmp_int hx hy), fun hx hy ha hb hd => ?_, fun heq hx => hend.delivers (genCmp_signed heq hx),
      fun heq hx => ?_⟩
    · exact hend.retires ((genCmp_rational hx hy ha hb).trans (deliverInt _ hd))
    · convert hend.delivers (genCmp_unsigned heq hx) using 3
      simp [ordInt]
  case cmpi =>
    have hend := cmpi_ends hat
    have himm : sval (wInt (simm g)) = g.imm.toInt := sval_simm g
    rw [← himm]
    refine ⟨fun hz => hend.delivers (genCmp_int hz rfl), fun hz ha hd => ?_⟩
    have hcmp := genCmp_rational (rd := g.rd.toNat) hz (isRational_of_int rfl) ha (readNum_int (c := c) (w := wInt (simm g)) rfl)
    simp only [Nat.cast_one, mul_one] at hcmp
    exact hend.retires (hcmp.trans (deliverInt _ hd))

end Sys2Proof.Machine
end

section
/-! PROOFS. Bit operations, moves, lists, objects, loads and stores, save areas and control registers (R191, R198, R199, R213 to R223,
R229 to R236, R242, R244; O4 to O9, O13, O14): how each row ends where its checks pass. -/
namespace Sys2Proof.Machine

open Sys2Proof

-- Each proof is checked before the next begins, so that no more than one is held in memory.
set_option Elab.async false

/-! ### Bit operations and shifts (R213 to R215) -/

section
variable {s : State} {c rd : Nat} {x y : TWord}

theorem usable_of_bitTag (hx : x.tag = tINT ∨ x.tag = tRAW) : Usable x := by rcases hx with hx | hx <;> exact usable_of_tag hx (by decide)

theorem bitOp_ok (op : BitVec 64 → BitVec 64 → BitVec 64) (hx : x.tag = tINT ∨ x.tag = tRAW) (heq : x.tag = y.tag) :
    bitOp s c rd x y op = deliver s c rd ⟨x.tag, op x.val y.val⟩ := by
  unfold bitOp
  rw [consume_two (usable_of_bitTag hx) (usable_congr heq (usable_of_bitTag hx))]
  exact if_pos ⟨heq, hx⟩

/-- The operands of a shift: of one tag, or RAW with an INT amount. -/
def ShiftPair (x y : TWord) : Prop := (x.tag = y.tag ∧ (x.tag = tINT ∨ x.tag = tRAW)) ∨ (x.tag = tRAW ∧ y.tag = tINT)

theorem shiftOp_ok (op : BitVec 64 → Nat → BitVec 64) (h : ShiftPair x y) :
    shiftOp s c rd x y op = deliver s c rd ⟨x.tag, op x.val (y.val.toNat % 64)⟩ := by
  have huse : Usable x ∧ Usable y := by
    rcases h with ⟨heq, hx⟩ | ⟨hx, hy⟩
    · exact ⟨usable_of_bitTag hx, usable_congr heq (usable_of_bitTag hx)⟩
    · exact ⟨usable_of_tag hx (by decide), usable_of_tag hy (by decide)⟩
  unfold shiftOp
  rw [consume_two huse.1 huse.2]
  exact if_pos h

/-- An INT amount shifts what is INT or RAW. -/
theorem shiftPair_amount (n : Int) (hx : x.tag = tINT ∨ x.tag = tRAW) : ShiftPair x (wInt n) := by
  rcases hx with hx | hx
  · exact .inl ⟨hx, .inl hx⟩
  · exact .inr ⟨hx, rfl⟩

/-- The amount of SHI is imm[5:0]. -/
theorem shi_amount (n : Nat) : (wInt (bits n 0 6)).val.toNat % 64 = n % 64 := by
  have hlt : n % 64 < 2 ^ 64 := by omega
  have hval : (BitVec.ofInt 64 ((n % 64 : Nat) : Int)).toNat = n % 64 := by
    rw [BitVec.ofInt_natCast]
    exact Nat.mod_eq_of_lt hlt
  show (BitVec.ofInt 64 ((n % 64 : Nat) : Int)).toNat % 64 = n % 64
  rw [hval, Nat.mod_mod]

end

section
variable {s t : State} {c func : Nat} {f : RF} {g : IF}

theorem bitInsn_ends {i : Instr} {op : BitVec 64 → BitVec 64 → BitVec 64} (hi : exec i s = bitInsn c f func op s) (hfunc : func < 7)
    (h0 : f.rd2 = 0) (hat : AtInsn s t c (encR 0x04 f func)) : Ends i s t c (bitOp t c f.d (reg t c f.a) (reg t c f.b) op) :=
  hi.trans ((runInsn_end hat (definedOp_encR _ _ _ (by decide) hfunc (by omega))).trans (by rw [chk_rd2_zero h0]))

theorem shiftInsn_ends {i : Instr} {op : BitVec 64 → Nat → BitVec 64} (hi : exec i s = shiftInsn c f func op s) (hfunc : func < 7)
    (h0 : f.rd2 = 0) (hat : AtInsn s t c (encR 0x04 f func)) : Ends i s t c (shiftOp t c f.d (reg t c f.a) (reg t c f.b) op) :=
  hi.trans ((runInsn_end hat (definedOp_encR _ _ _ (by decide) hfunc (by omega))).trans (by rw [chk_rd2_zero h0]))

theorem andi_ends (hat : AtInsn s t c (encI 0x05 g)) :
    Ends (.andi c g) s t c (bitOp t c g.rd.toNat (reg t c g.ra.toNat) (tw (reg t c g.ra.toNat).tag g.imm.toNat) (· &&& ·)) :=
  runInsn_end hat (definedOp_encI _ _ (by decide) (by decide) (by decide))

theorem ori_ends (hat : AtInsn s t c (encI 0x06 g)) :
    Ends (.ori c g) s t c (bitOp t c g.rd.toNat (reg t c g.ra.toNat) (tw (reg t c g.ra.toNat).tag g.imm.toNat) (· ||| ·)) :=
  runInsn_end hat (definedOp_encI _ _ (by decide) (by decide) (by decide))

/-- SHI of a kind that imm[7:6] names. -/
theorem shi_delivers {kind : Nat} {x : TWord} {op : BitVec 64 → Nat → BitVec 64} (hat : AtInsn s t c (encI 0x07 g))
    (hx : reg t c g.ra.toNat = x) (htag : x.tag = tINT ∨ x.tag = tRAW) (hkind : g.imm.toNat / 64 = kind) (hlt : kind < 3)
    (hop : ∀ a n, (if kind = 0 then a <<< n else if kind = 1 then a >>> n else a.sshiftRight n) = op a n) :
    Delivers (.shi c g) s t c g.rd.toNat ⟨x.tag, op x.val (g.imm.toNat - 64 * kind)⟩ := by
  have hbits : bits (uimm g) 6 2 = kind := by
    rw [bits, Nat.shiftRight_eq_div_pow]
    exact (congrArg (· % 4) hkind).trans (Nat.mod_eq_of_lt (by omega))
  have hamount : g.imm.toNat % 64 = g.imm.toNat - 64 * kind := by omega
  have hend : Ends (.shi c g) s t c _ := runInsn_end hat (definedOp_encI _ _ (by decide) (by decide) (by decide))
  refine hend.delivers ?_
  dsimp only
  have hform : firstTrap [ill (decide (bits (uimm g) 6 2 = 3 ∨ uimm g ≥ 256))] = none := by
    have hne : ¬ (bits (uimm g) 6 2 = 3 ∨ uimm g ≥ 256) := by
      rw [hbits, uimm]
      omega
    simp only [firstTrap, ill, hne, decide_false]
    rfl
  rw [chk_no hform, hx, shiftOp_ok _ (shiftPair_amount _ htag), hbits, hop]
  exact congrArg (fun n => deliver t c g.rd.toNat ⟨x.tag, op x.val n⟩) ((shi_amount _).trans hamount)

end

/-! ### Moves and immediates (R191, R215, R216, R220) -/

section
variable {s t : State} {c : Nat} {f : RF} {g : IF} {x : TWord}

theorem mov_ends (hat : AtInsn s t c (encR 0x0E f 0)) (hb : f.rb = 0) (he : f.rd2 = 0) : Ends (.mov c f) s t c (deliver t c f.d (reg t c f.a)) :=
  (runInsn_end hat (definedOp_encR _ _ _ (by decide) (by decide) (by decide))).trans
    (by rw [chk_no (by simp [firstTrap, ill, RF.b, RF.e, hb, he])])

theorem tag_ends (hat : AtInsn s t c (encR 0x0E f 1)) (hb : f.rb = 0) (he : f.rd2 = 0) :
    Ends (.tag c f) s t c (deliver t c f.d (wInt (reg t c f.a).tag.toNat)) :=
  (runInsn_end hat (definedOp_encR _ _ _ (by decide) (by decide) (by decide))).trans
    (by rw [chk_no (by simp [firstTrap, ill, RF.b, RF.e, hb, he])])

theorem nop_ends (hat : AtInsn s t c (encR 0x0E ⟨0, 0, 0, 0⟩ 2)) : Ends (.nop c ⟨0, 0, 0, 0⟩) s t c (.done t) :=
  runInsn_end hat (definedOp_encR _ _ _ (by decide) (by decide) (by decide))

theorem li_ends (hat : AtInsn s t c (encI 0x08 g)) (ha : g.ra = 0) : Ends (.li c g) s t c (deliver t c g.rd.toNat (wInt g.imm.toInt)) :=
  (runInsn_end hat (definedOp_encI _ _ (by decide) (by decide) (by decide))).trans (by rw [chk_no (by simp [firstTrap, ill, ha])]; rfl)

theorem lix_ends (hat : AtInsn s t c (encI 0x09 g)) (ha : g.ra = 0) (hx : reg t c g.rd.toNat = x) (htag : x.tag = tINT) :
    Ends (.lix c g) s t c (deliver t c g.rd.toNat ⟨tINT, (x.val <<< 16) ||| BitVec.ofNat 64 g.imm.toNat⟩) := by
  subst hx
  refine (runInsn_end hat (definedOp_encI _ _ (by decide) (by decide) (by decide))).trans ?_
  rw [chk_no (by simp [firstTrap, ill, ha]), consume_one (usable_of_tag htag (by decide)), if_pos htag]
  rfl

theorem retag_ends {w : BitVec 8} (hat : AtInsn s t c (encI 0x0A g)) (hx : reg t c g.ra.toNat = x) (himm : g.imm.toNat = w.toNat)
    (hall : w ∈ allTags) (hpay : payloadOk w x.val = true) (huse : Usable x)
    (hok : retagOk (lvlOf t c) w (x.val.toNat / 2 ^ 56 == (getCore t c).asid / 4) = true) (hseal : ¬ (lvlOf t c = 0 ∧ x.tag ∈ sealedTags)) :
    Ends (.retag c g) s t c (deliver t c g.rd.toNat ⟨w, x.val⟩) := by
  subst hx
  have hw : BitVec.ofNat 8 (uimm g) = w := by rw [uimm, himm, BitVec.ofNat_toNat, BitVec.setWidth_eq]
  have hlt : uimm g < 256 := by
    rw [uimm, himm]
    exact w.isLt
  have hlvl : ¬ ((getCore t c).level = 0 ∧ (reg t c g.ra.toNat).tag ∈ sealedTags) := hseal
  have hok' : retagOk (getCore t c).level w ((reg t c g.ra.toNat).val.toNat / 2 ^ 56 == (getCore t c).asid / 4) = true := hok
  refine (runInsn_end hat (definedOp_encI _ _ (by decide) (by decide) (by decide))).trans ?_
  dsimp only
  rw [chk_no (by simp [firstTrap, ill, hlt]), consume_one huse, hw, chk_no]
  have hl : ((getCore t c).level == 0 && sealedTags.contains (reg t c g.ra.toNat).tag) = false := by simpa using hlvl
  simp only [firstTrap, tagIf, hok', hpay, hl]
  simp [hall]

theorem typep_ends {b : Bool} (hat : AtInsn s t c (encI 0x0B g)) (hb : typepOf g.imm.toNat (reg t c g.ra.toNat).tag = some b)
    (hlt : g.imm.toNat < 256) : Ends (.typep c g) s t c (deliver t c g.rd.toNat (wBool b)) := by
  refine (runInsn_end hat (definedOp_encI _ _ (by decide) (by decide) (by decide))).trans ?_
  rw [chk_no (by simp [firstTrap, ill, uimm, hlt]), uimm, hb]

/-- No tag has the number of a class that TYPEP tests. -/
theorem tag_not_class {w : BitVec 8} (h : w ∈ allTags) : w.toNat < 0xE0 ∨ 0xE4 < w.toNat := by
  have hall : (allTags.all fun u => decide (u.toNat < 0xE0 ∨ 0xE4 < u.toNat)) = true := by decide
  simpa using List.all_eq_true.mp hall w h

theorem typepOf_tag {w u : BitVec 8} (h : w ∈ allTags) : typepOf w.toNat u = some (decide (u = w)) := by
  have hcls := tag_not_class h
  unfold typepOf
  rw [if_neg (by omega), if_neg (by omega), if_neg (by omega), if_neg (by omega), if_neg (by omega), BitVec.ofNat_toNat, BitVec.setWidth_eq,
    if_pos (by simpa using h)]
  rfl

theorem addp_ends {a : Nat} (hat : AtInsn s t c (encI 0x14 g)) (hx : reg t c g.ra.toNat = x) (himm : g.imm.toNat % 8 = 0)
    (hbase : x.tag ∈ baseTags (lvlOf t c)) (ha : (a : Int) = x.val.toNat + g.imm.toInt) (hlt : a < 2 ^ 48) (h8 : a % 8 = 0) :
    Ends (.addp c g) s t c (deliver t c g.rd.toNat (tw x.tag a)) := by
  subst hx
  have hval : (BitVec.ofNat 64 a).toNat = a := Nat.mod_eq_of_lt (by omega)
  have hptr : ptrOk (BitVec.ofNat 64 a) = true := by
    rw [ptrOk, hval, h8, decide_eq_true hlt]
    rfl
  refine (runInsn_end hat (definedOp_encI _ _ (by decide) (by decide) (by decide))).trans ?_
  dsimp only
  rw [chk_no (by simp [firstTrap, ill, uimm, himm]), consume_one (base_consume hbase), chk_no (by simp [firstTrap, tagIf, hbase]), simm, ← ha,
    Acs.fin_of (addrChk_ok hlt), Acs.fin_of (ptrChk_ok hptr), hval]

end

/-- Settles O4: each row is one of the shared bit and shift operations, or delivers its word. -/
theorem bitOperationsAndMovesComplete : Obligations.BitOperationsAndMovesComplete := by
  unfold Obligations.BitOperationsAndMovesComplete
  refine ⟨?bitRows, ?moves⟩
  case bitRows =>
    rintro s t c f g x y z rfl rfl rfl
    refine ⟨fun h0 hx heq => ?logic, fun h0 hpair => ?shifts, fun hz => ?immediates⟩
    case logic =>
      exact ⟨fun hat => (bitInsn_ends rfl (by decide) h0 hat).delivers (bitOp_ok _ hx heq),
        fun hat => (bitInsn_ends rfl (by decide) h0 hat).delivers (bitOp_ok _ hx heq),
        fun hat => (bitInsn_ends rfl (by decide) h0 hat).delivers (bitOp_ok _ hx heq),
        fun hat => (bitInsn_ends rfl (by decide) h0 hat).delivers (bitOp_ok _ hx heq)⟩
    case shifts =>
      exact ⟨fun hat => (shiftInsn_ends rfl (by decide) h0 hat).delivers (shiftOp_ok _ hpair),
        fun hat => (shiftInsn_ends rfl (by decide) h0 hat).delivers (shiftOp_ok _ hpair),
        fun hat => (shiftInsn_ends rfl (by decide) h0 hat).delivers (shiftOp_ok _ hpair)⟩
    case immediates =>
      refine ⟨fun hat => (andi_ends hat).delivers (bitOp_ok _ hz rfl), fun hat => (ori_ends hat).delivers (bitOp_ok _ hz rfl),
        fun hat => ⟨fun hlt => ?_, fun hlo hhi => ?_, fun hlo hhi => ?_⟩⟩
      · exact shi_delivers (kind := 0) hat rfl hz (by omega) (by decide) fun _ _ => rfl
      · exact shi_delivers (kind := 1) hat rfl hz (by omega) (by decide) fun _ _ => rfl
      · exact shi_delivers (kind := 2) hat rfl hz (by omega) (by decide) fun _ _ => rfl
  case moves =>
    intro s t c f g x
    refine ⟨fun hat hb he => (mov_ends hat hb he).delivers rfl, fun hat hb he => (tag_ends hat hb he).delivers rfl, fun hat hf => ?nop,
      fun hat ha => (li_ends hat ha).delivers rfl, fun hat ha hx htag => (lix_ends hat ha hx htag).delivers rfl,
      fun hat hx w himm hall hpay hp hu hok hseal => (retag_ends hat hx himm hall hpay ⟨hp, hu⟩ hok hseal).delivers rfl, fun hat hx => ?typep,
      fun hat hx himm hbase hp hu h0 hlt h8 => ?addp⟩
    case nop =>
      subst hf
      exact (nop_ends hat).retires rfl
    case typep =>
      subst hx
      refine ⟨fun hsel => ?_, fun hsel => ?_, fun hsel => ?_, fun hsel => ?_, fun hsel => ?_, fun w hw hsel => ?_⟩
      case refine_6 => exact (typep_ends hat (by rw [hsel, typepOf_tag hw]) (by rw [hsel]; exact w.isLt)).delivers rfl
      all_goals exact (typep_ends hat (by rw [hsel]; simp [typepOf, Bool.beq_eq_decide_eq, Bool.or_assoc]) (by omega)).delivers rfl
    case addp =>
      exact (addp_ends hat hx himm hbase (Int.toNat_of_nonneg h0) (by omega) h8).delivers rfl

/-! ### Forms of an encoding -/

section
variable {t : State} {f : RF} {r : IRes}

theorem chk_form_rb_rd2 (hb : f.rb = 0) (he : f.rd2 = 0) : chk t [ill (f.b ≠ 0 ∨ f.e ≠ 0)] r = r :=
  chk_no (by simp [firstTrap, ill, RF.b, RF.e, hb, he])

theorem chk_form_rd_rd2 (hd : f.rd = 0) (he : f.rd2 = 0) : chk t [ill (f.d ≠ 0 ∨ f.e ≠ 0)] r = r :=
  chk_no (by simp [firstTrap, ill, RF.d, RF.e, hd, he])

end

/-! ### Cells (R222, R198) -/

section
variable {s s1 : State} {c rd : Nat} {x v w : TWord}

theorem cellRead_nil (hx : x.tag = tNIL) (i : Nat) : cellRead s c rd x i = deliver s c rd wNil := by
  unfold cellRead
  rw [consume_one (usable_of_tag hx (by decide)), if_pos hx]

theorem cellRead_cons {i a : Nat} (hx : x.tag = tCONS) (hp : ptrOk x.val = true) (ha : slotAt x.val.toNat i = (a : Int)) (hlt : a < 2 ^ 48)
    (hld : loadSlot s c rd a 64 = .ok s1 w) : cellRead s c rd x i = deliver s1 c rd w := by
  have hnil : ¬ x.tag = tNIL := by
    rw [hx]
    decide
  unfold cellRead
  rw [consume_one (usable_of_tag hx (by decide)), if_neg hnil, if_pos hx, Acs.fin_of (ptrChk_ok hp), ha, Acs.fin_of (addrChk_ok hlt), Acs.fin_of hld]

theorem cellWrite_cons {i a : Nat} (hx : x.tag = tCONS) (hp : ptrOk x.val = true) (ha : slotAt x.val.toNat i = (a : Int)) (hlt : a < 2 ^ 48)
    (hst : stWord s c a v 64 = .ok s1 ()) : cellWrite s c x v i = .done s1 := by
  unfold cellWrite
  rw [consume_one (usable_of_tag hx (by decide)), if_pos hx, Acs.fin_of (ptrChk_ok hp), ha, Acs.fin_of (addrChk_ok hlt), Acs.fin_of hst]

theorem slotAt_zero (a : Nat) : slotAt a 0 = (a : Int) := by simp [slotAt]

theorem slotAt_one (a : Nat) : slotAt a 1 = ((a + 8 : Nat) : Int) := by simp [slotAt]

end

section
variable {s t t1 t2 u : State} {c : Nat} {f : RF}

theorem definedOp_list (f : RF) {func : Nat} (h : func < 7) : definedOp (encR 0x0C f func) = true :=
  definedOp_encR _ _ _ (by decide) h (by omega)

theorem car_ends (hat : AtInsn s t c (encR 0x0C f 0)) (hb : f.rb = 0) (he : f.rd2 = 0) :
    Ends (.car c f) s t c (cellRead t c f.d (reg t c f.a) 0) :=
  (runInsn_end hat (definedOp_list f (by decide))).trans (by rw [chk_form_rb_rd2 hb he])

theorem cdr_ends (hat : AtInsn s t c (encR 0x0C f 1)) (hb : f.rb = 0) (he : f.rd2 = 0) :
    Ends (.cdr c f) s t c (cellRead t c f.d (reg t c f.a) 1) :=
  (runInsn_end hat (definedOp_list f (by decide))).trans (by rw [chk_form_rb_rd2 hb he])

theorem cons_ends (hat : AtInsn s t c (encR 0x0C f 2)) (he : f.rd2 = 0) (huse : ∀ z ∈ [reg t c f.a, reg t c f.b], Usable z) :
    Ends (.cons c f) s t c (allocDeliver t c 16 true [⟨none, [reg t c f.a, reg t c f.b]⟩] [(f.d, ⟨tCONS, (reg t c 31).val⟩)]) :=
  (runInsn_end hat (definedOp_list f (by decide))).trans (by dsimp only; rw [chk_rd2_zero he, consume_of_forall huse])

theorem setcar_ends (hat : AtInsn s t c (encR 0x0C f 3)) (hd : f.rd = 0) (he : f.rd2 = 0) :
    Ends (.setcar c f) s t c (cellWrite t c (reg t c f.a) (reg t c f.b) 0) :=
  (runInsn_end hat (definedOp_list f (by decide))).trans (by rw [chk_form_rd_rd2 hd he])

theorem setcdr_ends (hat : AtInsn s t c (encR 0x0C f 4)) (hd : f.rd = 0) (he : f.rd2 = 0) :
    Ends (.setcdr c f) s t c (cellWrite t c (reg t c f.a) (reg t c f.b) 1) :=
  (runInsn_end hat (definedOp_list f (by decide))).trans (by rw [chk_form_rd_rd2 hd he])

/-- What LEN does with an operand that may be consumed. -/
theorem len_ends {x : TWord} (hat : AtInsn s t c (encR 0x0C f 5)) (hb : f.rb = 0) (he : f.rd2 = 0) (hx : reg t c f.a = x) (huse : Usable x) :
    Ends (.len c f) s t c
      (if x.tag = tNIL ∨ x.tag = tCONS then (lenCells 16777216 t c x 0).fin fun s1 n => deliver s1 c f.d (wInt n)
      else if x.tag = tVECTOR then (objHeader t c x).fin fun s1 h => deliver s1 c f.d (wInt h.2)
      else if x.tag = tSTRING then (strLen t c x).fin fun s1 h => deliver s1 c f.d (wInt h.2)
      else .trap t (tagTrap rTYPE)) := by
  subst hx
  refine (runInsn_end hat (definedOp_list f (by decide))).trans ?_
  dsimp only
  rw [chk_form_rb_rd2 hb he, consume_one huse]

theorem idhash_ends {x : TWord} (hat : AtInsn s t c (encR 0x0C f 6)) (hb : f.rb = 0) (he : f.rd2 = 0) (hx : reg t c f.a = x)
    (htag : x.tag ∈ [tVECTOR, tSTRING, tBIGNUM, tRECORD, tCLOSURE, tRATIO]) :
    Ends (.idhash c f) s t c
      ((objHeader t c x).fin fun s1 h => (objWord s1 c h.1 0).fin fun s2 w => deliver s2 c f.d (wInt (hdrIdent w))) := by
  subst hx
  have hheap : (isHeap (reg t c f.a) && (reg t c f.a).tag != tCONS) = true := by
    simp only [List.mem_cons, List.not_mem_nil, or_false] at htag
    rcases htag with h | h | h | h | h | h <;> simp [isHeap, h] <;> decide
  have huse : Usable (reg t c f.a) := by
    simp only [List.mem_cons, List.not_mem_nil, or_false] at htag
    rcases htag with h | h | h | h | h | h <;> exact usable_of_tag h (by decide)
  refine (runInsn_end hat (definedOp_list f (by decide))).trans ?_
  dsimp only
  rw [chk_form_rb_rd2 hb he, consume_one huse, if_pos hheap]

end

/-- Settles O5: each row reads or writes a cell, allocates one, or delivers a number. -/
theorem listInstructionsComplete : Obligations.ListInstructionsComplete := by
  unfold Obligations.ListInstructionsComplete
  rintro s t t1 t2 u c f x v w a n l hx hv
  refine ⟨fun hb he htag => ?nil, fun hb he htag hp hd => ?cells, fun he huse hat hu => ?cons, fun hd he htag hp => ?stores,
    fun hb he hat hd => ?len, fun hb he hat htag hh hw hd => ?idhash⟩
  case nil =>
    subst hx
    refine ⟨fun hat => (car_ends hat hb he).delivers (cellRead_nil htag 0), fun hat => (cdr_ends hat hb he).delivers (cellRead_nil htag 1),
      fun hat => (len_ends hat hb he rfl (usable_of_tag htag (by decide))).delivers ?_⟩
    rw [if_pos (.inl htag), Acs.fin_of (lenCells_nil _ t c _ 0 htag)]
    rfl
  case cells =>
    subst hx
    refine ⟨fun hat hld => (car_ends hat hb he).retires ?_, fun hat hlt hld => (cdr_ends hat hb he).retires ?_⟩
    · exact (cellRead_cons htag hp (slotAt_zero _) (ptr_lt hp) hld).trans (deliver_ok hd)
    · exact (cellRead_cons htag hp (slotAt_one _) hlt hld).trans (deliver_ok hd)
  case cons =>
    subst hx hv
    exact (cons_ends hat he huse).retires hu
  case stores =>
    subst hx hv
    exact ⟨fun hat hst => (setcar_ends hat hd he).retires (cellWrite_cons htag hp (slotAt_zero _) (ptr_lt hp) hst),
      fun hat hlt hst => (setcdr_ends hat hd he).retires (cellWrite_cons htag hp (slotAt_one _) hlt hst)⟩
  case len =>
    refine ⟨fun htag hl => ?_, fun htag hh => ?_, fun htag hh => ?_⟩
    all_goals
      refine (len_ends hat hb he hx (usable_of_tag htag (by decide))).retires ?_
      rw [htag]
    · exact (Acs.fin_of hl).trans (deliverInt _ hd)
    · exact (Acs.fin_of hh).trans (deliverInt _ hd)
    · exact (Acs.fin_of hh).trans (deliverInt _ hd)
  case idhash =>
    refine (idhash_ends hat hb he hx htag).retires ?_
    rw [Acs.fin_of hh, Acs.fin_of hw]
    exact deliverInt _ hd

/-! ### Objects (R223) -/

theorem consume_three {s : State} {x y z : TWord} {r : IRes} (hx : Usable x) (hy : Usable y) (hz : Usable z) : consume s [x, y, z] r = r :=
  consume_of_forall (by simpa using ⟨hx, hy, hz⟩)

theorem newObject_eq (s : State) (c rd : Nat) (tag : BitVec 8) (barrier : Bool) (body : List TWord) :
    newObject s c rd tag barrier body =
      allocDeliver s c (8 * (body.length + 1)) barrier [⟨some tag.toNat, body⟩] [(rd, ⟨tag, (reg s c 31).val⟩)] := by
  rw [newObject, size_of_headed rfl]

section
variable {s t t1 t2 u : State} {c a : Nat} {f : RF} {x i v w : TWord}

theorem definedOp_obj (f : RF) {func : Nat} (h : func < 7) : definedOp (encR 0x0D f func) = true :=
  definedOp_encR _ _ _ (by decide) h (by omega)

theorem indexable_of {lvl : Nat} {g : BitVec 8} (h : g = tVECTOR ∨ g = tRECORD ∨ (g = tCLOSURE ∧ lvl ≠ 0)) : indexable lvl g = true := by
  rcases h with h | h | ⟨h, hl⟩
  · simp [indexable, h]
  · simp [indexable, h]
  · simp [indexable, h, hl]

theorem usable_of_indexable (h : x.tag = tVECTOR ∨ x.tag = tRECORD ∨ (x.tag = tCLOSURE ∧ lvlOf t c ≠ 0)) : Usable x := by
  rcases h with h | h | ⟨h, -⟩ <;> exact usable_of_tag h (by decide)

theorem vref_ends (hat : AtInsn s t c (encR 0x0D f 0)) (he : f.rd2 = 0) (hx : reg t c f.a = x) (hi : reg t c f.b = i) (hint : i.tag = tINT)
    (hidx : x.tag = tVECTOR ∨ x.tag = tRECORD ∨ (x.tag = tCLOSURE ∧ lvlOf t c ≠ 0)) :
    Ends (.vref c f) s t c ((bodyAddr t c x i).fin fun s1 a => (loadSlot s1 c f.d a 64).fin fun s2 w => deliver s2 c f.d w) := by
  subst hx hi
  refine (runInsn_end hat (definedOp_obj f (by decide))).trans ?_
  dsimp only
  rw [chk_rd2_zero he, consume_two (usable_of_indexable hidx) (usable_of_tag hint (by decide)),
    chk_no (by simp [firstTrap, tagIf, indexable_of hidx, hint])]

theorem vset_ends (hat : AtInsn s t c (encR 0x0D f 1)) (he : f.rd2 = 0) (hx : reg t c f.a = x) (hi : reg t c f.b = i) (hint : i.tag = tINT)
    (hidx : x.tag = tVECTOR ∨ x.tag = tRECORD ∨ (x.tag = tCLOSURE ∧ lvlOf t c ≠ 0)) (hrec : ¬ (x.tag = tRECORD ∧ i.val = 0)) :
    Ends (.vset c f) s t c ((bodyAddr t c x i).fin fun s1 a => (stWord s1 c a (reg t c f.d) 64).fin fun s2 _ => .done s2) := by
  subst hx hi
  have hrec' : ((reg t c f.a).tag == tRECORD && (reg t c f.b).val == 0) = false := by simpa using hrec
  refine (runInsn_end hat (definedOp_obj f (by decide))).trans ?_
  dsimp only
  rw [chk_rd2_zero he, consume_two (usable_of_indexable hidx) (usable_of_tag hint (by decide)), hrec',
    chk_no (by simp [firstTrap, tagIf, indexable_of hidx, hint])]

theorem sref_ends (hat : AtInsn s t c (encR 0x0D f 2)) (he : f.rd2 = 0) (hx : reg t c f.a = x) (hi : reg t c f.b = i) (hint : i.tag = tINT)
    (hstr : x.tag = tSTRING) :
    Ends (.sref c f) s t c ((strWord t c x i).fin fun s1 p => deliver s1 c f.d (wInt (getByte p.2.val (i.val.toNat % 8)))) := by
  subst hx hi
  refine (runInsn_end hat (definedOp_obj f (by decide))).trans ?_
  dsimp only
  rw [chk_rd2_zero he, consume_two (usable_of_tag hstr (by decide)) (usable_of_tag hint (by decide)), chk_no (by simp [firstTrap, tagIf, hstr, hint])]

theorem sset_ends (hat : AtInsn s t c (encR 0x0D f 3)) (he : f.rd2 = 0) (hx : reg t c f.a = x) (hi : reg t c f.b = i) (hint : i.tag = tINT)
    (hstr : x.tag = tSTRING) (hv : reg t c f.d = v) (hvint : v.tag = tINT) (hbyte : v.val.toNat ≤ 255) :
    Ends (.sset c f) s t c ((strWord t c x i).fin fun s1 p =>
      (stWord s1 c p.1 ⟨tRAW, setByte p.2.val (i.val.toNat % 8) v.val.toNat⟩ 64).fin fun s2 _ => .done s2) := by
  subst hx hi hv
  refine (runInsn_end hat (definedOp_obj f (by decide))).trans ?_
  dsimp only
  rw [chk_rd2_zero he, consume_three (usable_of_tag hstr (by decide)) (usable_of_tag hint (by decide)) (usable_of_tag hvint (by decide)),
    chk_no (by simp [firstTrap, tagIf, hstr, hint, isByte, hvint, hbyte])]

theorem makev_ends (hat : AtInsn s t c (encR 0x0D f 4)) (he : f.rd2 = 0) (hx : reg t c f.a = x) (hi : reg t c f.b = i) (hint : i.tag = tINT)
    (huse : Usable x) (hn : i.val.toNat ≤ 65535) : Ends (.makev c f) s t c (newObject t c f.d tVECTOR true (List.replicate i.val.toNat x)) := by
  subst hx hi
  refine (runInsn_end hat (definedOp_obj f (by decide))).trans ?_
  dsimp only
  rw [chk_rd2_zero he, consume_two huse (usable_of_tag hint (by decide)), chk_no (by simp [firstTrap, tagIf, bnd, hint, hn])]

theorem maker_ends (hat : AtInsn s t c (encR 0x0D f 5)) (he : f.rd2 = 0) (hx : reg t c f.a = x) (hi : reg t c f.b = i) (hint : i.tag = tINT)
    (hsym : x.tag = tSYMBOL) (hn : i.val.toNat ≤ 65534) :
    Ends (.maker c f) s t c (newObject t c f.d tRECORD false (x :: List.replicate i.val.toNat wNil)) := by
  subst hx hi
  refine (runInsn_end hat (definedOp_obj f (by decide))).trans ?_
  dsimp only
  rw [chk_rd2_zero he, consume_two (usable_of_tag hsym (by decide)) (usable_of_tag hint (by decide)),
    chk_no (by simp [firstTrap, tagIf, bnd, hint, hsym, hn])]

theorem makes_ends (hat : AtInsn s t c (encR 0x0D f 6)) (he : f.rd2 = 0) (ha : f.ra = 0) (hi : reg t c f.b = i) (hint : i.tag = tINT)
    (hn : i.val.toNat ≤ 524272) :
    Ends (.makes c f) s t c (newObject t c f.d tSTRING false (wInt i.val.toNat :: List.replicate ((i.val.toNat + 7) / 8) wZero)) := by
  subst hi
  refine (runInsn_end hat (definedOp_obj f (by decide))).trans ?_
  dsimp only
  rw [chk_no (by simp [firstTrap, ill, RF.a, RF.e, ha, he]), consume_one (usable_of_tag hint (by decide)),
    chk_no (by simp [firstTrap, tagIf, bnd, hint, hn])]

end

/-- Settles O6: each row goes to a body word, to a byte of a STRING, or to a new object. -/
theorem objectInstructionsComplete : Obligations.ObjectInstructionsComplete := by
  unfold Obligations.ObjectInstructionsComplete
  intro s t t1 t2 u c f x i v w a hx hi he hint
  refine ⟨fun hidx ha => ⟨fun hat hld hd => ?vref, fun hat hrec hst => ?vset⟩, fun hstr hw => ⟨fun hat hd => ?sref, fun hat hv hvint hbyte hst => ?sset⟩,
    fun hat hp hu hn hres => ?makev, fun hat hsym hn hres => ?maker, fun hat ha hn hres => ?makes⟩
  case vref =>
    refine (vref_ends hat he hx hi hint hidx).retires ?_
    rw [Acs.fin_of ha, Acs.fin_of hld]
    exact deliver_ok hd
  case vset =>
    refine (vset_ends hat he hx hi hint hidx hrec).retires ?_
    rw [Acs.fin_of ha, Acs.fin_of hst]
  case sref =>
    refine (sref_ends hat he hx hi hint hstr).retires ?_
    rw [Acs.fin_of hw]
    exact deliverInt _ hd
  case sset =>
    refine (sset_ends hat he hx hi hint hstr hv hvint hbyte).retires ?_
    rw [Acs.fin_of hw, Acs.fin_of hst]
  case makev =>
    refine (makev_ends hat he hx hi hint ⟨hp, hu⟩ hn).retires ?_
    rw [newObject_eq, List.length_replicate]
    exact hres
  case maker =>
    refine (maker_ends hat he hx hi hint hsym hn).retires ?_
    rw [newObject_eq, List.length_cons, List.length_replicate]
    exact hres
  case makes =>
    refine (makes_ends hat he ha hi hint hn).retires ?_
    rw [newObject_eq, List.length_cons, List.length_replicate]
    exact hres

/-! ### Loads and stores (R218, R219, R221) -/

section
variable {s t t0 t1 t2 u : State} {c a kind : Nat} {g : IF} {ev : List MemEv} {x v w : TWord} {y : Xl}

/-- Events that neither stop the core nor trap leave an instruction that does not trap as it is. -/
theorem withEvents_done {va : State → Nat} {body : State → IRes} (hev : memEvents t c ev = (t0, none)) (hrun : (getCore t0 c).runs = true)
    (hresp : MemEv.noResp ∉ ev) (hb : body t0 = .done u) : withEvents t c ev va body = .done u := by
  unfold withEvents
  simp [hev, hrun, hb, hresp]

theorem wordAddr_ok (hbase : x.tag ∈ baseTags (lvlOf t c)) (hp : x.tag = tRAW ∨ ptrOk x.val = true) {imm : Int}
    (ha : (a : Int) = x.val.toNat + imm) (hlt : a < 2 ^ 48) (hal : alignChk t c a kind = .ok t a) : wordAddr t c x imm kind = .ok t a :=
  (Acs.bind_of (effAddr_ok hbase hp ha hlt)).trans hal

theorem definedOp_mem {op : Nat} (hop : 0x10 ≤ op ∧ op ≤ 0x13) : definedOp (encI op g) = true :=
  definedOp_encI op g (by omega) (by simp only [funcCount]; split_ifs <;> omega) (by omega)

variable (hbase : x.tag ∈ baseTags (lvlOf t0 c)) (hp : x.tag = tRAW ∨ ptrOk x.val = true) (ha : (a : Int) = x.val.toNat + simm g)
  (hlt : a < 2 ^ 48) (hx : reg t0 c g.ra.toNat = x)
include hbase hp ha hlt hx

section
variable {op : Nat} (hop : 0x10 ≤ op ∧ op ≤ 0x13) (himm : g.imm.toNat % 8 = 0) (hev : memEvents t c ev = (t0, none))
  (hrun : (getCore t0 c).runs = true) (hresp : MemEv.noResp ∉ ev) (hat : AtInsn s t c (encI op g))
include hop himm hev hrun hresp hat

/-- What LD and LDA do. -/
theorem loadInsn_done (hal : alignChk t0 c a kLOAD = .ok t0 a) (hld : loadSlot t0 c g.rd.toNat a 32 = .ok t1 w)
    (hd : destBad t1 c g.rd.toNat w = false) : loadInsn c op g ev s = .next (retired (putReg t1 c g.rd.toNat w) t c) := by
  refine runInsn_done hat (definedOp_mem hop) (withEvents_done hev hrun hresp ?_)
  dsimp only
  rw [chk_no (by simp [firstTrap, ill, uimm, himm]), hx, consume_one (base_consume hbase), Acs.fin_of (wordAddr_ok hbase hp ha hlt hal), Acs.fin_of hld]
  exact deliver_ok hd

/-- What ST and STR do. -/
theorem storeInsn_done (hal : alignChk t0 c a kSTORE = .ok t0 a) (hst : stWord t0 c a (reg t0 c g.rd.toNat) 32 = .ok u ()) :
    storeInsn c op g ev s = .next (retired u t c) := by
  refine runInsn_done hat (definedOp_mem hop) (withEvents_done hev hrun hresp ?_)
  dsimp only
  rw [chk_no (by simp [firstTrap, ill, uimm, himm]), hx, consume_one (base_consume hbase), Acs.fin_of (wordAddr_ok hbase hp ha hlt hal), Acs.fin_of hst]

end

section
variable (hlvl : lvlOf t0 c ≠ 0)
include hlvl

theorem ldb_retires (hat : AtInsn s t0 c (encI 0x15 g)) (hld : ldWord t0 c (a - a % 8) kLOAD 8 = .ok t1 (y, w)) (hw : w.tag = tRAW)
    (hd : destBad t1 c g.rd.toNat wNil = false) :
    Retires (.ldb c g) s t0 (putReg t1 c g.rd.toNat (wInt (getByte w.val (a % 8)))) c := by
  refine runInsn_done hat (definedOp_encI _ _ (by decide) (by decide) (by decide)) ?_
  have hpoison : ¬ w.tag = tPOISON := by
    rw [hw]
    decide
  dsimp only
  rw [chk_no (by simp [firstTrap, prv, hlvl]), hx, consume_one (base_consume hbase), Acs.fin_of (effAddr_ok hbase hp ha hlt), Acs.fin_of hld,
    if_neg hpoison, if_neg (not_not_intro hw)]
  exact deliverInt _ hd

theorem stb_retires (hat : AtInsn s t0 c (encI 0x16 g)) (hv : reg t0 c g.rd.toNat = v) (hvint : v.tag = tINT) (hbyte : v.val.toNat ≤ 255)
    (hxl : xlate t0 c (a - a % 8) kSTORE = .ok t1 y) (hrd : rdAt t1 c y 8 = .ok t2 w) (hw : w.tag = tRAW)
    (hwr : wrAt t2 c y ⟨tRAW, setByte w.val (a % 8) v.val.toNat⟩ 8 = .ok u ()) : Retires (.stb c g) s t0 u c := by
  refine runInsn_done hat (definedOp_encI _ _ (by decide) (by decide) (by decide)) ?_
  have hpoison : ¬ w.tag = tPOISON := by
    rw [hw]
    decide
  dsimp only
  rw [chk_no (by simp [firstTrap, prv, hlvl]), hx, hv, consume_two (base_consume hbase) (usable_of_tag hvint (by decide)),
    chk_no (by simp [firstTrap, tagIf, isByte, hvint, hbyte]), Acs.fin_of (effAddr_ok hbase hp ha hlt), Acs.fin_of hxl, Acs.fin_of hrd,
    if_neg hpoison, if_neg (not_not_intro hw), Acs.fin_of hwr]

end

end

/-- Settles O7. -/
theorem loadsAndStoresComplete : Obligations.LoadsAndStoresComplete := by
  unfold Obligations.LoadsAndStoresComplete
  intro s t t0 t1 t2 u c a g ev x v w y hbase hp ha hlt
  refine ⟨fun himm hev hrun hresp hx => ⟨fun hal hld hd => ⟨fun hat => ?_, fun hat => ?_⟩, fun hal hst => ⟨fun hat => ?_, fun hat => ?_⟩⟩,
    fun heq hlvl hx => ⟨fun hat hld hw hd => ?ldb, fun hat hv hvint hbyte hxl hrd hw hwr => ?stb⟩⟩
  · exact loadInsn_done hbase hp ha hlt hx (by decide) himm hev hrun hresp hat hal hld hd
  · exact loadInsn_done hbase hp ha hlt hx (by decide) himm hev hrun hresp hat hal hld hd
  · exact storeInsn_done hbase hp ha hlt hx (by decide) himm hev hrun hresp hat hal hst
  · exact storeInsn_done hbase hp ha hlt hx (by decide) himm hev hrun hresp hat hal hst
  case ldb =>
    subst heq
    exact ldb_retires hbase hp ha hlt hx hlvl hat hld hw hd
  case stb =>
    subst heq
    exact stb_retires hbase hp ha hlt hx hlvl hat hv hvint hbyte hxl hrd hw hwr

/-! ### SM and LM (R229 to R231) -/

theorem moved_none (total : Nat) : moved total none = total := rfl

theorem moved_some {n total : Nat} (h0 : 0 < n) (hlt : n < total) : moved total (some n) = n := if_pos ⟨h0, hlt⟩

theorem endSlots_some {s : State} {c n total : Nat} (h0 : 0 < n) (hlt : n < total) :
    endSlots s c total (some n) = .stay (setProg s c ((getCore s c).lmprog + n)) := if_pos ⟨h0, hlt⟩

section
variable {s t t1 u : State} {c a : Nat} {f : RF} {b m : TWord} {ps : List (Nat × Xl × TWord)} {stop : Option Nat}

/-- SM or LM after its probes. -/
theorem multi_probed {load : Bool} (hb : reg t c f.a = b) (hm : reg t c f.b = m) (hd : f.rd = 0) (he : f.rd2 = 0) (htag : m.tag = tINT)
    (hmask : m.val.toNat < 2 ^ 32) (huse : Usable b)
    (hsel : load = true → bit m.val.toNat f.a = false ∧ bit m.val.toNat f.b = false ∧ ¬ (lvlOf t c = 0 ∧ bit m.val.toNat 30 = true))
    (ha : wordAddr t c b 0 (if load then kLOAD else kSTORE) = .ok t a)
    (hps : Acs.each (fun s p => probe s c load p) (slotList m.val.toNat a (getCore t c).lmprog) t = .ok t1 ps) :
    multi t c f load stop =
      if load then endSlots (putRegs t1 c ((ps.take (moved ps.length stop)).map (fun p => (p.1, p.2.2)))) c ps.length stop
      else (wrAll t1 c ((ps.take (moved ps.length stop)).map (fun p => (p.2.1, p.2.2)))).fin fun s2 _ => endSlots s2 c ps.length stop := by
  have hform : (load && decide (m.val.toNat < 2 ^ 32) && ((m.tag == tINT && bit m.val.toNat f.a) || (m.tag == tINT && bit m.val.toNat f.b) ||
      (lvlOf t c == 0 && (m.tag == tINT && bit m.val.toNat 30)))) = false := by
    cases load with
    | false => simp
    | true =>
      obtain ⟨hsa, hsb, hs30⟩ := hsel rfl
      have h30 : (lvlOf t c == 0 && bit m.val.toNat 30) = false := by simpa using hs30
      simp [htag, hsa, hsb, h30]
  unfold multi
  dsimp only
  rw [hb, hm, hform, chk_no (by simp [firstTrap, ill, RF.d, RF.e, hd, he]), consume_two huse (usable_of_tag htag (by decide)),
    chk_no (by simp [firstTrap, tagIf, htag]; omega), Acs.fin_of ha, Acs.fin_of hps]

end

/-- Settles O8: the probes first, then the slots that are moved. -/
theorem multipleRegistersComplete : Obligations.MultipleRegistersComplete := by
  unfold Obligations.MultipleRegistersComplete
  intro s t t1 u c a f b m ps n hb hm hd he htag hmask hp hu
  refine ⟨fun hat ha hps => ⟨fun hwr => ?sm, fun h0 hlt hwr => ?smStopped⟩, fun hat hsa hsb h30 ha hps => ⟨?lm, fun h0 hlt v hv => ?lmStopped⟩⟩
  case sm =>
    refine runInsn_done hat (definedOp_encR _ _ _ (by decide) (by decide) (by decide)) ?_
    rw [multi_probed (load := false) hb hm hd he htag hmask ⟨hp, hu⟩ (fun h => absurd h Bool.false_ne_true) ha hps, if_neg Bool.false_ne_true, moved_none, List.take_length, Acs.fin_of hwr]
    rfl
  case smStopped =>
    refine runInsn_stay hat (definedOp_encR _ _ _ (by decide) (by decide) (by decide)) ?_
    rw [multi_probed (load := false) hb hm hd he htag hmask ⟨hp, hu⟩ (fun h => absurd h Bool.false_ne_true) ha hps, if_neg Bool.false_ne_true, moved_some h0 hlt, Acs.fin_of hwr, endSlots_some h0 hlt]
  case lm =>
    refine runInsn_done hat (definedOp_encR _ _ _ (by decide) (by decide) (by decide)) ?_
    rw [multi_probed (load := true) hb hm hd he htag hmask ⟨hp, hu⟩ (fun _ => ⟨hsa, hsb, h30⟩) ha hps, if_pos (rfl : true = true), moved_none, List.take_length]
    rfl
  case lmStopped =>
    subst hv
    refine runInsn_stay hat (definedOp_encR _ _ _ (by decide) (by decide) (by decide)) ?_
    rw [multi_probed (load := true) hb hm hd he htag hmask ⟨hp, hu⟩ (fun _ => ⟨hsa, hsb, h30⟩) ha hps, if_pos (rfl : true = true), moved_some h0 hlt, endSlots_some h0 hlt]

/-! ### Save areas (R232 to R235) -/

section
variable {s t t1 t2 : State} {c half : Nat} {f : RF} {w w0 w1 : TWord} {xs : List Xl} {ws : List TWord}

theorem saveHalf_done (hlvl : lvlOf t c ≠ 0) (hd : f.rd = 0) (hb : f.rb = 0) (he : f.rd2 = 0) (hw : reg t c f.a = w)
    (htag : w.tag = tRAW ∨ w.tag = tSTACKPTR) (hxs : areaXl t c w.val kSTORE = .ok t1 xs)
    (hwr : wrAll t1 c ((xs.zipIdx).filterMap (fun p =>
        (if p.2 = 0 then some ⟨tSAVELINK, (getCore t1 c).ctxhead.val⟩
         else if p.2 = 1 then some (tw tRAW (bits (getCore t1 c).status (8 + 2 * half) 2 + 256 * half))
         else if bit (bits (getCore t1 c).status (8 + 2 * half) 2) ((p.2 - 2) / 8) then (getCore t1 c).regs[half * 16 + p.2 - 2]?
         else none).map (fun v => (p.1, v)))) = .ok t2 ()) :
    saveHalf t c f half = .done (updCore t2 c (fun k => { k with ctxhead := ⟨tRAW, w.val⟩ })) := by
  have huse : Usable w := by rcases htag with h | h <;> exact usable_of_tag h (by decide)
  have htag' : (w.tag != tRAW && w.tag != tSTACKPTR) = false := by rcases htag with h | h <;> simp [h]
  unfold saveHalf
  dsimp only
  rw [hw, htag', chk_no (by simp [firstTrap, ill, prv, RF.d, RF.b, RF.e, hd, hb, he, hlvl]), consume_one huse, chk_no rfl, Acs.fin_of hxs,
    Acs.fin_of hwr]

theorem loadHalf_done (hlvl : lvlOf t c ≠ 0) (hd : f.rd = 0) (ha : f.ra = 0) (hb : f.rb = 0) (he : f.rd2 = 0)
    (hxs : areaXl t c (getCore t c).ctxhead.val kLOAD = .ok t1 xs) (hws : Acs.each (fun s x => rdAt s c x 64) xs t1 = .ok t2 ws)
    (h0 : ws[0]? = some w0) (h1 : ws[1]? = some w1) (hlink : w0.tag = tSAVELINK) (hraw : w1.tag = tRAW) (hhalf : bits w1.val.toNat 8 1 = half) :
    loadHalf t c f half = .done (updCore t2 c (fun k =>
      { k with
        regs := k.regs.mapIdx (fun n r => if n / 16 = half ∧ bit (bits w1.val.toNat 0 2) (n % 16 / 8) = true then (ws[2 + n % 16]?).getD r else r)
        status := setBits k.status (8 + 2 * half) 2 0
        ctxhead := ⟨tRAW, w0.val⟩ })) := by
  unfold loadHalf
  rw [chk_no (by simp [firstTrap, ill, prv, RF.d, RF.a, RF.b, RF.e, hd, ha, hb, he, hlvl]), Acs.fin_of hxs, Acs.fin_of hws]
  dsimp only
  rw [h0, h1]
  exact if_pos ⟨hlink, hraw, hhalf⟩

end

/-- Settles O9: SAVEL and SAVEH are `saveHalf` of their half, LOADL and LOADH `loadHalf`. -/
theorem saveAreasComplete : Obligations.SaveAreasComplete := by
  unfold Obligations.SaveAreasComplete
  rintro s t t1 t2 c half f w w0 w1 xs ws i j hhalf hlvl hd hb he rfl rfl
  have hcases : half = 0 ∨ half = 1 := by omega
  refine ⟨fun hat hw htag hxs hwr => ?save, fun hat ha hxs hws h0 h1 hlink hraw hh => ?load⟩
  case save =>
    have hdone := saveHalf_done hlvl hd hb he hw htag hxs hwr
    rcases hcases with rfl | rfl
    · exact runInsn_done hat (definedOp_encR _ _ _ (by decide) (by decide) (by decide)) hdone
    · exact runInsn_done hat (definedOp_encR _ _ _ (by decide) (by decide) (by decide)) hdone
  case load =>
    have hdone := loadHalf_done hlvl hd ha hb he hxs hws h0 h1 hlink hraw hh
    rcases hcases with rfl | rfl
    · exact runInsn_done hat (definedOp_encR _ _ _ (by decide) (by decide) (by decide)) hdone
    · exact runInsn_done hat (definedOp_encR _ _ _ (by decide) (by decide) (by decide)) hdone

/-! ### Control registers (R236, R242, R244, R255) -/

/-- The numbers of Table 8.11. -/
abbrev crListed (n : Nat) : Prop := n ≤ 4 ∨ (8 ≤ n ∧ n ≤ 0x17) ∨ (0x100 ≤ n ∧ n ≤ 0x104)

theorem crKnown_iff {n : Nat} : crKnown n = true ↔ crListed n := by simp [crKnown, crListed, or_assoc]

section
variable {s t : State} {c n : Nat} {g : IF} {k : Core} {write : Bool}

theorem crNumber_of_lt (hn : g.imm.toNat = n) (hlt : n < 0x1000) : bits (uimm g) 0 12 = n := by
  rw [uimm, hn]
  simpa [bits] using hlt

theorem lt_of_crListed (h : crListed n) : n < 0x1000 := by
  unfold crListed at h
  omega

theorem crChecks_unlisted (hn : g.imm.toNat = n) (h : ¬ crListed n) :
    firstTrap (crChecks t c g write) = some (accFault aILLEGAL) := by
  have hill : g.ra ≠ 0 ∨ uimm g ≥ 0x1000 ∨ crKnown (bits (uimm g) 0 12) = false := by
    by_cases hlt : n < 0x1000
    · rw [crNumber_of_lt hn hlt]
      exact .inr (.inr (by rwa [← Bool.not_eq_true, crKnown_iff]))
    · rw [uimm, hn]
      exact .inr (.inl (by omega))
  simp only [crChecks, firstTrap, ill, decide_eq_true hill, if_true]

theorem crChecks_listed (ha : g.ra = 0) (hn : g.imm.toNat = n) (h : crListed n) (hk : getCore t c = k) :
    firstTrap (crChecks t c g write) =
      if k.level = 0 ∨ (k.level = 1 ∧ crM n = true) ∨ (write = true ∧ crRo n = true) then some (accFault aPRIV_INSN) else none := by
  have hlt := lt_of_crListed h
  have hnum := crNumber_of_lt hn hlt
  have hill : ¬ (g.ra ≠ 0 ∨ uimm g ≥ 0x1000 ∨ crKnown n = false) := by
    rw [crKnown_iff.mpr h, uimm, hn]
    simp [ha]
    omega
  have hlvl : lvlOf t c = k.level := by rw [← hk]; rfl
  unfold crChecks
  dsimp only
  rw [hnum, hlvl]
  simp only [firstTrap, ill, hill, prv]
  simp [or_assoc]

theorem crM_iff : crM n = true ↔ 0x100 ≤ n := by simp [crM]

theorem crRo_iff : crRo n = true ↔ n = 3 ∨ n = 0x17 ∨ n = 0x102 := by simp [crRo, or_assoc]

theorem chk_trap {s : State} {l : List (Bool × Trap)} {r : IRes} {x : Trap} (h : firstTrap l = some x) : chk s l r = .trap s x := by
  simp [chk, h]

/-- The level of the core admits the register. -/
theorem crChecks_none (ha : g.ra = 0) (hn : g.imm.toNat = n) (h : crListed n) (hk : getCore t c = k) (hl : 1 ≤ k.level)
    (hM : k.level = 1 → n < 0x100) (hro : write = true → crRo n = false) : firstTrap (crChecks t c g write) = none := by
  rw [crChecks_listed ha hn h hk, if_neg]
  rintro (h0 | ⟨h1, hm⟩ | ⟨hw, hr⟩)
  · omega
  · rw [crM_iff] at hm
    have := hM h1
    omega
  · simp [hro hw] at hr

theorem crChecks_priv (ha : g.ra = 0) (hn : g.imm.toNat = n) (h : crListed n) (hk : getCore t c = k)
    (hp : k.level = 0 ∨ (k.level = 1 ∧ 0x100 ≤ n) ∨ (write = true ∧ crRo n = true)) :
    firstTrap (crChecks t c g write) = some (accFault aPRIV_INSN) := by
  rw [crChecks_listed ha hn h hk, if_pos]
  rwa [crM_iff]

theorem mfcr_ends (hat : AtInsn s t c (encI 0x31 g)) :
    Ends (.mfcr c g) s t c (chk t (crChecks t c g false) (deliver t c g.rd.toNat (crRead t c (bits (uimm g) 0 12)))) :=
  runInsn_end hat (definedOp_encI _ _ (by decide) (by decide) (by decide))

theorem mfcr_delivers {w : TWord} (hat : AtInsn s t c (encI 0x31 g)) (ha : g.ra = 0) (hn : g.imm.toNat = n) (hk : getCore t c = k)
    (h : crListed n) (hl : 1 ≤ k.level) (hM : k.level = 1 → n < 0x100) (hw : crRead t c n = w) : Delivers (.mfcr c g) s t c g.rd.toNat w := by
  refine (mfcr_ends hat).delivers ?_
  rw [chk_no (crChecks_none ha hn h hk hl hM (fun h => absurd h Bool.false_ne_true)), crNumber_of_lt hn (lt_of_crListed h), hw]

end

/-- Settles O13: the register number first, then the level, then the register's own equation. -/
theorem controlRegisterReads : Obligations.ControlRegisterReads := by
  unfold Obligations.ControlRegisterReads
  intro s t c n g k hat ha hn hk
  refine ⟨fun hl hM w hw => ?delivers, fun h hp => ?priv, fun h => ?ill⟩
  case delivers =>
    subst hk
    rcases hw with ⟨rfl, rfl⟩ | ⟨rfl, rfl⟩ | ⟨rfl, rfl⟩ | ⟨rfl, rfl⟩ | ⟨rfl, rfl⟩ | ⟨rfl, rfl⟩ | ⟨rfl, rfl⟩ | ⟨rfl, rfl⟩ | ⟨rfl, rfl⟩ |
      ⟨i, hi, rfl, rfl⟩ | ⟨rfl, rfl⟩ | ⟨rfl, rfl⟩ | ⟨rfl, rfl⟩ | ⟨rfl, rfl⟩ | ⟨rfl, rfl⟩ | ⟨rfl, rfl⟩ | ⟨rfl, rfl⟩ | ⟨rfl, rfl⟩ | ⟨rfl, rfl⟩
    case inr.inr.inr.inr.inr.inr.inr.inr.inr.inl =>
      refine mfcr_delivers hat ha hn rfl (by unfold crListed; omega) hl hM ?_
      interval_cases i <;> rfl
    case inr.inr.inr.inr.inr.inr.inr.inr.inr.inr.inr.inr.inl =>
      refine mfcr_delivers hat ha hn rfl (by unfold crListed; omega) hl hM ?_
      cases hd : (getCore t c).dropped <;> simp [crRead, hd, b2n]
    all_goals exact mfcr_delivers hat ha hn rfl (by unfold crListed; omega) hl hM rfl
  case priv =>
    exact (mfcr_ends hat).traps (chk_trap (crChecks_priv ha hn h hk (hp.imp_right .inl)))
  case ill =>
    exact (mfcr_ends hat).traps (chk_trap (crChecks_unlisted hn h))

section
variable {s t u : State} {c n : Nat} {g : IF} {k : Core} {w : TWord}

theorem mtcr_ends (hat : AtInsn s t c (encI 0x32 g)) :
    Ends (.mtcr c g) s t c
      (chk t (crChecks t c g true) (consume t [reg t c g.rd.toNat] (crWrite t c (bits (uimm g) 0 12) (reg t c g.rd.toNat)))) :=
  runInsn_end hat (definedOp_encI _ _ (by decide) (by decide) (by decide))

/-- MTCR of a register that its level may write. -/
theorem mtcr_retires (hat : AtInsn s t c (encI 0x32 g)) (ha : g.ra = 0) (hn : g.imm.toNat = n) (hk : getCore t c = k)
    (hw : reg t c g.rd.toNat = w) (hl : 1 ≤ k.level) (hM : k.level = 1 → n < 0x100) (huse : Usable w) (h : crListed n) (hro : crRo n = false)
    (hwr : crWrite t c n w = .done u) : Retires (.mtcr c g) s t u c := by
  refine (mtcr_ends hat).retires ?_
  rw [chk_no (crChecks_none ha hn h hk hl hM fun _ => hro), crNumber_of_lt hn (lt_of_crListed h), hw, consume_one huse, hwr]

theorem unguard_self {k : Core} : unguard k k.level = { k with status := setBits k.status 7 1 0, egCount := 0 } := if_pos rfl

/-- The registers that take a whole word. -/
theorem crWrite_word {k2 : Core} (hk : getCore t c = k)
    (h : (n = 0x001 ∧ k2 = { k with epc := w }) ∨ (n = 0x008 ∧ k2 = { k with alimit := w }) ∨ (n = 0x009 ∧ k2 = { k with idctr := w }) ∨
      (n = 0x00A ∧ k2 = { k with ctxhead := w }) ∨ (n = 0x00B ∧ k2 = { k with cardbase := w }) ∨
      (∃ i, i < 8 ∧ n = 0x00C + i ∧ k2 = { k with condemn := upd k.condemn i (fun _ => w) }) ∨ (n = 0x014 ∧ k2 = { k with ssp := w }) ∨
      (n = 0x015 ∧ k2 = { k with uicnt := w }) ∨ (n = 0x100 ∧ k2 = { k with mepc := w }) ∨
      (n = 0x004 ∧ k2 = (if k.level = 1 then { k with sstack := w, status := setBits k.status 7 1 0, egCount := 0 } else { k with sstack := w })) ∨
      (n = 0x103 ∧ k.level = 2 ∧ k2 = { k with mstack := w, status := setBits k.status 7 1 0, egCount := 0 }) ∨
      (n = 0x104 ∧ (w.tag = tNIL ∨ (w.tag = tCTXREF ∧ windowOk t c w = true)) ∧ k2 = { k with ctxwin := w })) :
    crListed n ∧ crRo n = false ∧ crWrite t c n w = .done (setCore t c k2) := by
  subst hk
  rcases h with ⟨rfl, rfl⟩ | ⟨rfl, rfl⟩ | ⟨rfl, rfl⟩ | ⟨rfl, rfl⟩ | ⟨rfl, rfl⟩ | ⟨i, hi, rfl, rfl⟩ | ⟨rfl, rfl⟩ | ⟨rfl, rfl⟩ | ⟨rfl, rfl⟩ | ⟨rfl, rfl⟩ |
    ⟨rfl, hl, rfl⟩ | ⟨rfl, hw, rfl⟩
  case inr.inr.inr.inr.inr.inl =>
    refine ⟨by unfold crListed; omega, ?_, ?_⟩
    all_goals
      interval_cases i <;> rfl
  case inr.inr.inr.inr.inr.inr.inr.inr.inr.inr.inl =>
    refine ⟨by unfold crListed; omega, rfl, ?_⟩
    exact congrArg (fun k => IRes.done (setCore t c k)) (if_pos hl)
  case inr.inr.inr.inr.inr.inr.inr.inr.inr.inr.inr =>
    refine ⟨by unfold crListed; omega, rfl, chk_no ?_⟩
    rcases hw with hw | ⟨hw, hok⟩
    · simp [firstTrap, tagIf, hw, tNIL, tCTXREF]
    · simp [firstTrap, tagIf, hw, hok]
  all_goals exact ⟨by unfold crListed; omega, rfl, rfl⟩

theorem rawOrInt_of (h : w.tag = tRAW ∨ w.tag = tINT) : rawOrInt w = true := by rcases h with h | h <;> simp [rawOrInt, h]

theorem chk_rawOrInt {r : IRes} (h : w.tag = tRAW ∨ w.tag = tINT) : chk t [tagIf (!rawOrInt w) rTYPE] r = r :=
  chk_no (by simp [firstTrap, tagIf, rawOrInt_of h])

end

/-- Settles O14: the checks as for MFCR, then the register's own equation. -/
theorem controlRegisterWrites : Obligations.ControlRegisterWrites := by
  unfold Obligations.ControlRegisterWrites
  intro s t c n g k w hat ha hn hk hw
  refine ⟨fun hl hM hp hu => ⟨fun k2 hk2 => ?word, fun htag => ?fields⟩, fun h hp => ?priv⟩
  case word =>
    obtain ⟨hlist, hro, hwr⟩ := crWrite_word hk hk2
    exact mtcr_retires hat ha hn hk hw hl hM ⟨hp, hu⟩ hlist hro hwr
  case fields =>
    have hret {n' : Nat} {u : State} (hn' : n = n') := mtcr_retires (u := u) hat ha (hn.trans hn') hk hw hl (fun h => hn' ▸ hM h) ⟨hp, hu⟩
    subst hk
    refine ⟨fun h => hret h (by decide) rfl (chk_rawOrInt htag), fun h => hret h (by decide) rfl (chk_rawOrInt htag),
      fun h => hret h (by decide) rfl (chk_rawOrInt htag), fun h hipi => hret h (by decide) rfl (chk_no ?_)⟩
    have hok : (bit w.val.toNat 8 && !bit w.val.toNat 9 && lvlOf t c != 2) = false := by
      rw [← Bool.not_eq_true]
      simpa [and_assoc, lvlOf] using hipi
    simp only [firstTrap, tagIf, rawOrInt_of htag, prv, hok]
    rfl
  case priv =>
    have hro : k.level = 0 ∨ (k.level = 1 ∧ 0x100 ≤ n) ∨ (true = true ∧ crRo n = true) := by
      rw [crRo_iff]
      simpa using hp
    exact (mtcr_ends hat).traps (chk_trap (crChecks_priv ha hn h hk hro))

end Sys2Proof.Machine
end

section
/-! PROOFS. Interrupts, events of cores, pairs and clusters, and the coprocessors (R251, R253, R259, R307, R331 to R350, R424, R427, R445,
R539, R598 to R601; O18 to O23): what the row of an event answers under its condition, how a pure operation ends, what becomes of what
an effectful operation's unit issues, and the branches of TAKE and APPEND. -/
namespace Sys2Proof.Machine

open Sys2Proof

-- Each proof is checked before the next begins, so that no more than one is held in memory.
set_option Elab.async false

theorem ins_ins {α : Type} (m : Map α) (i : Nat) (a b : α) : ins (ins m i a) i b = ins m i b := by
  induction m with
  | nil => simp [ins]
  | cons p m ih =>
    obtain ⟨k, v⟩ := p
    rcases lt_trichotomy i k with h | h | h
    · simp [ins, h]
    · simp [ins, h]
    · simp [ins, Nat.lt_asymm h, Nat.ne_of_gt h, ih]

theorem setCore_setCore (s : State) (c : Nat) (a b : Core) : setCore (setCore s c a) c b = setCore s c b := by
  simp [setCore, ins_ins]

/-! ### Interrupts (R251, R253) -/

section
variable {s : State} {c cause : Nat} {k : Core}

theorem rivals_nil (h : ∀ x ∈ [cDISPATCH, cIPI_S, cIPI_M], pending s c x = true → takeable k x = true → before x cause = false) :
    ([cDISPATCH, cIPI_S, cIPI_M].filter (fun x => pending s c x && takeable k x && before x cause)).isEmpty = true := by
  rw [List.isEmpty_iff, List.filter_eq_nil_iff]
  intro x hx hr
  rw [Bool.and_eq_true, Bool.and_eq_true] at hr
  obtain ⟨⟨hp, ht⟩, hb⟩ := hr
  simp [h x hx hp ht] at hb

theorem not_takeable_of_eg (h : k.eg = true) : takeable k cause = false := by simp [takeable, h]

theorem not_takeable_of_mask {l : Nat} (h : causeLevel cause = some l) (hl : l ≤ k.mask) : takeable k cause = false := by
  simp [takeable, h, Nat.not_lt.mpr hl]

theorem interruptTake_none (h : pending s c cause = false ∨ takeable (getCore s c) cause = false) : exec (.interruptTake c cause) s = .next s := by
  refine if_neg ?_
  rcases h with h | h <;> simp [h]

theorem interruptTake_taken (hk : getCore s c = k) (hable : coreAble s c = true) (hp : pending s c cause = true) (ht : takeable k cause = true)
    (hr : ∀ x ∈ [cDISPATCH, cIPI_S, cIPI_M], pending s c x = true → takeable k x = true → before x cause = false) :
    exec (.interruptTake c cause) s =
      if stackOk k (causeTarget cause k.level) then
        .next (setCore s c (enterCore { k with pend := k.pend.filter (· ≠ cause) } (causeTarget cause k.level) cause k.pc 0))
      else .next (restartPartner s (escalate (setCore s c { k with pend := k.pend.filter (· ≠ cause) }) c cause 0 (causeTarget cause k.level) 2 k.pc 0) c) := by
  subst hk
  have hrun : (coreAble s c && pending s c cause && takeable (getCore s c) cause &&
      ([cDISPATCH, cIPI_S, cIPI_M].filter (fun x => pending s c x && takeable (getCore s c) x && before x cause)).isEmpty) = true := by
    rw [hable, hp, ht, rivals_nil hr]
    rfl
  refine (if_pos hrun).trans ?_
  unfold updCore
  rw [getCore_setCore_self, setCore_setCore]

end

/-- Settles O18: an interrupt is taken where it may be and nothing else may be first, and the row does nothing elsewhere. -/
theorem interruptTaken : Obligations.InterruptTaken := by
  unfold Obligations.InterruptTaken
  rintro s c cause T k hk hable rfl
  refine ⟨fun hp ht hr => ⟨fun hst => ?_, fun hst => ?_⟩, fun hno => interruptTake_none ?_⟩
  · rw [interruptTake_taken hk hable hp ht hr, if_pos hst]
  · rw [interruptTake_taken hk hable hp ht hr, hst, if_neg Bool.false_ne_true]
  · subst hk
    rcases hno with hp | heg | ⟨l, hl, hmask⟩
    · exact .inl hp
    · exact .inr (not_takeable_of_eg heg)
    · exact .inr (not_takeable_of_mask hl hmask)

/-! ### Events of cores and pairs (R259, R320, R336, R348, R350, R598, R600) -/

/-- What the largest of a list of numbers, and a start, is at most. -/
theorem foldl_max_le {α : Type} {g : α → Nat} {n : Nat} (l : List α) : ∀ {m : Nat}, m ≤ n → (∀ x ∈ l, g x ≤ n) → l.foldl (fun a x => max a (g x)) m ≤ n := by
  induction l with
  | nil => exact fun h _ => h
  | cons x l ih => exact fun h hl => ih (max_le h (hl x (by simp))) fun y hy => hl y (by simp [hy])

theorem lastGone_le {s : State} {t n : Nat} (h : ∀ q ∈ tenantPairs s t, (getPairInfo s q).removals.head?.getD 0 ≤ n) :
    (tenantPairs s t).foldl (fun a k => match (getPairInfo s k).removals with | t :: _ => max a t | [] => a) 0 ≤ n := by
  have hmax : (fun (a k : Nat) => match (getPairInfo s k).removals with | t :: _ => max a t | [] => a) =
      fun a k => max a ((getPairInfo s k).removals.head?.getD 0) := by
    funext a k
    cases (getPairInfo s k).removals <;> simp
  rw [hmax]
  exact foldl_max_le _ (Nat.zero_le n) h

section
variable {s : State} {c t : Nat}

theorem coreWatchdogExpire_stops (hable : coreAble s c = true) (h : s.tim.ticks - (getCore s c).lastRet ≥ 131072 * s.tim.cclkEff) :
    exec (.coreWatchdogExpire c) s = .next (restartPartner s (stopCore s c 0 0) c) :=
  if_pos (by simpa [hable, State.since] using h)

theorem uwaitTimeout_eq {uaddr : Nat} {redir : Bool} (hable : coreAble s c = true) :
    exec (.uwaitTimeout c uaddr redir) s =
      .next (trapCore (if fget (bumpSat s bUCD 0x40 0 32 1) bUCD 0x48 24 1 = 1 then bumpSat s bUCD 0x40 0 32 1
        else rawSet (bumpSat s bUCD 0x40 0 32 1) bUCD 0x48 (uaddr % 2 ^ 15 + 2 ^ 15 * b2n redir + 2 ^ 16 * c + 2 ^ 24)) c (mCheck 1)) :=
  if_pos hable

theorem pairWaitTimeout_faults {pr : Present} (hable : coreAble s c = true) (hpr : (getCore s c).present = some pr)
    (hb : ∀ b, (getCore s c).bind = some b → b.paired = true) (hpart : (getCore s (partner c)).present = none)
    (h : s.tim.ticks - pr.since ≥ ticksOfUs (fget s (bCLU + c / 8) 0x110 0 8)) :
    exec (.pairWaitTimeout c) s = .next (pairFault s c 2 (match (getCore s c).bind with | some b => b.pos | none => 0) pr.unit pr.op) := by
  show execPairWaitTimeout c s = _
  unfold execPairWaitTimeout
  dsimp only
  rw [hpr]
  refine if_pos ?_
  have hlate : decide (s.since pr.since ≥ ticksOfUs (fget s (bCLU + c / 8) 0x110 0 8)) = true := decide_eq_true h
  rw [hable, hpart, hlate]
  cases hbind : (getCore s c).bind with
  | none => rfl
  | some b => simp [hb b hbind]

theorem appendWaitTimeout_traps {pr : Present} (hable : coreAble s c = true) (hpr : (getCore s c).present = some pr) (hunit : pr.unit = 3)
    (hop : pr.op = 2) (h : s.tim.ticks - pr.since ≥ ticksOfUs (fget s (bCLU + c / 8) 0x110 16 8)) :
    exec (.appendWaitTimeout c) s = .next (trapCore s c (mCheck 6)) := by
  show execAppendWaitTimeout c s = _
  unfold execAppendWaitTimeout
  rw [hpr]
  dsimp only
  rw [hable, hunit, hop, if_pos (by simpa [State.since] using h)]

theorem pairUnavailableTimeout_single {w : List Input}
    (hw : w = s.awp.inputs.filter (fun x => x.tenant == t && (x.rerun || (lkD s.awp.runq t []).contains x.seq)))
    (hset : ∃ cl, cl < 12 ∧ pairSet s cl t = true) (hold : ∃ x ∈ w, x.tai + 1000000 ≤ s.now)
    (huse : ∀ q ∈ tenantPairs s t, pairUsable s q = false)
    (hgone : ∀ q ∈ tenantPairs s t, (getPairInfo s q).removals.head?.getD 0 + ticksOfMs 1 ≤ s.tim.ticks) (hms : ticksOfMs 1 ≤ s.tim.ticks)
    (hhold : s.inMode .hold = false) :
    exec (.pairUnavailableTimeout t) s = .next { setCauseTenant s t cPAIR s.now 0 with
      awp.inputs := (setCauseTenant s t cPAIR s.now 0).awp.inputs.map (fun x => if x ∈ w then { x with single := true } else x) } := by
  subst hw
  have hlast := lastGone_le (n := s.tim.ticks - ticksOfMs 1) fun q hq => Nat.le_sub_of_add_le (hgone q hq)
  refine if_pos ?_
  rw [Bool.and_eq_true, Bool.and_eq_true, Bool.and_eq_true, Bool.and_eq_true]
  refine ⟨⟨⟨⟨?_, ?_⟩, ?_⟩, ?_⟩, by simp [hhold]⟩
  · simpa using hset
  · rw [List.any_eq_true]
    obtain ⟨x, hx, hage⟩ := hold
    exact ⟨x, hx, decide_eq_true hage⟩
  · rw [List.all_eq_true]
    exact fun q hq => by simp [huse q hq]
  · refine decide_eq_true (Nat.le_sub_of_add_le ?_)
    rw [Nat.add_comm]
    exact Nat.add_le_of_le_sub hms hlast

end

section
variable {s : State} {c p : Nat} {pass : Bool}

/-- Removals or stops within 24 h of now. -/
def within24h (s : State) (l : List Nat) : Nat := (l.filter (fun x => decide (s.tim.ticks - x ≤ ticksOfS 86400))).length

theorem coreSelftestComplete_eq (hc : c < 0x60) (hrun : (getCore s c).runs = false) (htest : (getCore s c).tested = false)
    (hstop : ∃ x ∈ (getCore s c).stops, s.tim.ticks - x ≥ ticksOfUs 64) :
    exec (.coreSelftestComplete c pass) s =
      let back := pass && !decide (within24h s (getCore s c).stops ≥ 3)
      .next (eventD (if back then setService (setCore s c
          { coreReset with stops := (getCore s c).stops, srCount := (getCore s c).srCount, lastRet := s.tim.ticks }) c true
        else updCore s c (fun k => { k with tested := true })) 9 kOTHER 0x0C82 [c, b2n back] 0) :=
  if_pos ⟨hc, hrun, htest, by simpa [State.since] using hstop⟩

theorem pairTestComplete_eq (hp : p < 48) (hs : pairInService s p = false) (hf : (getPairInfo s p).failed = false) :
    exec (.pairTestComplete p pass) s =
      if pass && !decide (within24h s (getPairInfo s p).removals ≥ 3) then
        .next (eventD { setPairService s p true with cpu.pairs := ins s.cpu.pairs p { getPairInfo s p with window := [] } } 9 kOTHER 0x0C85 [p, 3] 0)
      else .next { s with cpu.pairs := ins s.cpu.pairs p { getPairInfo s p with failed := true } } :=
  if_pos ⟨hp, hs, hf⟩

theorem passes_of {n : Nat} (hpass : pass = true) (hn : n < 3) : (pass && !decide (n ≥ 3)) = true := by simp [hpass, hn]

theorem fails_of {n : Nat} (h : pass = false ∨ 3 ≤ n) : (pass && !decide (n ≥ 3)) = false := by
  rcases h with h | h <;> simp [h]

end

/-- Settles O19: one equation per event under its condition. -/
theorem coreEventsComplete : Obligations.CoreEventsComplete := by
  unfold Obligations.CoreEventsComplete
  rintro s c uaddr t p redir pass k pr i rfl
  refine ⟨coreWatchdogExpire_stops, fun hable h0 => ?_, fun hable h1 => ?_, pairWaitTimeout_faults, appendWaitTimeout_traps,
    fun w => pairUnavailableTimeout_single, fun hc hrun htest hstop => ⟨fun hpass hn => ?_, fun h => ?_⟩, fun hp hs hi hf => ?_⟩
  · rw [uwaitTimeout_eq hable, if_neg (by omega)]
  · rw [uwaitTimeout_eq hable, if_pos h1]
  · rw [coreSelftestComplete_eq hc hrun htest hstop]
    dsimp only
    rw [passes_of (n := within24h s (getCore s c).stops) hpass hn]
    rfl
  · rw [coreSelftestComplete_eq hc hrun htest hstop]
    dsimp only
    rw [fails_of (n := within24h s (getCore s c).stops) h]
    rfl
  · subst hi
    rw [pairTestComplete_eq hp hs hf]
    refine ⟨fun hpass hn => if_pos (passes_of hpass hn), fun h => if_neg ?_⟩
    rw [fails_of (n := within24h s (getPairInfo s p).removals) h]
    exact Bool.false_ne_true

/-! ### Events of clusters (R307, R308, R341, R601) -/

/-- Settles O23: each event is one branch of its row. -/
theorem clusterEventsComplete : Obligations.ClusterEventsComplete := by
  unfold Obligations.ClusterEventsComplete
  intro s s3 cl kind c a dev busy corr
  refine ⟨fun hcl h => if_pos ⟨hcl, h⟩, fun h => if_neg ?_, fun hcl hkind hs3 => ?fails, fun hcl hbit hs3 => ?restores, fun hbit => if_neg (fun h => hbit h.2),
    rfl, rfl, rfl⟩
  · rintro ⟨hcl, hdue⟩
    rw [State.since] at hdue
    omega
  case fails =>
    subst hs3
    have hrow : exec (.entropyTestFail cl kind busy) s = _ := if_pos ⟨hcl, hkind⟩
    refine ⟨fun hb => ?_, fun hb hc hable => ?_⟩
    · subst hb
      exact hrow
    · subst hb
      exact hrow.trans (if_pos ⟨hc, hable⟩)
  case restores =>
    subst hs3
    have hrow : exec (.entropyRestore cl) s = _ := if_pos ⟨hcl, hbit⟩
    exact ⟨fun h => hrow.trans (if_pos h), fun h => hrow.trans (if_neg h)⟩

/-! ### Pure coprocessor operations (R331, R340) -/

section
variable {s t s1 s2 s3 s4 : State} {c a n unit op : Nat} {f : CF} {i : Instr} {checks : State → List (Bool × Trap)} {run : State → Acs PureRes}
  {w : TWord} {out : Option (Nat × List Byte)} {m key sig : List Byte} {v : List TWord}

/-- A pure operation whose checks pass and whose operands can be read. -/
theorem pureCop_ends (hi : exec i s = pureCop c f unit op .completes checks run s) (hunit : unit < 4) (hop : op < 512)
    (hlist : (copOps unit).contains op = true) (hat : AtInsn s t c (encC f unit op)) (hchk : firstTrap (checks t) = none)
    (hrun : run t = .ok s1 ⟨w, out⟩) : PureEnds i s t s1 c f unit w out := by
  intro s2 hd hout
  refine hi.trans (runInsn_done hat (definedOp_encC f unit op hunit hop hlist) ?_)
  rw [chk_no hchk, Acs.fin_of hrun]
  dsimp only
  rw [if_neg (by decide), if_neg (by simp [hd])]
  cases out with
  | none =>
    subst hout
    rfl
  | some o =>
    dsimp only at hout ⊢
    rw [hout]

theorem pureCop_unitError (hi : exec i s = pureCop c f unit op .unitError checks run s) (hunit : unit < 4) (hop : op < 512)
    (hlist : (copOps unit).contains op = true) (hat : AtInsn s t c (encC f unit op)) (hchk : firstTrap (checks t) = none)
    (hrun : run t = .ok s1 ⟨w, out⟩) : Traps i s (copCount (copCount s1 (c / 8) unit 0) (c / 8) unit 12) c (mCheck 6) := by
  refine hi.trans (runInsn_trap hat (definedOp_encC f unit op hunit hop hlist) ?_)
  rw [chk_no hchk, Acs.fin_of hrun]
  exact if_pos rfl

theorem pureCop_cancelled (hable : coreAble s c = true) :
    pureCop c f unit op .cancelled checks run s = .next (copCount (copCount s (c / 8) unit 0) (c / 8) unit 8) := by
  rw [pureCop, if_pos hable]

theorem hashRun_ok {h : List Byte → Digest} (hm : strBytes t c (reg t c f.ra.toNat) = .ok s1 m)
    (ho : outStr s1 c (reg s1 c f.rb.toNat) 32 = .ok s2 (a, n)) : hashRun c f h t = .ok s2 ⟨wInt 32, some (a, digBytes (h m))⟩ := by
  rw [hashRun, Acs.bind_of hm, Acs.bind_of ho]

theorem verifyRun_ok {curve kl sl : Nat} {ml : Option Nat} (hv : vecElems t c (reg t c f.ra.toNat) 3 = .ok s1 v)
    (hkey : strOf s1 c (elemAt v 0) kl = .ok s2 key)
    (hmsg : (match ml with | some n => strOf s2 c (elemAt v 1) n | none => strBytes s2 c (elemAt v 1)) = .ok s3 m)
    (hsig : strOf s3 c (elemAt v 2) sl = .ok s4 sig) : verifyRun c f curve kl ml sl t = .ok s4 ⟨wBool (Config.sigVerify curve key m sig), none⟩ := by
  rw [verifyRun, Acs.bind_of hv, Acs.bind_of hkey]
  exact (Acs.bind_of hmsg).trans (Acs.bind_of hsig)

end

theorem rbZero_none {f : CF} {t : State} (hb : f.rb = 0) : firstTrap (rbZero f t) = none := by simp [rbZero, firstTrap, ill, hb]

/-- Settles O20: the eight rows and CHAINED are `pureCop` of their operands. -/
theorem cryptoComplete : Obligations.CryptoComplete := by
  unfold Obligations.CryptoComplete
  intro s t s1 s2 s3 s4 c a n f m key msg sig v k g
  refine ⟨fun hm ho => ⟨fun hat => ?_, fun hat => ?_⟩, fun hat hv hk hm ho => ?hmac, fun hat hg ho => ?gcmseal, fun hat hg hlen ho => ⟨fun p hp => ?opened, fun hp => ?notOpened⟩,
    fun hb hv => ⟨fun hat hkey hmsg hsig => ?_, fun hat hkey hmsg hsig => ?_, fun hat hkey hmsg hsig => ?_⟩, fun ha hb hl hat => ?chained,
    fun hat hm ho => ?unitError, fun hable i hi => ?cancelled⟩
  · exact pureCop_ends rfl (by decide) (by decide) (by decide) hat rfl (hashRun_ok hm ho)
  · exact pureCop_ends rfl (by decide) (by decide) (by decide) hat rfl (hashRun_ok hm ho)
  case hmac =>
    refine pureCop_ends rfl (by decide) (by decide) (by decide) hat rfl ?_
    rw [Acs.bind_of hv, Acs.bind_of hk, Acs.bind_of hm, Acs.bind_of ho]
  case gcmseal =>
    refine pureCop_ends rfl (by decide) (by decide) (by decide) hat rfl ?_
    rw [Acs.bind_of hg]
    exact Acs.bind_of ho
  case opened =>
    refine pureCop_ends rfl (by decide) (by decide) (by decide) hat rfl ?_
    rw [Acs.bind_of hg]
    refine (if_neg (Nat.not_lt.mpr hlen)).trans ((Acs.bind_of ho).trans ?_)
    rw [hp]
  case notOpened =>
    refine pureCop_ends rfl (by decide) (by decide) (by decide) hat rfl ?_
    rw [Acs.bind_of hg]
    refine (if_neg (Nat.not_lt.mpr hlen)).trans ((Acs.bind_of ho).trans ?_)
    rw [hp]
  · exact pureCop_ends rfl (by decide) (by decide) (by decide) hat (rbZero_none hb) (verifyRun_ok hv hkey hmsg hsig)
  · exact pureCop_ends rfl (by decide) (by decide) (by decide) hat (rbZero_none hb) (verifyRun_ok hv hkey hmsg hsig)
  · exact pureCop_ends rfl (by decide) (by decide) (by decide) hat (rbZero_none hb) (verifyRun_ok hv hkey hmsg hsig)
  case chained =>
    exact pureCop_ends rfl (by decide) (by decide) (by decide) hat (by simp [firstTrap, ill, prv, ha, hb, hl]) rfl
  case unitError => exact pureCop_unitError rfl (by decide) (by decide) (by decide) hat rfl (hashRun_ok hm ho)
  case cancelled =>
    simp only [List.mem_cons, List.not_mem_nil, or_false] at hi
    rcases hi with rfl | rfl | rfl | rfl | rfl | rfl | rfl | rfl
    · exact (pureCop_cancelled hable : execSha256 c f .cancelled s = _)
    · exact (pureCop_cancelled hable : execSha3 c f .cancelled s = _)
    · exact (pureCop_cancelled hable : execHmac c f .cancelled s = _)
    · exact (pureCop_cancelled hable : execGcmseal c f .cancelled s = _)
    · exact (pureCop_cancelled hable : execGcmopen c f .cancelled s = _)
    · exact (pureCop_cancelled hable : execP256v c f .cancelled s = _)
    · exact (pureCop_cancelled hable : execP384v c f .cancelled s = _)
    · exact (pureCop_cancelled hable : execEd25519v c f .cancelled s = _)

/-! ### Effectful coprocessor operations (R331, R334, R339, R341 to R344) -/

section
variable {t s1 : State} {c n : Nat} {f : CF} {o : EffOp} {issue : State → Issued} {res : List TWord}

/-- A grant without output goes to the registers. -/
theorem give_none (s : State) (g : Grant) : give s c f none g = .done (given (updCore s c (fun k => { k with granted := some g })) c f g) := rfl

theorem shareOut_single (s : State) (g : Grant) (hout : o.out = none) : shareOut s c f false o g = .done (given (granting s c g) c f g) := by
  rw [shareOut, hout]
  exact give_none _ g

variable (hd : destsOk t c f n = true) (hg : (getCore t c).granted = none)
include hd hg

theorem effCop_granted_none : effCop c f n o issue t =
    if (getCore t c).level = 2 then
      match issue t with
      | .got s1 res out => give s1 c f o.out ⟨o.unit, o.op, res, out, none⟩
      | .error s1 => .trap s1 (mCheck 6)
      | .halt s1 => .stay s1
      | .held s1 _ => .stay s1
    else match (getCore t c).bind with
      | none => .trap t (accFault aPRIV_INSN)
      | some b =>
        if b.pos ≥ 1023 then .trap t (accFault aBOUNDS)
        else if b.paired then comparator t c b.pos o (fun s1 => resolveEff s1 c f b o issue)
        else resolveEff t c f b o issue := by
  unfold effCop
  dsimp only
  rw [hd, if_neg (by decide), hg] <;> rfl

theorem effCop_at_M (hl : (getCore t c).level = 2) (hout : o.out = none) (hiss : issue t = .got s1 res []) :
    effCop c f n o issue t =
      .done (given (updCore s1 c (fun k => { k with granted := some ⟨o.unit, o.op, res, [], none⟩ })) c f ⟨o.unit, o.op, res, [], none⟩) := by
  rw [effCop_granted_none hd hg, if_pos hl, hiss, hout]
  exact give_none ..

theorem effCop_unbound (hl : (getCore t c).level ≠ 2) (hb : (getCore t c).bind = none) :
    effCop c f n o issue t = .trap t (accFault aPRIV_INSN) := by
  rw [effCop_granted_none hd hg, if_neg hl, hb]

variable {b : Bind} (hl : (getCore t c).level ≠ 2) (hb : (getCore t c).bind = some b) (hpos : b.pos < 1023)
include hl hb hpos

theorem effCop_single (hsingle : b.paired = false) : effCop c f n o issue t = resolveEff t c f b o issue := by
  rw [effCop_granted_none hd hg, if_neg hl, hb]
  dsimp only
  rw [if_neg (Nat.not_le.mpr hpos), hsingle, if_neg Bool.false_ne_true]

theorem effCop_waits (hpaired : b.paired = true) (hpr : (getCore t c).present = none) (hpart : (getCore t (partner c)).present = none)
    (hne : partner c ≠ c) : effCop c f n o issue t =
      .stay (updCore t c (fun k => { k with present := some ⟨o.unit, o.op, o.ra, o.rb, opDigest o.data, strictDigest (getCore t c), t.tim.ticks, false⟩ })) := by
  rw [effCop_granted_none hd hg, if_neg hl, hb]
  dsimp only
  rw [if_neg (Nat.not_le.mpr hpos), hpaired, if_pos rfl, comparator]
  dsimp only
  rw [hpr, getCore_updCore_of_ne _ _ hne, hpart]

end

section
variable {t s1 : State} {c : Nat} {f : CF} {b : Bind} {o : EffOp} {issue : State → Issued} {res : List TWord} {inp : Input}
  (hin : boundInput t b = some inp) (hsingle : b.paired = false) (hout : o.out = none)
include hin

section
variable (hlog : inp.log[b.pos]? = none) (hrep : b.replay = false) (hrec : inp.recorded = none)
include hlog hrep hrec

theorem resolveEff_new : resolveEff t c f b o issue = issueLogged t c f b o issue := by
  rw [resolveEff, hin]
  dsimp only
  rw [hlog, hrep, hrec]
  rfl

include hsingle hout

theorem resolveEff_logs (hiss : issue t = .got s1 res []) : resolveEff t c f b o issue =
    .done (given (granting (nextPos (updBound s1 b (fun j => { j with log := j.log ++ [⟨o.unit, o.op, opDigest o.data, res⟩] })) c) c
      ⟨o.unit, o.op, res, [], none⟩) c f ⟨o.unit, o.op, res, [], none⟩) := by
  rw [resolveEff_new hin hlog hrep hrec, issueLogged, hiss, hsingle]
  exact shareOut_single _ _ hout

end

section
variable {e : Effect} (hlog : inp.log[b.pos]? = some e)
include hlog

theorem resolveEff_mismatch (hne : ¬ (e.unit = o.unit ∧ e.op = o.op ∧ e.dig = opDigest o.data)) :
    resolveEff t c f b o issue = .stay (if b.replay then divergeAt t c 2 b.pos none else pairFault t c 3 b.pos o.unit o.op) := by
  rw [resolveEff, hin]
  dsimp only
  rw [hlog]
  dsimp only
  rw [if_neg hne, logMismatch]
  split <;> rfl

include hsingle hout

theorem resolveEff_agrees (heq : e.unit = o.unit ∧ e.op = o.op ∧ e.dig = opDigest o.data) : resolveEff t c f b o issue =
    .done (given (granting (nextPos (if b.replay then bumpWrap t bRPL 0x68 0 32 1 else t) c) c ⟨o.unit, o.op, e.res, [], none⟩) c f
      ⟨o.unit, o.op, e.res, [], none⟩) := by
  rw [resolveEff, hin]
  dsimp only
  rw [hlog]
  dsimp only
  rw [if_pos heq, hsingle]
  exact shareOut_single _ _ hout

end

end

section
variable {s t : State} {c : Nat} {f : CF} {w : TWord}

/-- An effectful row under its conditions: its end is that of `effCop`, and its unit completes it with these words. -/
def IssuesAs (i : Instr) (s t : State) (c : Nat) (f : CF) (n : Nat) (o : EffOp) (s1 : State) (res : List TWord) : Prop :=
  o.out = none ∧ ∃ issue, Ends i s t c (effCop c f n o issue t) ∧ issue t = .got s1 res []

/-- The unit's ISSUED and COMPLETED count one more. -/
def counted (t : State) (c unit : Nat) : State := copCount (copCount t (c / 8) unit 0) (c / 8) unit 4

theorem unitIssue_completes {unit : Nat} {run : State → State × List TWord} :
    unitIssue c unit .completes run t = .got (run (counted t c unit)).1 (run (counted t c unit)).2 [] := rfl

theorem entropyEnd_healthy (h : fget t bHLT 0x2C (c / 8) 1 ≠ 1) (e : CopEnd) : entropyEnd t c e = e := if_neg h

theorem draw_issues (hat : AtInsn s t c (encC f 1 1)) (ha : f.ra = 0) (hb : f.rb = 0) (hl : lvlOf t c ≠ 2) (hok : fget t bHLT 0x2C (c / 8) 1 ≠ 1) :
    IssuesAs (.draw c f .completes) s t c f 1 ⟨1, 1, wZero, wZero, [], none, 0⟩ (drawOf (counted t c 1) (c / 8)).2
      [⟨tINT, (drawOf (counted t c 1) (c / 8)).1⟩] := by
  have hrow : exec (.draw c f .completes) s = _ := runInsn_end hat (definedOp_encC f 1 1 (by decide) (by decide) (by decide))
  rw [chk_no (by simp [firstTrap, ill, prv, ha, hb, hl]), entropyEnd_healthy hok] at hrow
  exact ⟨rfl, _, hrow, unitIssue_completes⟩

theorem drawn_issues (hat : AtInsn s t c (encC f 1 2)) (hw : reg t c f.ra.toNat = w) (hb : f.rb = 0) (hl : lvlOf t c ≠ 2)
    (hok : fget t bHLT 0x2C (c / 8) 1 ≠ 1) (htag : w.tag = tINT) (hpos : 1 ≤ w.val.toInt) :
    IssuesAs (.drawn c f .completes) s t c f 1 ⟨1, 2, w, wZero, twBytes w, none, 0⟩ (drawOf (counted t c 1) (c / 8)).2
      [wInt ((drawOf (counted t c 1) (c / 8)).1.toNat % w.val.toNat)] := by
  have hrow : exec (.drawn c f .completes) s = _ := runInsn_end hat (definedOp_encC f 1 2 (by decide) (by decide) (by decide))
  dsimp only at hrow
  rw [hw, chk_no (by simp [firstTrap, ill, prv, hb, hl]), consume_one (usable_of_tag htag (by decide)),
    chk_no (by simp [firstTrap, tagIf, bnd, htag, hpos]), entropyEnd_healthy hok] at hrow
  exact ⟨rfl, _, hrow, unitIssue_completes⟩

theorem reseed_issues (hat : AtInsn s t c (encC f 1 0x10)) (ha : f.ra = 0) (hb : f.rb = 0) (hl : lvlOf t c = 2) :
    IssuesAs (.reseed c f .completes) s t c f 1 ⟨1, 0x10, wZero, wZero, [], none, 0⟩ (reseed (counted t c 1) (c / 8))
      [wInt (rawGet (reseed (counted t c 1) (c / 8)) (bCLU + c / 8) 0x204)] := by
  have hrow : exec (.reseed c f .completes) s = _ := runInsn_end hat (definedOp_encC f 1 0x10 (by decide) (by decide) (by decide))
  rw [chk_no (by simp [firstTrap, ill, prv, ha, hb, hl])] at hrow
  exact ⟨rfl, _, hrow, unitIssue_completes⟩

theorem tread_issues (hat : AtInsn s t c (encC f 2 1)) (ha : f.ra = 0) (hb : f.rb = 0) (hd : f.rd.toNat ≠ 31) :
    IssuesAs (.tread c f .completes) s t c f 2 ⟨2, 1, wZero, wZero, [], none, 0⟩ (counted t c 2)
      [tw tTIME (counted t c 2).now, wInt (counted t c 2).tim.u] := by
  have hrow : exec (.tread c f .completes) s = _ := runInsn_end hat (definedOp_encC f 2 1 (by decide) (by decide) (by decide))
  rw [chk_no (by simp [firstTrap, ill, ha, hb, hd])] at hrow
  exact ⟨rfl, _, hrow, unitIssue_completes⟩

theorem ctrinc_issues {key : Nat} (hat : AtInsn s t c (encC f 3 3)) (hw : reg t c f.ra.toNat = w) (hb : f.rb = 0) (hl : lvlOf t c = 1)
    (htag : w.tag = tINT) (hlt : w.val.toNat ≤ 15) (hkey : key = coreTenant (getCore t c) * 16 + w.val.toNat)
    (hroom : lkD t.jrn.counters key 0 + 1 < 2 ^ 63) :
    IssuesAs (.ctrinc c f .completes) s t c f 1 ⟨3, 3, w, wZero, twBytes w, none, 0⟩
      { counted t c 3 with jrn.counters := ins (counted t c 3).jrn.counters key (lkD t.jrn.counters key 0 + 1) }
      [wInt (lkD t.jrn.counters key 0 + 1 : Nat)] := by
  subst hkey
  have hrow : exec (.ctrinc c f .completes) s = _ := runInsn_end hat (definedOp_encC f 3 3 (by decide) (by decide) (by decide))
  dsimp only at hrow
  rw [hw, chk_no (by simp [firstTrap, ill, prv, hb, hl]), consume_one (usable_of_tag htag (by decide)),
    chk_no (by simp [firstTrap, tagIf, bnd, htag, hlt])] at hrow
  exact ⟨rfl, _, hrow, (if_neg (Nat.not_le.mpr hroom)).trans unitIssue_completes⟩

end

/-- Settles O21: the five rows issue the same way (`IssuesAs`), and `effCop` says what becomes of what is issued. -/
theorem effectfulComplete : Obligations.EffectfulComplete := by
  unfold Obligations.EffectfulComplete
  rintro s t s1 c cl n key f w i o res x cnt k rfl rfl hw rfl rfl hkey hrows hd hg
  have hissue : IssuesAs i s t c f n o s1 res := by
    rcases hrows with ⟨rfl, hat, ha, hb, hl, hok, rfl, rfl, rfl, rfl⟩ | ⟨rfl, hat, hb, hl, hok, htag, hpos, rfl, rfl, rfl, rfl⟩ |
      ⟨rfl, hat, ha, hb, hl, rfl, rfl, rfl, rfl⟩ | ⟨rfl, hat, ha, hb, hrd, rfl, rfl, rfl, rfl⟩ |
      ⟨rfl, hat, hb, hl, htag, hlt, hroom, rfl, rfl, rfl, rfl⟩
    · exact draw_issues hat ha hb hl hok
    · exact drawn_issues hat hw hb hl hok htag hpos
    · exact reseed_issues hat ha hb hl
    · exact tread_issues hat ha hb hrd
    · exact ctrinc_issues hat hw hb hl htag hlt hkey hroom
  obtain ⟨hout, issue, hend, hiss⟩ := hissue
  refine ⟨fun hl => hend.retires (effCop_at_M hd hg hl hout hiss), fun hl hb => hend.traps (effCop_unbound hd hg hl hb),
    fun b inp hl hb hpos hsingle hin => ⟨fun hlog hrep hrec => ?logs, fun e hlog => ⟨fun heq hrep => ?rerun, fun heq hrep => ?replay, fun hne => ?mismatch⟩⟩,
    fun b hl hb hpos hpaired hpr hpart hne => hend.stays (effCop_waits hd hg hl hb hpos hpaired hpr hpart hne)⟩
  case logs => exact hend.retires ((effCop_single hd hg hl hb hpos hsingle).trans (resolveEff_logs hin hsingle hout hlog hrep hrec hiss))
  case rerun =>
    have hagree := resolveEff_agrees (c := c) (f := f) (issue := issue) hin hsingle hout hlog heq
    rw [hrep, if_neg Bool.false_ne_true] at hagree
    exact hend.retires ((effCop_single hd hg hl hb hpos hsingle).trans hagree)
  case replay =>
    have hagree := resolveEff_agrees (c := c) (f := f) (issue := issue) hin hsingle hout hlog heq
    rw [hrep, if_pos rfl] at hagree
    exact hend.retires ((effCop_single hd hg hl hb hpos hsingle).trans hagree)
  case mismatch => exact hend.stays ((effCop_single hd hg hl hb hpos hsingle).trans (resolveEff_mismatch hin hlog hne))

/-! ### TAKE (R335, R424, R445) -/

section
variable {s t s0 s1 s2 s4 : State} {c a n tn : Nat} {f : CF} {bad : List Nat} {o : EffOp} {g : Grant} {pick : Option Input} {i : Input}

/-- A grant whose output is written goes to the registers. -/
theorem give_some (h : writeOut (updCore s c (fun k => { k with granted := some g })) c a g.out = .ok s4 ()) :
    give s c f (some a) g = .done (given s4 c f g) := Acs.fin_of h

theorem writeOut_nil : writeOut s c a [] = .ok s () := rfl

theorem shareOut_out (ho : o.out = some a) (h : writeOut (granting s c g) c a g.out = .ok s4 ()) :
    shareOut s c f false o g = .done (given s4 c f g) := by
  rw [shareOut, ho]
  exact give_some h

/-- What TAKE does once its encoding, its level and its output STRING have passed: `i` is the input that it takes. -/
def takeBody (f : CF) (c a : Nat) (o : EffOp) (t : Nat) (s1 : State) (pick i : Option Input) (granted : Option Grant) (issue : Bool → State → IRes) : IRes :=
  if destsOk s1 c f 1 = false then .trap s1 (tagTrap rTYPE)
  else match granted with
    | some g => if g.unit = 3 ∧ g.op = 1 then give s1 c f (some a) g else .stay s1
    | none =>
      (match i with | some i => outWords s1 c a (80 + i.payload.length) | none => .ok s1 []).fin fun s2 _ =>
        if takePaired s2 c t pick then comparator s2 c 0 o (issue true) else issue false s2

/-- TAKE's unit, on one core or two. -/
def takeIssue (f : CF) (c t : Nat) (o : EffOp) (e : CopEnd) (i : Option Input) (paired : Bool) (s : State) : IRes :=
  let s2 := copCount s (c / 8) 3 0
  if e = .unitError then .trap (copCount s2 (c / 8) 3 12) (mCheck 6)
  else
    let s3 := copCount s2 (c / 8) 3 4
    match i with
    | none => shareOut s3 c f paired o ⟨3, 1, [wNil], [], none⟩
    | some i =>
      let r := bindTake s3 t paired i
      shareOut r.1 c f paired o ⟨3, 1, [wInt i.seq], inputBytes i, some r.2⟩

theorem take_ends {e : CopEnd} {k : Core} (hat : AtInsn s t c (encC f 3 1)) (hk : getCore t c = k) (hl : k.level = 1) (ha : f.ra = 0)
    (hfree : (k.bind.isSome && k.granted.isNone) = false) (ho : outStr t c (reg t c f.rb.toNat) 1480 = .ok s0 (a, n))
    (hs1 : s1 = if k.granted.isNone then voidBad s0 bad (takeList s0 c (coreTenant k)) else s0) (hpick : pick = (takeList s1 c (coreTenant k)).head?)
    (hop : o = ⟨3, 1, wZero, reg s1 c f.rb.toNat, be 8 n, some a, 0⟩) :
    Ends (.take c f e bad) s t c (takeBody f c a o (coreTenant k) s1 pick (if takeOpen s1 c (coreTenant k) pick then pick else none) k.granted
      (takeIssue f c (coreTenant k) o e (if takeOpen s1 c (coreTenant k) pick then pick else none))) := by
  subst hk hs1 hpick hop
  refine (runInsn_end hat (definedOp_encC f 3 1 (by decide) (by decide) (by decide))).trans ?_
  dsimp only
  rw [chk_no (by simp [firstTrap, ill, prv, ha, hl, hfree]), Acs.fin_of ho]
  rfl

theorem takeBody_nil {k : Option Grant} (hk : k = none) (hd : destsOk s1 c f 1 = true) (hsingle : takePaired s1 c tn pick = false) (ho : o.out = some a) :
    takeBody f c a o tn s1 pick none k (takeIssue f c tn o .completes none) =
      .done (given (granting (copCount (copCount s1 (c / 8) 3 0) (c / 8) 3 4) c ⟨3, 1, [wNil], [], none⟩) c f ⟨3, 1, [wNil], [], none⟩) := by
  subst hk
  rw [takeBody, hd, if_neg (by decide)]
  dsimp only [Acs.fin]
  rw [hsingle, if_neg Bool.false_ne_true, takeIssue, if_neg (by decide)]
  exact shareOut_out ho writeOut_nil

theorem takeBody_some {k : Option Grant} {ws : List (Nat × TWord)} {r : State × Bind} (hk : k = none) (hd : destsOk s1 c f 1 = true)
    (hout : outWords s1 c a (80 + i.payload.length) = .ok s2 ws) (hsingle : takePaired s2 c tn pick = false) (ho : o.out = some a)
    (hr : r = bindTake (copCount (copCount s2 (c / 8) 3 0) (c / 8) 3 4) tn false i) (hg : g = ⟨3, 1, [wInt i.seq], inputBytes i, some r.2⟩)
    (hwr : writeOut (granting r.1 c g) c a g.out = .ok s4 ()) :
    takeBody f c a o tn s1 pick (some i) k (takeIssue f c tn o .completes (some i)) = .done (given s4 c f g) := by
  subst hk hr hg
  rw [takeBody, hd, if_neg (by decide)]
  rw [Acs.fin_of hout, hsingle, if_neg Bool.false_ne_true, takeIssue, if_neg (by decide)]
  exact shareOut_out ho hwr

theorem takeBody_granted {i : Option Input} {k : Option Grant} {issue : Bool → State → IRes} (hk : k = some g) (hd : destsOk s1 c f 1 = true)
    (hu : g.unit = 3) (hop : g.op = 1) (hwr : writeOut (updCore s1 c (fun k => { k with granted := some g })) c a g.out = .ok s4 ()) :
    takeBody f c a o tn s1 pick i k issue = .done (given s4 c f g) := by
  subst hk
  rw [takeBody, hd, if_neg (by decide)]
  exact (if_pos ⟨hu, hop⟩).trans (give_some hwr)

end

/-! ### APPEND (R335, R336, R345, R539) -/

section
variable {s t s0 s1 s2 s4 : State} {c a n : Nat} {f : CF} {o : EffOp} {g : Grant} {inp logged : Input} {b : Bind} {d : Descr} {ws : List (Nat × TWord)} {e : CopEnd}

theorem append_ends {k : Core} (hat : AtInsn s t c (encC f 3 2)) (hk : getCore t c = k) (hl : k.level = 1) (hg : k.granted = none) (hb : k.bind = some b)
    (hsingle : b.paired = false) (hdescr : descrOf t c (reg t c f.ra.toNat) = .ok s0 d) (hout : outStr s0 c (reg s0 c f.rb.toNat) 32 = .ok s1 (a, n))
    (hd : destsOk s1 c f 1 = true) (hws : outWords s1 c a 32 = .ok s2 ws)
    (ho : o = ⟨3, 2, reg s1 c f.ra.toNat, reg s1 c f.rb.toNat, descrData d n, some a, 32⟩) :
    Ends (.append c f e) s t c (resolveAppend s2 c f b d o e) := by
  subst hk ho
  refine (runInsn_end hat (definedOp_encC f 3 2 (by decide) (by decide) (by decide))).trans ?_
  dsimp only
  rw [hg, hb, chk_no (by simp [firstTrap, prv, hl]), Acs.fin_of hdescr, Acs.fin_of hout]
  dsimp only
  rw [hd, if_neg (by decide), Acs.fin_of hws, hsingle, if_neg Bool.false_ne_true]

theorem resolveAppend_issues (hin : boundInput s2 b = some inp)
    (hlog : (inp.log[b.pos]? = none ∧ b.replay = false ∧ inp.recorded = none) ∨
      (∃ x, inp.log[b.pos]? = some x ∧ x.unit = 3 ∧ x.op = 2 ∧ x.dig = opDigest o.data)) :
    resolveAppend s2 c f b d o e = issueAppend s2 c f b inp d o e := by
  rw [resolveAppend, hin]
  dsimp only
  rcases hlog with ⟨hnone, hrep, hrec⟩ | ⟨x, hx, hu, hop, hdig⟩
  · rw [hnone, hrep, hrec]
    rfl
  · rw [hx]
    exact if_pos ⟨hu, hop, hdig⟩

/-- An APPEND that nothing holds back. -/
theorem append_ready (hready : b.replay = true ∨ ((strm s2 b.tenant).chained = b.seq ∧ pfbRoom s2 (grainOf inp d) logged = true)) :
    ¬ (b.replay = false ∧ (strm s2 b.tenant).chained ≠ b.seq) ∧ ¬ (b.replay = false ∧ pfbRoom s2 (grainOf inp d) logged = false) := by
  rcases hready with h | ⟨hch, hroom⟩
  · simp [h]
  · simp [hch, hroom]

theorem issueAppend_early (hrep : b.replay = false) (hch : (strm s2 b.tenant).chained ≠ b.seq) :
    issueAppend s2 c f b inp d o e = .stay (holdAppend s2 c b o false) := if_pos ⟨hrep, hch⟩

variable (hlogged : logged = { inp with log := inp.log.take b.pos ++ [⟨3, 2, opDigest o.data, [wInt b.seq]⟩] })
include hlogged

theorem issueAppend_noRoom (hrep : b.replay = false) (hch : (strm s2 b.tenant).chained = b.seq) (hroom : pfbRoom s2 (grainOf inp d) logged = false) :
    issueAppend s2 c f b inp d o e = .stay (holdAppend s2 c b o true) := by
  subst hlogged
  exact (if_neg (fun h => h.2 hch)).trans (if_pos ⟨hrep, hroom⟩)

variable (hready : b.replay = true ∨ ((strm s2 b.tenant).chained = b.seq ∧ pfbRoom s2 (grainOf inp d) logged = true))
include hready

theorem issueAppend_unitError :
    issueAppend s2 c f b inp d o .unitError = .stay (enterHold (copCount (copCount s2 (c / 8) 3 0) (c / 8) 3 12) hAPPEND_UNIT 0 0) := by
  subst hlogged
  obtain ⟨hearly, hroom⟩ := append_ready hready
  exact (if_neg hearly).trans ((if_neg hroom).trans (if_pos rfl))

theorem issueAppend_chains {s3 : State} {ra : State × Digest} (hsingle : b.paired = false) (ho : o.out = some a)
    (hs3 : s3 = copCount (updBound (copCount s2 (c / 8) 3 0) b (fun _ => { logged with bound := true })) (c / 8) 3 4)
    (hra : ra = if b.replay then appendReplay s3 b (grainOf inp d) else appendStream s3 b logged (grainOf inp d))
    (hg : g = ⟨3, 2, [wInt b.seq], digBytes ra.2, none⟩) (hwr : writeOut (granting (endBinding ra.1 (evalCores s2 c)) c g) c a g.out = .ok s4 ()) :
    issueAppend s2 c f b inp d o .completes = .done (given s4 c f g) := by
  subst hlogged hs3 hra hg
  obtain ⟨hearly, hroom⟩ := append_ready hready
  refine (if_neg hearly).trans ((if_neg hroom).trans ((if_neg (by decide)).trans ?_))
  dsimp only
  rw [hsingle, if_neg Bool.false_ne_true]
  exact shareOut_out ho hwr

end

/-- Settles O22. -/
theorem takeAndAppendComplete : Obligations.TakeAndAppendComplete := by
  unfold Obligations.TakeAndAppendComplete
  rintro s t s0 s1 s2 s3 s4 u c a n tn f bad k g pick i inp r ra ws b d o logged hk hl rfl
  refine ⟨fun hat ha ho => ⟨fun hg hb hs1 hpick hd => ⟨fun hsingle hno hgnil => ?takeNil, fun hi hopen hout hsingle hr hgr hwr => ?takeInput⟩,
    fun hg hu hop hd hwr => ?takeGranted⟩,
    fun hat hg hb hsingle hdescr hout hd hws hin ho hlog hlogged => ⟨fun hrep hch => ?early, fun hrep hch hroom => ?noRoom, fun hready => ⟨fun hs3 hra hgr hu hwr => ?chains, ?unitError⟩⟩⟩
  case takeNil =>
    have hend := take_ends (e := .completes) (bad := bad) hat hk hl ha (by simp [hb]) ho (s1 := s1) (by rw [hg]; exact hs1) hpick rfl
    have hnone : (if takeOpen s1 c (coreTenant k) pick then pick else none) = none := by
      rcases hno with h | h
      · simp [h]
      · simp [h]
    rw [hnone] at hend
    subst hgnil
    exact hend.retires (takeBody_nil hg hd hsingle rfl)
  case takeInput =>
    have hend := take_ends (e := .completes) (bad := bad) hat hk hl ha (by simp [hb]) ho (s1 := s1) (by rw [hg]; exact hs1) hpick rfl
    rw [hopen, if_pos rfl] at hend
    rw [hi] at hend hsingle
    exact hend.retires (takeBody_some hg hd hout hsingle rfl hr hgr hwr)
  case takeGranted =>
    have hend := take_ends (e := .completes) (bad := bad) hat hk hl ha (by simp [hg]) ho (s1 := s0) (by rw [hg]; rfl) rfl rfl
    exact hend.retires (takeBody_granted hg hd hu hop hwr)
  all_goals have hend {e : CopEnd} := (append_ends (e := e) hat hk hl hg hb hsingle hdescr hout hd hws ho)
  case early => exact hend.stays ((resolveAppend_issues hin hlog).trans (issueAppend_early hrep hch))
  case noRoom => exact hend.stays ((resolveAppend_issues hin hlog).trans (issueAppend_noRoom hlogged hrep hch hroom))
  case chains =>
    subst hu
    exact hend.retires ((resolveAppend_issues hin hlog).trans (issueAppend_chains hlogged hready hsingle (by rw [ho]) hs3 hra hgr hwr))
  case unitError => exact hend.stays ((resolveAppend_issues hin hlog).trans (issueAppend_unitError hlogged hready))

end Sys2Proof.Machine
end

section
/-! PROOFS. The mirror link's frames and timers; rows, seals and the flash's care; samples of the power unit and of the vault. -/
namespace Sys2Proof.Machine

open Sys2Proof

-- Each proof is checked before the next begins, so that no more than one is held in memory.
set_option Elab.async false

/-- Rows that reach the same state have the same outcome. -/
theorem next_congr {x y : State} (h : x = y) : (.next x : Host.Outcome State Fault Refusal) = .next y := congrArg _ h

/-! ### Frames of the mirror link (R403 to R413) -/

/-- The sixteenth frame since the last ACK is acknowledged at once. -/
def ackSixteenth (x : State) : State := if x.mir.rxSince ≥ 16 then sendAck x else x

section
variable {s : State} {q : Nat} {ok : Bool} {f : State → State}

theorem mirTake_idle (h : s.mir.link ≠ 2 ∨ linkAllowed s = false) : mirTake s q ok f = s := if_pos h

section
variable (hl : s.mir.link = 2) (ha : linkAllowed s = true)
include hl ha

theorem mirTake_up : mirTake s q ok f =
    if ok = false then sendNack (bumpWrap s bMIR 0x88 0 32 1)
    else if q > s.mir.rxNext then sendNack s
    else if q < s.mir.rxNext then s
    else ackSixteenth (f { s with mir.rxNext := s.mir.rxNext + 1, mir.rxSince := s.mir.rxSince + 1 }) :=
  if_neg (by simp [hl, ha])

theorem mirTake_badTag : mirTake s q false f = sendNack (bumpWrap s bMIR 0x88 0 32 1) :=
  (mirTake_up hl ha).trans (if_pos rfl)

theorem mirTake_ahead (h : q > s.mir.rxNext) : mirTake s q true f = sendNack s := by
  rw [mirTake_up hl ha, if_neg (by decide), if_pos h]

theorem mirTake_behind (h : q < s.mir.rxNext) : mirTake s q true f = s := by
  rw [mirTake_up hl ha, if_neg (by decide), if_neg (Nat.lt_asymm h), if_pos h]

theorem mirTake_next (h : q = s.mir.rxNext) :
    mirTake s q true f = ackSixteenth (f { s with mir.rxNext := s.mir.rxNext + 1, mir.rxSince := s.mir.rxSince + 1 }) := by
  rw [mirTake_up hl ha, if_neg (by decide), if_neg (by omega), if_neg (by omega)]

end

/-- Every frame but HELLO goes through the link's order of frames. -/
theorem frame_mirTake {t n k a lim : Nat} {body : List Byte} {dg mine theirs : Digest} {ds : List Digest} {pos : List Nat} {i : Instr}
    (h : i ∈ [.record q t ok body, .grain q t ok body, .anchor q t k dg ok, .digest q t n ds ok, .ack q a lim ok, .nack q n ok, .position q pos ok, .diverge q t n mine theirs ok]) :
    ∃ f, exec i s = .next (mirTake s q ok f) := by
  simp only [List.mem_cons, List.not_mem_nil, or_false] at h
  rcases h with rfl | rfl | rfl | rfl | rfl | rfl | rfl | rfl <;> exact ⟨_, rfl⟩

/-- HELLO meets a link that is ready and not yet UP. -/
theorem hello_ready {role : Nat} {dg : Digest} (hr : linkReady s = true) (ha : linkAllowed s = true) (hl : s.mir.link ≠ 2) :
    exec (.hello role dg ok) s = .next (
      if helloReason (linkFollow s) role dg ok ≠ 0 then eventD (bumpSat (linkFollow s) bMIR 0x90 16 16 1) 9 9 0x0B82 [helloReason (linkFollow s) role dg ok] 0
      else if s.role = .shadow then mirSend (linkTo (linkClear (linkFollow s)) 2) mPOSITION 0 (positionBody (linkTo (linkClear (linkFollow s)) 2))
      else linkTo (linkClear (linkFollow s)) 2) := by
  show execHello role dg ok s = _
  unfold execHello
  rw [if_neg (by simp [hr, ha, hl])]
  exact (apply_ite _ _ _ _).symm

end

/-- Settles O25: each frame is discarded, answered with NACK, or taken with the effect of its kind. -/
theorem mirrorFramesComplete : Obligations.MirrorFramesComplete := by
  unfold Obligations.MirrorFramesComplete
  intro s s0 s1 s2 q t n k a lim role ok body dg mine theirs ds pos st done i inp h
  refine ⟨?hello, fun h => if_pos h, ?order, ?next⟩
  case hello =>
    rintro hr ha hl rfl rfl
    refine ⟨fun h => ?_, fun h => ?_⟩
    · rw [hello_ready hr ha hl, if_pos h]
    · rw [hello_ready hr ha hl, if_neg (not_not.mpr h)]
  case order =>
    intro hi
    obtain ⟨f, hf⟩ := frame_mirTake (s := s) hi
    rw [hf]
    refine ⟨fun h => by rw [mirTake_idle h], fun hl ha => ⟨?_, ?_, ?_⟩⟩
    · rintro rfl
      rw [mirTake_badTag hl ha]
    · rintro rfl h
      rw [mirTake_ahead hl ha h]
    · rintro rfl h
      rw [mirTake_behind hl ha h]
  case next =>
    rintro hl ha rfl hq hs0 rfl hdone rfl rfl
    have takes : ∀ {j : Instr} {f : State → State} {x : State}, exec j s = .next (mirTake s q true f) → f s0 = x → exec j s = .next (done x) := by
      rintro j f x hj rfl
      rw [hj, mirTake_next hl ha hq, hs0, hdone]
      rfl
    refine ⟨?record, ?grain, ?anchor, ?anchorBehind, ?digest, ?ack, ?ackStale, takes rfl rfl, ?position, ?diverge⟩
    case record =>
      rintro ht hm hseq hten rfl
      exact takes rfl (if_neg (by simp [ht, hm, hseq, hten]))
    case grain =>
      intro ht hm hseq hten
      exact takes rfl (if_neg (by simp [ht, hm, hseq, hten]))
    case anchor =>
      intro ht hk
      exact takes rfl ((if_neg (by simp [ht, hk])).trans (if_pos hk))
    case anchorBehind =>
      intro ht hk
      exact takes rfl ((if_neg (by simp [ht, Nat.le_of_lt hk])).trans (if_neg (Nat.ne_of_lt hk)))
    case digest =>
      intro hr ht hb hlen
      exact takes rfl (if_neg (by simp [hr, ht, hb, hlen]))
    case ack =>
      intro h1 h2
      exact takes rfl (congrArg mirrorPumpAll (if_pos ⟨h1, h2⟩))
    case ackStale =>
      intro h
      exact takes rfl (congrArg mirrorPumpAll (if_neg h))
    case position =>
      intro hr
      exact takes rfl (if_neg (by simp [hr]))
    case diverge =>
      intro hr ht hb
      exact takes rfl (if_neg (by simp [hr, ht, hb]))

/-! ### The link's timers (R404 to R406, R409, R411, R414, R417) -/

section
variable {s : State} {t : Nat}

/-- From 0 on, every frame of the buffer is resent. -/
theorem resendFrom_zero : resendFrom s 0 =
    bumpWrap { s.mir.buf.foldl (fun a f => emitOut a (.mirror f.lseq f.kind f.tenant f.body)) s with mir.retxTick := s.tim.ticks } bMIR 0x80 0 32 s.mir.buf.length := by
  have hall : s.mir.buf.filter (fun f => decide (f.lseq ≥ 0)) = s.mir.buf := List.filter_eq_self.mpr (by simp)
  rw [resendFrom, hall]

theorem sendDigests_none (h : min 64 ((strm s t).dur - (getMir s t).digNext) = 0 ∨ (getMir s t).st ≠ 2 ∨
    mirMay s mDIGEST (16 + 32 * min 64 ((strm s t).dur - (getMir s t).digNext)) = false) : sendDigests s t = s := if_pos h

theorem lagTest_sets (hr : s.role = .primary) (hb : tenantBit s bMIR 0x40 t = true) (hm : (getMir s t).st ≠ 3) (hl : lagBeyond s t = true)
    (h : (getMir s t).lagged = false) : lagTest s t = mirrorCause (updMir s t (fun x => { x with lagged := true })) t := by
  rw [lagTest]
  dsimp only
  rw [if_neg (by simp [hr, hb, hm]), hl, h, if_neg (by decide), if_pos rfl]

theorem lagTest_same (h : s.role ≠ .primary ∨ tenantBit s bMIR 0x40 t = false ∨ (getMir s t).st = 3 ∨ lagBeyond s t = (getMir s t).lagged) :
    lagTest s t = s := by
  rw [lagTest]
  dsimp only
  rcases h with h | h | h | h
  · rw [if_pos (by simp [h])]
  · rw [if_pos (by simp [h])]
  · rw [if_pos (by simp [h])]
  · rw [if_pos h, ite_self]

end

/-- Settles O26: each timer of the link acts when its interval has passed, and else leaves the state as it is. -/
theorem mirrorTimersComplete : Obligations.MirrorTimersComplete := by
  unfold Obligations.MirrorTimersComplete
  intro s t n ds
  refine ⟨fun hl hb => ⟨?resend, ?loss⟩, ?idle, ?early, ?noLoss, ?ack, ?noAck, ?digests, ?noDigests, ?one, ?lag, ?noLag⟩
  case resend =>
    intro h1 h2
    exact next_congr ((if_pos ⟨hl, hb, h1, h2⟩).trans resendFrom_zero)
  case loss =>
    intro h
    exact next_congr (if_pos ⟨hl, hb, by unfold ticksOfMs; rwa [Nat.mul_comm]⟩)
  case idle =>
    intro h
    exact ⟨next_congr (if_neg fun ⟨hl, hb, _⟩ => h.elim (· hl) hb), next_congr (if_neg fun ⟨hl, hb, _⟩ => h.elim (· hl) hb)⟩
  case early =>
    intro h
    exact next_congr (if_neg fun ⟨_, _, h1, h2⟩ => h.elim (Nat.not_lt.mpr h1) (Nat.not_lt.mpr h2))
  case noLoss =>
    intro h
    exact next_congr (if_neg fun ⟨_, _, h1⟩ => absurd h (Nat.not_lt.mpr (by rw [Nat.mul_comm]; exact h1)))
  case ack => exact fun hl h => next_congr (if_pos ⟨hl, h⟩)
  case noAck => exact fun h => next_congr (if_neg fun ⟨hl, h1⟩ => h.elim (· hl) (Nat.not_lt.mpr h1))
  case digests => exact fun hr hm h => next_congr (if_pos ⟨hr, hm, h⟩)
  case noDigests =>
    intro h
    refine next_congr (if_neg fun ⟨hr, hm, h1⟩ => ?_)
    rcases h with h | h | h
    · exact h hr
    · simp [h] at hm
    · exact absurd h1 (Nat.not_le.mpr h)
  case one =>
    rintro rfl
    refine ⟨?_, sendDigests_none⟩
    rintro hn hm hmay rfl
    exact if_neg (by simp [hn, hm, hmay])
  case lag => exact fun hr hb hm hl h => next_congr (lagTest_sets hr hb hm hl h)
  case noLag => exact fun h => next_congr (lagTest_same h)

/-! ### Rows, seals and what waits for the flash (R434 to R458, R634) -/

section
variable {s s1 : State} {t n : Nat} {fails again bad : List Nat} {r : Row} {g : Segment} {x : Super} {c : Cmd}

theorem rowHoldTimeout_open (h : openRow s.jrn.rows t = some r) :
    exec (.rowHoldTimeout t) s = .next (if s.since r.opened ≥ ticksOfUs (fget s bJRN 0x30 0 16) then padRow s t else s) := by
  show execRowHoldTimeout t s = _
  unfold execRowHoldTimeout
  rw [h]

theorem rowHoldTimeout_none (h : openRow s.jrn.rows t = none) : exec (.rowHoldTimeout t) s = .next s := by
  show execRowHoldTimeout t s = _
  unfold execRowHoldTimeout
  rw [h]

theorem fcdelayTimeout_open (h : openRow s.jrn.rows t = some r) :
    exec (.fcdelayTimeout t) s = .next (match r.waitSince with
      | some w => if s.since w ≥ ticksOfUs (fget s bJRN 0x30 16 16) then padRow s t else s
      | none => s) := by
  show execFcdelayTimeout t s = _
  unfold execFcdelayTimeout
  rw [h] <;> rfl

theorem fcdelayTimeout_none (h : openRow s.jrn.rows t = none) : exec (.fcdelayTimeout t) s = .next s := by
  show execFcdelayTimeout t s = _
  unfold execFcdelayTimeout
  rw [h]

theorem rowProgramComplete_none (h : oldestRow s t = none) : exec (.rowProgramComplete t fails again) s = .next s := by
  show execRowProgramComplete t fails again s = _
  unfold execRowProgramComplete
  rw [h]

theorem rowProgramComplete_unclosed (h : oldestRow s t = some r) (hc : r.closed = false) : exec (.rowProgramComplete t fails again) s = .next s := by
  show execRowProgramComplete t fails again s = _
  unfold execRowProgramComplete
  rw [h]
  exact congrArg _ (if_pos hc)

theorem rowProgramComplete_programs (h : oldestRow s t = some r) (hc : r.closed = true) (hp : programRow s t false r.seg fails again = some s1) :
    exec (.rowProgramComplete t fails again) s = .next (nowDurable (bumpWrap { setStrm s1 t { strm s1 t with progRow := r.idx + 1 } with
      jrn.rows := (setStrm s1 t { strm s1 t with progRow := r.idx + 1 }).jrn.rows.filter (fun x => !(x.stream == t && x.idx == r.idx)),
      fla.written := (ins s1.fla.written (nowHour s1) (lkD s1.fla.written (nowHour s1) 0 + 1)).filter (fun p => decide (nowHour s1 < p.1 + 25)) } bJRN 0x44 0 32 1) t
      (((strm s1 t).grains.filter (fun g => decide (g.row ≤ r.idx))).foldl (fun a g => max a (g.seq + 1)) 0)) := by
  show execRowProgramComplete t fails again s = _
  unfold execRowProgramComplete
  rw [h]
  dsimp only
  rw [hc, if_neg (by decide), hp]
  rfl

theorem heartwoodSeal_none (h : nextSeal s t = none) : exec (.heartwoodSeal t fails again) s = .next s := by
  show execHeartwoodSeal t fails again s = _
  unfold execHeartwoodSeal
  rw [h]

theorem heartwoodSeal_kept (h : inQuiet s = true ∨ s.inMode .hold = true ∨ heartRoom s t = false) : exec (.heartwoodSeal t fails again) s = .next s := by
  show execHeartwoodSeal t fails again s = _
  unfold execHeartwoodSeal
  cases nextSeal s t with
  | none => rfl
  | some g =>
    dsimp only
    rw [if_pos (by rcases h with h | h | h <;> simp [h])]

theorem heartwoodSeal_seals (h : nextSeal s t = some g) (hq : inQuiet s = false) (hh : s.inMode .hold = false) (hs : s.inMode .sealed = false)
    (hr : heartRoom s t = true) (hc : copyRows 4 s t g.no fails again = some s1) :
    exec (.heartwoodSeal t fails again) s = .next (bumpWrap { setStrm s1 t { strm s1 t with
        segs := (strm s1 t).segs.map (fun x => if x.no = g.no then { x with sealTai := some s1.now, sealDig := Config.sha384 (sealRecord s1 t g) } else x) } with
      jrn.lastSeal := ins s1.jrn.lastSeal t (Config.sha384 (sealRecord s1 t g)) } bJRN 0x54 0 32 1) := by
  show execHeartwoodSeal t fails again s = _
  unfold execHeartwoodSeal
  rw [h]
  dsimp only
  rw [if_neg (by simp [hq, hh, hs, hr]), hc]
  rfl

theorem sapwoodFree_kept (h : s.fla.supers[n]? = none ∨ ∃ y, s.fla.supers[n]? = some y ∧ (y.tlc = true ∨ y.isOpen = true)) :
    exec (.sapwoodFree n bad) s = .next s := by
  show execSapwoodFree n bad s = _
  unfold execSapwoodFree
  rcases h with h | ⟨y, h, hy⟩
  · rw [h]
  · rw [h]
    dsimp only
    rw [if_pos (by rcases hy with hy | hy <;> simp [hy])]

theorem sapwoodFree_erases (h : s.fla.supers[n]? = some x) (ht : x.tlc = false) (ho : x.isOpen = false) (hh : s.inMode .hold = false)
    (hseg : ∀ no ∈ x.segs, ∀ g ∈ (strm s x.stream).segs, g.no = no → sapDone s g = true ∨ g.retired = true) :
    exec (.sapwoodFree n bad) s = .next (setStrm (eraseSuper s x bad) x.stream { strm (eraseSuper s x bad) x.stream with
      segs := (strm (eraseSuper s x bad) x.stream).segs.map (fun g =>
        if x.segs.contains g.no && !((((eraseSuper s x bad).fla.supers.filter (fun y => y.stream == x.stream && !y.tlc)).flatMap (·.segs)).contains g.no)
        then { g with freed := true } else g) }) := by
  have hall : x.segs.all (fun no => (strm s x.stream).segs.all (fun g => g.no != no || sapDone s g || g.retired)) = true := by
    refine List.all_eq_true.mpr fun no hno => List.all_eq_true.mpr fun g hg => ?_
    by_cases he : g.no = no
    · simpa [he] using hseg no hno g hg he
    · simp [he]
  show execSapwoodFree n bad s = _
  unfold execSapwoodFree
  rw [h]
  dsimp only
  rw [hall, if_neg (by simp [ht, ho, hh])]

theorem flashOperationComplete_none (h : s.con.cmds.find? (flashReady s) = none) : exec (.flashOperationComplete bad) s = .next s := by
  show execFlashOperationComplete bad s = _
  unfold execFlashOperationComplete
  rw [h]

theorem flashOperationComplete_erase {sn : Nat} {pw pw2 : Option Nat} (h : s.con.cmds.find? (flashReady s) = some c) (hp : c.phase = .erase t n pw pw2 sn) :
    exec (.flashOperationComplete bad) s = .next (finishCmd (eraseRetired (dropRetired s t n) t bad).1 c
      { c.reply with vals := c.reply.vals ++ [((eraseRetired (dropRetired s t n) t bad).2 : Int), (((s.tim.ticks - sn) / 800000 : Nat) : Int)] }) := by
  show execFlashOperationComplete bad s = _
  unfold execFlashOperationComplete
  rw [h]
  dsimp only
  rw [hp]
  rfl

theorem flashOperationComplete_image {im : Image} (h : s.con.cmds.find? (flashReady s) = some c) (hp : c.phase = .image n im) :
    exec (.flashOperationComplete bad) s = .next (finishCmd { s with sec.slots := upd s.sec.slots n (fun _ => some im) } c c.reply) := by
  show execFlashOperationComplete bad s = _
  unfold execFlashOperationComplete
  rw [h]
  dsimp only
  rw [hp]

end

/-- Settles O27: the rows of the journal and of the flash, each by what its condition lets it do. -/
theorem rowsAndSealsComplete : Obligations.RowsAndSealsComplete := by
  unfold Obligations.RowsAndSealsComplete
  intro s s1 s2 t n i w sn fails again bad left r g x dig c im pw pw2
  refine ⟨fun h => ⟨fun hd => ?_, fun hd => ?_, fun hw hd => ?_, fun hw => ?_⟩, fun h => ⟨rowHoldTimeout_none h, fcdelayTimeout_none h⟩, ?program,
    rowProgramComplete_unclosed, rowProgramComplete_none, ?sealed, ?noSeal, ?free, sapwoodFree_kept, fun h => ⟨?_, ?_⟩, flashOperationComplete_none⟩
  · rw [rowHoldTimeout_open h]
    exact congrArg _ (if_pos hd)
  · rw [rowHoldTimeout_open h]
    exact congrArg _ (if_neg (Nat.not_le.mpr hd))
  · rw [fcdelayTimeout_open h, hw]
    exact congrArg _ (if_pos hd)
  · rw [fcdelayTimeout_open h, hw]
  case program =>
    rintro h hc hp rfl
    exact rowProgramComplete_programs h hc hp
  case sealed =>
    rintro h hq hh hs hr hc rfl rfl
    exact heartwoodSeal_seals h hq hh hs hr hc
  case noSeal =>
    rintro (h | h)
    · exact heartwoodSeal_none h
    · exact heartwoodSeal_kept h
  case free =>
    rintro h ht ho hh hseg rfl rfl
    exact sapwoodFree_erases h ht ho hh hseg
  · rintro hp rfl
    exact flashOperationComplete_erase h hp
  · exact flashOperationComplete_image h

/-! ### Care of the flash (R453, R455, R460 to R474) -/

section
variable {s s1 : State} {d k n p lim reason since : Nat} {fail : Bool} {lost : List (Nat × Nat)} {reads : List FlashRead} {b : Blk}

/-- The blocks of a die that a rebuild moves. -/
def rebuilt (s : State) (d : Nat) : List (Nat × Blk) := (listed s d).filter (fun p => p.2.st == 1 || p.2.st == 2 || p.2.st == 3)

theorem rebuildComplete_idle (h : (getDie s d).st ≠ 1 ∨ s.inMode .hold = true) : exec (.rebuildComplete d) s = .next s :=
  congrArg _ (if_pos h)

theorem rebuildComplete_failed (h : (getDie s d).st = 1) (hh : s.inMode .hold = false) :
    exec (.rebuildComplete d) s = .next (match rebuildBlks ((rebuilt s d).map (·.1)) s with
      | none => putFailcnt { s with fla.stuck := if s.fla.stuck.contains d then s.fla.stuck else s.fla.stuck ++ [d] }
      | some s1 => eventD (fset (putFailcnt (updDie s1 d (fun x => { x with st := 2 }))) bFLC 0x14 16 7 100) 9 12 0x0A82
          [d, ((rebuilt s d).map (fun p => p.2.members)).sum] 0) :=
  congrArg _ (if_neg (by simp [h, hh]))

theorem patrolRead_idle (h : inQuiet s = true ∨ s.inMode .hold = true ∨ (getDie s (k / 8192)).st ≠ 0 ∨ (getBlk s k).good = false ∨ (getBlk s k).st = 0) :
    exec (.patrolRead k reads) s = .next s :=
  congrArg _ (if_pos (by rcases h with h | h | h | h | h <;> simp [h]))

theorem patrolRead_reads (hq : inQuiet s = false) (hh : s.inMode .hold = false) (hd : (getDie s (k / 8192)).st = 0) (hg : (getBlk s k).good = true)
    (hst : (getBlk s k).st ≠ 0) : exec (.patrolRead k reads) s =
      .next (bumpWrap (updBlk (flashReads s (reads.filter (fun r => r.blk == k))) k (fun b => { b with patrol := nowSec s })) bFLC 0x80 0 32 1) :=
  congrArg _ (if_neg (by simp [hq, hh, hd, hg, hst]))

theorem blockEvaluate_idle (h : (getBlk s k).st ∉ [1, 2, 3] ∨ (getDie s (k / 8192)).st ≠ 0) : exec (.blockEvaluate k) s = .next s := by
  refine congrArg _ (if_pos ?_)
  rcases h with h | h
  · simp only [List.mem_cons, List.not_mem_nil, or_false, not_or] at h
    simp [h]
  · simp [h]

/-- The reasons for which a block is queued, in their order. -/
theorem blockEvaluate_able (hb : getBlk s k = b) (hp : p = predicted s k) (hlim : lim = rdLimit b.tlc) (h : b.st ∈ [1, 2, 3])
    (hd : (getDie s (k / 8192)).st = 0) : exec (.blockEvaluate k) s = .next (
      if p > 5500 * 1000000 ∨ b.level = 17 then queueBlk s k reFLOOR (p / 1000000) 5500
      else if b.reads ≥ lim then queueBlk s k reDISTURB b.reads lim
      else if p > fget s bFLC 0x30 0 6 * 110 * 1000000 ∨ b.reads * 100 ≥ fget s bFLC 0x30 8 7 * lim ∨ b.level = 16 then queueBlk s k rePOLICY 0 0
      else s) := by
  subst hb hp hlim
  refine congrArg _ (if_neg ?_)
  simp only [List.mem_cons, List.not_mem_nil, or_false] at h
  rcases h with h | h | h <;> simp [h, hd]

theorem relocation_idle (h : (getBlk s k).queued = none ∨
    ∃ r t, (getBlk s k).queued = some (r, t) ∧ (mayMove s k r t = false ∨ pickOn s (k / 8192) = none)) :
    exec (.relocation k fail lost) s = .next s := by
  show execRelocation k fail lost s = _
  unfold execRelocation
  rcases h with h | ⟨r, t, h, hm⟩
  · rw [h]
  · have hnone : (if mayMove s k r t then pickOn s (k / 8192) else none) = none := by rcases hm with hm | hm <;> simp [hm]
    rw [h]
    dsimp only
    rw [hnone]

theorem relocation_moves (h : (getBlk s k).queued = some (reason, since)) (hm : mayMove s k reason since = true) (hp : pickOn s (k / 8192) = some n)
    (hs1 : s1 = lost.foldl (fun a p => mediaError a p.1 p.2 (k / 8192) (k % 8192)) (moveBlk s k n reason)) :
    exec (.relocation k fail lost) s = .next (
      if reason = rePROGFAIL then growBad s1 k else if reason = rePOLICY then eraseBlk (bumpWrap s1 bFLC 0x84 0 32 1) k fail
      else eraseBlk (bumpWrap s1 bFLC 0x88 0 32 1) k fail) := by
  subst hs1
  show execRelocation k fail lost s = _
  unfold execRelocation
  rw [h]
  dsimp only
  rw [hm, if_pos rfl, hp]
  dsimp only
  by_cases hfail : reason = rePROGFAIL
  · subst hfail
    rfl
  · rw [if_neg hfail, if_neg hfail, if_neg hfail]
    split <;> rfl

end

/-- Settles O28: the rows of the flash's care, each by what its condition lets it do. -/
theorem flashCareComplete : Obligations.FlashCareComplete := by
  unfold Obligations.FlashCareComplete
  intro s s1 s2 s3 s4 s5 s6 d k n p lim reason since eol free temp fail lost reads b w c
  refine ⟨rfl, rfl, fun h hh => ⟨?rebuilt, ?stuck⟩, rebuildComplete_idle, ?patrol, ?noPatrol, ?evaluate, fun h hm hp hs1 => relocation_moves h hm hp hs1, relocation_idle, rfl,
    ?wear, ?noWear, fun h => congrArg _ (if_pos h), fun h => congrArg _ (if_neg (Nat.not_le.mpr h)), fun h => congrArg _ (if_pos h),
    fun h => congrArg _ (if_neg (Nat.not_le.mpr h)), fun h => congrArg _ (if_pos h), fun h1 h2 => congrArg _ (if_neg ?_)⟩
  case rebuilt =>
    rintro hb rfl
    change rebuildBlks ((rebuilt s d).map (·.1)) s = some s1 at hb
    rw [rebuildComplete_failed h hh, hb]
    rfl
  case stuck =>
    intro hb hd
    change rebuildBlks ((rebuilt s d).map (·.1)) s = none at hb
    rw [rebuildComplete_failed h hh, hb]
    dsimp only
    rw [if_neg (by simpa using hd)]
  case patrol =>
    rintro rfl hq hh hd hg hst
    exact patrolRead_reads hq hh hd hg hst
  case noPatrol =>
    rintro rfl h
    exact patrolRead_idle h
  case evaluate =>
    intro hb hp hlim
    refine ⟨fun hst hd => ?_, fun h => blockEvaluate_idle (hb ▸ h)⟩
    rw [blockEvaluate_able hb hp hlim hst hd]
    refine ⟨fun h => ?_, fun h1 h2 h3 => ?_, fun h1 h2 h3 h4 => ?_, fun h1 h3 h2 h4 h5 h6 => ?_⟩
    · exact congrArg _ (if_pos h)
    · rw [if_neg (not_or.mpr ⟨Nat.not_lt.mpr h1, h2⟩), if_pos h3]
    · rw [if_neg (not_or.mpr ⟨Nat.not_lt.mpr h1, h2⟩), if_neg (Nat.not_le.mpr h3), if_pos (h4.imp_left (by simp [Nat.mul_assoc]))]
    · rw [if_neg (not_or.mpr ⟨Nat.not_lt.mpr h1, h2⟩), if_neg (Nat.not_le.mpr h3), if_neg (not_or.mpr ⟨by omega, not_or.mpr ⟨Nat.not_le.mpr h6, h4⟩⟩)]
  case wear =>
    intro h hs1 heol hs2 hfree hs3 hs4 hs5 hs6 hw hc
    have hlow : (if free < 24 then 1 else 0) = b2n (decide (free < 24)) := by simp [b2n]
    have hsaid : s5 = if (decide (free < 24) && fget s4 bFLC 0x14 10 1 == 0) = true then eventD s4 9 12 0x0A83 [free] 0 else s4 := by
      simpa using hs5
    rw [hlow] at hs6
    refine next_congr ((if_neg (Nat.not_lt.mpr h)).trans ?_)
    extract_lets f a1 aeol a2 afree a3 a4 alow a5 a6 aw ac
    have e1 : s1 = a1 := hs1
    have eeol : eol = aeol := by rw [heol, e1]
    have e2 : s2 = a2 := by rw [hs2, e1, eeol]
    have efree : free = afree := by rw [hfree, e2]
    have e3 : s3 = a3 := by rw [hs3, e2, efree]
    have e4 : s4 = a4 := by rw [hs4, e3]
    have e5 : s5 = a5 := by rw [hsaid, e4, efree]
    have e6 : s6 = a6 := by rw [hs6, e5, efree]
    have ew : w = aw := by rw [hw, e6, eeol]
    have ec : c = ac := by rw [hc, ew, e6, eeol]
    clear_value aw ac
    subst ew ec
    rfl
  case noWear => exact fun h => congrArg _ (if_pos h)
  · omega

/-! ### Samples of the power unit and of the vault (R104, R126, R130, R487, R489, R496, R518, R622) -/

section
variable {s s1 : State} {mv : Nat} {temp : Int} {loops : List Nat} {v : VaultSt}

theorem holdupSample_held (h : s.pwr.held = true) : exec (.holdupSample mv) s = .next s := if_pos h

theorem holdupSample_good (hh : s.pwr.held = false) (h : fget s bPWR 0x14 0 1 = 0 ∨ 100 * mv ≥ 98 * s.pwr.calV0) :
    exec (.holdupSample mv) s = .next (fset s bPWR 0x24 16 16 (sat 16 mv)) :=
  (if_neg (by simp [hh])).trans (if_pos h)

theorem holdupSample_low (hh : s.pwr.held = false) (h1 : fget s bPWR 0x14 0 1 ≠ 0) (h2 : 100 * mv < 98 * s.pwr.calV0) (hs1 : s1 = fset s bPWR 0x24 16 16 (sat 16 mv))
    {w : Nat} (hw : w = windowOf (energyAt s1 mv) (rawGet s1 bPWR 0x34) (rawGet s1 bPWR 0x38)) :
    exec (.holdupSample mv) s = if w ≥ rawGet s1 bJRN 0x20 then .next s1 else
      .next (if w < 1024 then enterHold (drainOver (eventD (bumpSat (fset (putCwin s1 w) bPWR 0x24 0 16 (sat 16 mv)) bPWR 0x88 0 16 1) 9 0xC 0x0D81 [mv, w] 0)) hHOLDUP_LOST 0 0
        else drainOver (eventD (bumpSat (fset (putCwin s1 w) bPWR 0x24 0 16 (sat 16 mv)) bPWR 0x88 0 16 1) 9 0xC 0x0D81 [mv, w] 0)) := by
  subst hs1 hw
  exact (if_neg (by simp [hh])).trans (if_neg (by omega))

theorem vbatLow_held (h : s.pwr.held = true) : exec (.vbatLow mv) s = .next s := if_pos h

theorem vbatLow_sampled (h : s.pwr.held = false) : exec (.vbatLow mv) s =
    .next (if mv < 2700 ∧ s.pwr.vbatLow = false then eventD { s with sec.vault.vbatMv := sat 16 mv, pwr.vbatLow := decide (mv < 2700) } 9 0xC 0x0D82 [mv] 0
      else { s with sec.vault.vbatMv := sat 16 mv, pwr.vbatLow := decide (mv < 2700) }) :=
  if_neg (by simp [h])

theorem vaultMonitorSample_powered (h : s.pwr.held = false) : exec (.vaultMonitorSample loops temp mv) s = .next s := if_pos h

/-- The loops that the vault monitors, each judged by its sample. -/
def vaultLoops (v : VaultSt) (loops : List Nat) : VaultSt × List Raise :=
  (loops.zipIdx.filter (fun p => decide (p.2 < 8) && bit (lkD v.react p.2 0) 8)).foldl (fun a p => ((vaultLoop a.1 p.2 p.1).1, a.2 ++ (vaultLoop a.1 p.2 p.1).2)) (v, [])

/-- What a sample of the vault raises: classes of loops, and TEMP on the first sample out of the limits. -/
def vaultRaised (a : VaultSt × List Raise) (temp : Int) : List Raise :=
  if (tempOut [temp] && lkD a.1.offState 8 0 == 0) = true then a.2 ++ [raiseNow srcDIE 2 0 0] else a.2

/-- The vault after a sample that raises `raised`. -/
def vaultAfter (v : VaultSt) (temp : Int) (raised : List Raise) : VaultSt :=
  raised.foldl vaultLog { v with offState := ins v.offState 8 (b2n (tempOut [temp])) }

section
variable (hh : s.pwr.held = true) (hv : v = { s.sec.vault with offSecs := s.sec.vault.offSecs + 1, vbatMv := sat 16 mv })
include hh hv

theorem vaultMonitorSample_stopped (h : lkD v.offState 9 0 = 1) : exec (.vaultMonitorSample loops temp mv) s = .next { s with sec.vault := v } := by
  subst hv
  exact (if_neg (by simp [hh])).trans (if_pos h)

theorem vaultMonitorSample_stops (h : lkD v.offState 9 0 ≠ 1) (hmv : mv < 2300) : exec (.vaultMonitorSample loops temp mv) s =
    .next { s with sec.vault := vaultLog { v with offState := ins v.offState 9 1 } (raiseNow srcVBAT 0 0 0) } := by
  subst hv
  exact (if_neg (by simp [hh])).trans ((if_neg h).trans (if_pos hmv))

theorem vaultMonitorSample_senses {a : VaultSt × List Raise} {raised : List Raise} {v1 : VaultSt} (h : lkD v.offState 9 0 ≠ 1) (hmv : mv ≥ 2300)
    (ha : a = vaultLoops v loops) (hr : raised = vaultRaised a temp) (hv1 : v1 = vaultAfter a.1 temp raised) :
    exec (.vaultMonitorSample loops temp mv) s = .next (
      if raised.any (fun r => vaultReaction v1 r == 3) then { zeroize { s with sec.vault := v1 } with sec.eraseTick := none } else { s with sec.vault := v1 }) := by
  subst hv ha hr hv1
  exact (if_neg (by simp [hh])).trans ((if_neg h).trans (if_neg (Nat.not_lt.mpr hmv)))

end

theorem b2n_tempOut_one : b2n (tempOut [temp]) = if temp < -40 ∨ 500 < temp then 1 else 0 := by simp [b2n, tempOut]

end

/-- Settles O30: each sample shows its figures, and a device held in reset takes those of its vault alone. -/
theorem powerSamplesComplete : Obligations.PowerSamplesComplete := by
  unfold Obligations.PowerSamplesComplete
  intro s s1 s2 mv w temp v v1 loops a raised
  refine ⟨fun hh hs1 => ⟨?good, ?low, ?cellFalls, ?cellLow, ?cellGood, vaultMonitorSample_powered hh⟩,
    fun hh hv => ⟨holdupSample_held hh, vbatLow_held hh, vaultMonitorSample_stopped hh hv, vaultMonitorSample_stops hh hv, ?senses⟩⟩
  case good =>
    intro h
    rw [hs1, holdupSample_good hh h]
  case low =>
    intro h1 h2 hw
    rw [holdupSample_low hh h1 h2 hs1 hw]
    refine ⟨fun h => if_pos h, ?_⟩
    rintro h rfl
    exact if_neg (Nat.not_le.mpr h)
  case cellFalls =>
    intro h1 h2
    rw [vbatLow_sampled hh, if_pos ⟨h1, h2⟩, decide_eq_true h1]
  case cellLow =>
    intro h1 h2
    rw [vbatLow_sampled hh, if_neg (by simp [h2]), decide_eq_true h1]
  case cellGood =>
    intro h1
    rw [vbatLow_sampled hh, if_neg (by omega), decide_eq_false (by omega)]
  case senses =>
    intro h hmv ha hr hv1
    have hraised : raised = vaultRaised a temp := by simpa [vaultRaised, tempOut] using hr
    have hafter : v1 = vaultAfter a.1 temp raised := by rw [vaultAfter, b2n_tempOut_one]; exact hv1
    rw [vaultMonitorSample_senses hh hv h hmv ha hraised hafter]
    refine ⟨fun ⟨r, hr, h3⟩ => ?_, fun hno => ?_⟩
    · rw [if_pos (List.any_eq_true.mpr ⟨r, hr, by simp [h3]⟩)]
    · rw [if_neg (by simpa using hno)]

end Sys2Proof.Machine
end

section
/-! PROOFS. Tamper and thermal events, the witness mesh, tamper loops, records and console events (R96 to R104, R121 to R135, R397, R433,
R499 to R519, R524, R538 to R565, R604 to R614; O31 to O35). -/
/-! Each event is the equation of its row where its condition holds, and leaves the state where it does not. -/
namespace Sys2Proof.Machine

open Sys2Proof

-- Each proof is checked before the next begins, so that no more than one is held in memory.
set_option Elab.async false

/-! ### Tamper classes, temperature and the scrubber (R96 to R98, R121 to R124, R127, R135, R604, R614) -/

section
variable {s s3 : State} {x : Raise} {temps : List Int} {us : List Upset} {t0 : Nat}

theorem tamper_held {l : List Raise} (h : s.pwr.held = true) : tamper s l = s := if_pos h

theorem tamper_one (h : s.pwr.held = false) : tamper s [x] = react (latch s x) (reaction s x) := by
  rw [tamper, h, if_neg (by decide)]
  simp

theorem react_three {n : Nat} (h : n = 3) : react s n = enterHold (zeroize (reactSuspend s)) hZEROIZE 0 0 := by
  subst h
  rfl

theorem zeroize_sessions {p : Nat × Session} (h : p ∈ (zeroize s).awp.sessions) : p.2.key = 0 ∧ p.2.keyHeld = false := by
  obtain ⟨q, -, rfl⟩ := List.mem_map.mp (h : p ∈ s.awp.sessions.map (fun p => (p.1, { p.2 with key := 0, keyHeld := false })))
  exact ⟨rfl, rfl⟩

/-- What a temperature sample shows, before the class TEMP. -/
def sampled (s : State) (temps : List Int) : State :=
  { throttle { s with hlt.temps := temps } (hottest temps 0).1 (hottest temps 0).2 with hlt.tempTamper := tempOut temps }

theorem thermalSample_idle (h : temps = [] ∨ s.pwr.held = true) : exec (.thermalSample temps) s = .next s :=
  if_pos (h.imp_left fun h => by simp [h])

theorem thermalSample_sampled (hne : temps ≠ []) (hh : s.pwr.held = false)
    (hs3 : s3 = if (sampled s temps).sec.coldWait = true ∧ (hottest temps 0).1 ≥ 0
      then { sampled s temps with sec.coldWait := false, sec.stepSince := s.tim.ticks } else sampled s temps) :
    exec (.thermalSample temps) s = .next (if (tempOut temps && !s.hlt.tempTamper) = true then tamper s3 [raiseNow srcDIE 2 0 0] else s3) := by
  have hcold : s3 = if ((sampled s temps).sec.coldWait && decide ((hottest temps 0).1 ≥ 0)) = true
      then { sampled s temps with sec.coldWait := false, sec.stepSince := s.tim.ticks } else sampled s temps := by
    simpa using hs3
  subst hcold
  exact if_neg (by simp [hne, hh])

theorem thermalHold_enters (h : s.hlt.holdHot = some t0) (ht : t0 + ticksOfMs 1 ≤ s.tim.ticks) :
    exec .thermalHold s = .next (enterHold s hTHERMAL 0 0) :=
  next_congr (if_pos (by simp [heldFor, h, ht]))

theorem thermalHold_idle (h : s.hlt.holdHot = none ∨ (s.hlt.holdHot = some t0 ∧ s.tim.ticks < t0 + ticksOfMs 1)) :
    exec .thermalHold s = .next s := by
  refine next_congr (if_neg ?_)
  rcases h with h | ⟨h, ht⟩
  · simp [heldFor, h]
  · simp [heldFor, h, ht]

/-- The mode is voted first; then all other fields of the device. -/
theorem tmrScrub_voted {m r : State × Bool} (hm : m = scrubField s bSYS 0x20 0 0 3 us) (hr : r = scrubAll m.1 us) :
    exec (.tmrScrub us) s = if (m.2 || (DMode.ofCode (r.1.sys.mode.maj % 8)).isNone) = true then .next (enterHold r.1 hMODE_VOTE 0 0)
      else if r.2 then .next (enterHold r.1 hTMR_NOVOTE 0 0) else .next r.1 := by
  subst hm hr
  rfl

end

/-- Settles O31: a class of the die latches and reacts, a temperature sample throttles, and the scrubber repairs what it can. -/
theorem tamperAndThermalComplete : Obligations.TamperAndThermalComplete := by
  unfold Obligations.TamperAndThermalComplete
  intro s s1 s2 s3 x i temps us m r t0
  refine ⟨fun hi => ?die, ?zeroized, ?sample, thermalSample_idle, thermalHold_enters, thermalHold_idle, fun hm hr => ?scrub⟩
  case die =>
    have hrow : exec i s = .next (tamper s [x]) := by rcases hi with ⟨rfl, rfl⟩ | ⟨rfl, rfl⟩ <;> rfl
    refine ⟨fun h => by rw [hrow, tamper_held h], ?_⟩
    rintro h rfl
    rw [hrow, tamper_one h]
    refine ⟨fun h => ?_, fun h => ?_, fun h => ?_, fun h => by rw [react_three h]⟩ <;> rw [h] <;> rfl
  case zeroized => exact ⟨rfl, rfl, rfl, rfl, rfl, rfl, fun p => zeroize_sessions, rfl, rfl⟩
  case sample =>
    rintro hne hh rfl rfl hs3
    rw [thermalSample_sampled hne hh hs3]
    refine ⟨fun h1 h2 => next_congr (if_pos (by simp [h1, h2])), fun h => ?_⟩
    rw [if_neg (by rcases h with h | h <;> simp [h])]
  case scrub =>
    rw [tmrScrub_voted hm hr]
    refine ⟨fun h => if_pos ?_, fun h1 h2 h3 => ?_, fun h1 h2 h3 => ?_⟩
    · rcases h with h | h <;> simp [h]
    · rw [if_neg (by simp [h1, h2]), h3]
      rfl
    · rw [if_neg (by simp [h1, h2]), h3]
      rfl

/-! ### The witness mesh (R499, R500, R504, R508, R509, R511, R513 to R515) -/

section
variable {s s1 s2 : State} {e a air n : Nat} {busy ok : Bool} {f : WitFrame} {q : Nat × Nat} {rest : List (Nat × Nat)} {eui : BitVec 64} {fctr : Nat}

theorem witnessEventInstant_due (hrun : s.wit.run = true) (ht : s.tim.ticks ≥ s.wit.evTick + evTicks s.wit.air) (he : e = (s.wit.evc + 1) % 2 ^ 32)
    (hs1 : s1 = witApply { s with wit.evc := e, wit.evTick := s.wit.evTick + evTicks s.wit.air })
    (hs2 : s2 = if s1.wit.switch = some e then { s1 with wit.air := airRegs s1, wit.switch := none } else s1) :
    exec .witnessEventInstant s =
      .next (if e % 8 = 0 ∧ ¬ s2.wit.txq.any (fun p => p.1 == wfBEACON) then { s2 with wit.txq := (wfBEACON, 0xFF) :: s2.wit.txq } else s2) := by
  subst he hs1 hs2
  exact if_neg (by simp [hrun, ht])

theorem witnessTransmit_first (hrun : s.wit.run = true) (hq : s.wit.txq = q :: rest) (hon : fget s bWIT 0x10 0 8 ≠ 0) (hair : air = (12 + psdu s q.1) * 16)
    (hs1 : s1 = { s with wit.txq := rest }) (hs2 : s2 = { s1 with
      wit.devCtr := (s.wit.devCtr + 1) % 2 ^ 32,
      wit.tx := (s.tim.ticks, air) :: s.wit.tx.filter (fun p => decide (s.tim.ticks - p.1 < ticksOfS 3600)),
      wit.ack := if q.1 = wfBEACON then [] else s.wit.ack }) :
    exec (.witnessTransmit busy) s = if airUsed s + air > 360000 * fget s bWIT 0x14 24 8 then .next (bumpSat s1 bWIT 0x54 16 16 1)
      else if busy then .next (bumpSat s1 bWIT 0x54 0 16 1) else .next (bumpWrap (emitOut s2 (.witness q.1 q.2)) bWIT 0x50 0 32 1) := by
  subst hair hs1 hs2
  show execWitnessTransmit busy s = _
  unfold execWitnessTransmit
  rw [hq]
  exact if_neg (by simp [hrun, hon])

section
variable (hrun : s.wit.run = true) (hslot : f.slot < 16) (ht : s.tim.ticks ≥ s.wit.evTick + f.slot * 12500000)
include hrun hslot ht

theorem tagFrame_failed (h : f.micOk = false ∨ ((getTag s f.src).st ≠ 2 ∧ (getTag s f.src).st ≠ 3)) :
    tagFrame s f = bumpWrap s bWIT 0x44 0 32 1 := by
  refine (if_neg (by simp [hrun, hslot, ht])).trans (if_pos ?_)
  rcases h with h | ⟨h2, h3⟩
  · exact .inl h
  · exact .inr (by simp [h2, h3])

theorem tagFrame_counted (hm : f.micOk = true) (h : (getTag s f.src).st = 2 ∨ (getTag s f.src).st = 3) :
    tagFrame s f = counterRule s f.src f.fctr (fun x => tagReport x f) :=
  (if_neg (by simp [hrun, hslot, ht])).trans (if_neg (by simp [hm, h]))

end

theorem counterRule_higher {g : State → State} (h : n > (getTag s a).last) : counterRule s a n g = g (acceptFrame s a n) := if_pos h

theorem counterRule_flood {g : State → State} (h : n ≤ (getTag s a).last) (hf : floodCopy s a n = true) :
    counterRule s a n g = bumpWrap s bWIT 0x48 0 32 1 :=
  (if_neg (Nat.not_lt.mpr h)).trans (if_pos hf)

theorem counterRule_replay {g : State → State} (h : n ≤ (getTag s a).last) (hf : floodCopy s a n = false) :
    counterRule s a n g = replayFrame s a :=
  (if_neg (Nat.not_lt.mpr h)).trans (if_neg (by simp [hf]))

theorem joinreq_paired {p : Nat × Tag} (hrun : s.wit.run = true) (hon : fget s bWIT 0x10 0 8 ≠ 0)
    (hp : s.wit.tags.find? (fun p => p.2.st != 0 && p.2.eui == eui) = some p) :
    exec (.joinreq eui fctr ok) s = if ok = false then .next (authFail s)
      else .next (counterRule s p.1 fctr (fun x => { x with wit.txq := x.wit.txq ++ [(wfJOINRSP, p.1)] })) := by
  refine (if_neg (by simp [hrun, hon])).trans ?_
  rw [hp]

theorem supervisionTimeout_lost {tag : Tag} (hrun : s.wit.run = true) (htag : getTag s a = tag) (hst : tag.st = 2) (hd : tag.due = some n) (ht : s.tim.ticks ≥ n) :
    exec (.supervisionTimeout a) s = .next (tamper (bumpSat (updTag s a (fun t => { t with st := 3, due := none, losses := sat 32 (t.losses + 1) })) bWIT 0x58 0 32 1)
      [raiseNow srcWITNESS 6 a 0]) := by
  subst htag
  show execSupervisionTimeout a s = _
  unfold execSupervisionTimeout
  dsimp only
  rw [hd]
  exact if_neg (by simp [hrun, hst, ht])

theorem supervisionTimeout_off (hrun : s.wit.run = false) : exec (.supervisionTimeout a) s = .next s := by
  show execSupervisionTimeout a s = _
  unfold execSupervisionTimeout
  dsimp only
  cases (getTag s a).due with
  | none => rfl
  | some d => exact if_pos (.inl hrun)

theorem witnessTransmit_off (hrun : s.wit.run = false) : exec (.witnessTransmit busy) s = .next s := by
  show execWitnessTransmit busy s = _
  unfold execWitnessTransmit
  cases s.wit.txq with
  | nil => rfl
  | cons q rest => exact if_pos (.inl hrun)

theorem ticksOfS_60 : ticksOfS 60 = 48000000000 := by norm_num [ticksOfS]

theorem authfailMinute_passed (hrun : s.wit.run = true) (ht : s.tim.ticks ≥ s.wit.authTick + 48000000000)
    (hn : n = (rawGet s bWIT 0x44 + 2 ^ 32 - s.wit.authAt) % 2 ^ 32)
    (hs1 : s1 = { s with wit.authTick := s.wit.authTick + 48000000000, wit.authAt := rawGet s bWIT 0x44 }) :
    exec .authfailMinute s = .next (if n ≥ 16 then eventD s1 9 0xC 0x0680 [(s.tim.tai - (s.tim.ticks - s.wit.authTick) * 100000) / 80000, n] 0 else s1) := by
  rw [← ticksOfS_60] at ht hs1
  subst hn hs1
  exact if_neg (by simp [hrun, ht])

end

/-- Settles O32: each row of a running mesh, and that none acts while the mesh does not run. -/
theorem witnessComplete : Obligations.WitnessComplete := by
  unfold Obligations.WitnessComplete
  intro s s1 s2 e a air n st busy f i q rest eui fctr p tag
  refine ⟨fun hrun => ⟨?instant, ?transmit, ?frame, ?join, ?lost, fun ht hn hs1 => authfailMinute_passed hrun ht hn hs1⟩,
    fun hrun => ⟨if_pos (.inl hrun), witnessTransmit_off hrun, next_congr (if_pos (.inl hrun)), next_congr (if_pos (.inl hrun)), if_pos (.inl hrun),
      supervisionTimeout_off hrun, if_pos (.inl hrun)⟩⟩
  case instant =>
    intro ht he hs1 hs2
    rw [witnessEventInstant_due hrun ht he hs1 hs2]
    refine ⟨fun h8 hb => ?_, fun h8 => ?_⟩
    · have hno : ¬ s2.wit.txq.any (fun p => p.1 == wfBEACON) := by
        rw [List.any_eq_true]
        rintro ⟨p, hp, he⟩
        exact hb p hp (by simpa using he)
      rw [if_pos ⟨h8, hno⟩]
    · rw [if_neg fun h => h8 h.1]
  case transmit =>
    intro hq hon hair hs1
    have hrow := fun busy => witnessTransmit_first (busy := busy) hrun hq hon hair hs1 rfl
    refine ⟨fun h => ?_, fun h => ?_, ?_⟩
    · rw [hrow, if_pos h]
    · rw [hrow, if_neg (Nat.not_lt.mpr h), if_pos rfl]
    · rintro h rfl
      rw [hrow, if_neg (Nat.not_lt.mpr h), if_neg (by decide)]
  case frame =>
    rintro hi hslot ht rfl
    have hrow : exec i s = .next (tagFrame s f) := by rcases hi with rfl | rfl <;> rfl
    rw [hrow]
    refine ⟨fun h => next_congr (tagFrame_failed hrun hslot ht h), fun hm hst => ?_⟩
    rw [tagFrame_counted hrun hslot ht hm hst]
    exact ⟨fun h => next_congr (counterRule_higher h), fun h hf => next_congr (counterRule_flood h hf), fun h hf => next_congr (counterRule_replay h hf)⟩
  case join =>
    intro hon hp
    refine ⟨?_, ?_⟩
    · rintro h rfl
      rw [joinreq_paired hrun hon hp, if_neg (by decide), counterRule_higher h]
    · rw [joinreq_paired hrun hon hp, if_pos rfl]
      rfl
  case lost =>
    rintro htag hst hd ht rfl
    exact supervisionTimeout_lost hrun htag hst hd ht

/-! ### Tamper loops (R516, R517, R519, 20.6) -/

section
variable {s s1 s2 s3 : State} {n c x nom band meas run : Nat} {r : Option Nat} {m : Nat × State} {l : List Nat}

theorem loopPulse_idle (h : n ≥ 8 ∨ s.pwr.held = true ∨ (loopOn s n = false ∧ calWaits s n = false)) : exec (.loopPulse n r) s = .next s := if_pos h

/-- What a pulse on a loop leaves before its calibration: the measured resistance, and on an enabled loop its class. -/
def pulsed (s : State) (n : Nat) (r : Option Nat) (meas : Nat) : State :=
  if loopOn s n then loopPulse s n (loopClass (10 * fget s bWIT (0x100 + 16 * n) 0 16) (fget s bWIT (0x100 + 16 * n) 16 8) r) meas else s

/-- A reading under calibration; one out of the range is 0. -/
def reading (r : Option Nat) : Nat := match r with | some x => if 100 ≤ x ∧ x ≤ 100000 then x else 0 | none => 0

/-- The readings of a loop under calibration after one more. -/
def readings (s : State) (n : Nat) (r : Option Nat) : List Nat := reading r :: (getLoop s n).samples

/-- A loop under calibration that keeps one more reading. -/
def kept (s : State) (n : Nat) (r : Option Nat) : State :=
  { s with wit.loops := ins s.wit.loops n { getLoop s n with samples := readings s n r } }

section
variable (hn : n < 8) (hh : s.pwr.held = false) (hm : m = loopMeas s r) (hs1 : s1 = fset m.2 bWIT (0x104 + 16 * n) 0 16 m.1)
include hn hh hm hs1

theorem loopPulse_driven (h : loopOn s n = true ∨ calWaits s n = true) :
    exec (.loopPulse n r) s = if calWaits (pulsed s1 n r m.1) n then
        .next (if (readings (pulsed s1 n r m.1) n r).length ≥ 100 then loopCal (kept (pulsed s1 n r m.1) n r) n ((readings (pulsed s1 n r m.1) n r).take 100)
          else kept (pulsed s1 n r m.1) n r)
      else .next (pulsed s1 n r m.1) := by
  subst hm hs1
  exact if_neg (by rcases h with h | h <;> simp [hn, hh, h])

theorem loopPulse_uncalibrated (h : loopOn s n = true) (hc : calWaits (pulsed s1 n r m.1) n = false) :
    exec (.loopPulse n r) s = .next (pulsed s1 n r m.1) := by
  rw [loopPulse_driven hn hh hm hs1 (.inl h), hc]
  rfl

theorem loopPulse_calibrates (h : calWaits s n = true) (hs3 : s3 = pulsed s1 n r m.1) (hc : calWaits s3 n = true) (hl : l = readings s3 n r)
    (hs2 : s2 = { s3 with wit.loops := ins s3.wit.loops n { getLoop s3 n with samples := l } }) :
    exec (.loopPulse n r) s = .next (if l.length ≥ 100 then loopCal s2 n (l.take 100) else s2) := by
  subst hs2 hl
  rw [loopPulse_driven hn hh hm hs1 (.inr h), ← hs3, hc]
  rfl

end

section
variable (hrun : run = if (getLoop s1 n).cand = c then (getLoop s1 n).run + 1 else 1)
  (hs2 : s2 = { s1 with wit.loops := ins s1.wit.loops n { getLoop s1 n with cand := c, run := run } })
include hrun hs2

theorem loopPulse_same (h : c = (getLoop s1 n).cls ∨ (c = 0 ∧ run < 10) ∨ (c ≠ 0 ∧ run < 3)) : loopPulse s1 n c meas = s2 := by
  subst hrun hs2
  unfold loopPulse
  dsimp only
  rcases h with h | ⟨h, h10⟩ | ⟨h, h3⟩
  · rw [if_pos h]
  · rw [if_pos h, if_neg (Nat.not_le.mpr h10), ite_self]
  · rw [if_neg h, if_neg (Nat.not_le.mpr h3), ite_self]

theorem loopPulse_raises (hc : c ≠ (getLoop s1 n).cls) (h : c ≠ 0) (h3 : run ≥ 3) : loopPulse s1 n c meas =
    tamper (bumpSat { s2 with wit.loops := ins s2.wit.loops n { getLoop s2 n with cls := c } } bWIT (0x108 + 16 * n) 0 32 1) [raiseNow srcLOOP c n 0] := by
  subst hrun hs2
  exact (if_neg hc).trans ((if_neg h).trans (if_pos h3))

theorem loopPulse_ends (hc : c ≠ (getLoop s1 n).cls) (h : c = 0) (h10 : run ≥ 10) : loopPulse s1 n c meas =
    eventD { s2 with wit.loops := ins s2.wit.loops n { getLoop s2 n with cls := c } } 9 0xC 0x0684 [n, meas] 0 := by
  subst hrun hs2
  exact (if_neg hc).trans ((if_pos h).trans (if_pos h10))

end

theorem loopClass_some (hn : nom ≠ 0) : loopClass nom band (some x) =
    if x < 100 ∨ 8 * x < nom then 2 else if x > 100000 ∨ x > 8 * nom then 1
    else if 100 * x < nom * (100 - band) ∨ 100 * x > nom * (100 + band) then 3 else 0 := if_neg hn

end

/-- Settles O33: a pulse on a loop, by what the loop is and what the pulse reads. -/
theorem loopsComplete : Obligations.LoopsComplete := by
  unfold Obligations.LoopsComplete
  intro s s1 s2 s3 n x nom band c run r m l
  refine ⟨loopPulse_idle, fun hn hh hm hs1 => ⟨fun h h1 hc hrun hs2 => ?enabled, fun h hs3 hc hl hs2 => loopPulse_calibrates hn hh hm hs1 h hs3 hc hl hs2⟩,
    if_pos rfl, fun hnom => ⟨if_neg hnom, ?short, ?opened, ?drift, ?normal⟩, rfl, fun h1 h2 => if_pos ⟨h1, h2⟩⟩
  case enabled =>
    have hp : pulsed s1 n r m.1 = loopPulse s1 n c m.1 := by
      rw [hc]
      exact if_pos h1
    refine ⟨fun hsame hcal => ?_, loopPulse_raises hrun hs2, loopPulse_ends hrun hs2, fun hcal => ?_⟩
    · have hp2 := hp.trans (loopPulse_same hrun hs2 hsame)
      rw [loopPulse_uncalibrated hn hh hm hs1 h (by rw [hp2, hcal]), hp2]
    · rw [loopPulse_uncalibrated hn hh hm hs1 h (by rw [hp, hcal]), hp]
  case short =>
    intro h
    rw [loopClass_some hnom, if_pos h]
  case opened =>
    intro h1 h2 h3
    rw [loopClass_some hnom, if_neg (by omega), if_pos h3]
  case drift =>
    intro h1 h2 h3 h4 h5
    rw [loopClass_some hnom, if_neg (by omega), if_neg (by omega), if_pos h5]
  case normal =>
    intro h1 h2 h3 h4 h5 h6
    rw [loopClass_some hnom, if_neg (by omega), if_neg (by omega), if_neg (not_or.mpr ⟨Nat.not_lt.mpr h5, Nat.not_lt.mpr h6⟩)]

/-! ### Records of counts, of a replay and of telemetry (R397, R433, R524, R538 to R541, R605 to R607) -/

section
variable {s s1 : State} {r : Run} {g : ImpGrain} {i : Input} {ended : List Nat}

/-- The counts of an ended second go to the stream of an active tenant. -/
theorem countsWrite_writes (he : ended = (s.awp.counts.map (fun p => p.1 / 16 / 2 ^ 32)).eraseDups.filter (fun k => decide (k / 64 < nowSec s)))
    (hs1 : s1 = ended.foldl (fun a k => if tenantActive a (k % 64) = true ∧ a.jrn.closed = false ∧ a.inMode .replay = false then
      putParts (secondCounts a (k % 64) (k / 64)).length a (k % 64) (k / 64) 0 (secondCounts a (k % 64) (k / 64)) else a) s) :
    exec .countsWrite s = .next { s1 with awp.counts := s1.awp.counts.filter (fun p => decide (nowSec s ≤ p.1 / 16 / 2 ^ 32 / 64)) } := by
  have hcond : ∀ (a : State) (k : Nat), (tenantActive a (k % 64) && !a.jrn.closed && !(a.inMode .replay)) = true ↔
      tenantActive a (k % 64) = true ∧ a.jrn.closed = false ∧ a.inMode .replay = false := by
    intro a k
    simp [and_assoc]
  simp only [← hcond] at hs1
  subst he hs1
  rfl

theorem replayGrain_none (h : s.rpl.run = none) : exec .replayGrain s = .next s := by
  show execReplayGrain s = _
  unfold execReplayGrain
  rw [h]

section
variable (h : s.rpl.run = some r)
include h

theorem replayGrain_idle (hr : r.cur.isSome = true ∨ s.inMode .replay = false) : exec .replayGrain s = .next s := by
  show execReplayGrain s = _
  unfold execReplayGrain
  rw [h]
  exact next_congr (if_pos (by rcases hr with hr | hr <;> simp [hr]))

/-- With the measurement as recorded, a run that evaluates nothing goes on with its next grain. -/
theorem replayGrain_runs (hc : r.cur = none) (hm : s.inMode .replay = true) (hd : measDiffers s r = false) : exec .replayGrain s = .next (runGrain s) := by
  have hmeas : measCheck s = s := by
    unfold measCheck
    rw [h]
    exact if_neg (by simp [hd])
  show execReplayGrain s = _
  unfold execReplayGrain
  rw [h]
  exact next_congr ((if_neg (by simp [hc, hm])).trans (by rw [hmeas]))

theorem runGrain_ends (hg : recGrain s r.tenant r.pos = none) : runGrain s = advanceRun s := by
  unfold runGrain
  rw [h]
  dsimp only
  rw [hg]

theorem runGrain_evaluates (hg : recGrain s r.tenant r.pos = some g) (hi : g.input = some i) (ht : g.hdr.typ = 1 ∨ g.hdr.typ = 2) :
    runGrain s = { s with rpl.run := some { r with cur := some (runInput g i) } } := by
  unfold runGrain
  rw [h]
  dsimp only
  rw [hg]
  dsimp only
  rw [hi]
  exact if_pos ht

theorem runGrain_writes (hg : recGrain s r.tenant r.pos = some g) (hi : g.input = none ∨ (g.hdr.typ ≠ 1 ∧ g.hdr.typ ≠ 2)) :
    runGrain s = writeRecorded (applySales s r.tenant g.hdr g.body) := by
  unfold runGrain
  rw [h]
  dsimp only
  rw [hg]
  dsimp only
  rcases hi with hi | ⟨h1, h2⟩
  · rw [hi]
  · cases g.input with
    | none => rfl
    | some i => exact if_neg (not_or.mpr ⟨h1, h2⟩)

end

theorem telemetrySecond_forms (h5 : s.sec.s5done = true) (h0 : nowSec s ≠ 0) (hf : formed s 0 (nowSec s - 1) = false)
    (hs1 : s1 = (List.range 102).foldl (fun a ch => putSecond a (nowSec s - 1) ch) s) :
    exec .telemetrySecond s = .next { s1 with hlt.samples := [], hlt.latencies := [], hlt.elogSaved := s1.hlt.elog, hlt.lostSaved := (s1.hlt.lost, s1.hlt.lostSaid) } := by
  rw [hs1]
  exact if_neg (by simp [h5, h0, hf])

theorem telemetrySummary_forms (h5 : s.sec.s5done = true) : exec .telemetrySummary s = .next (summarize (summarize s 1) 2) :=
  next_congr (if_pos h5)

/-- The start of the last period of a tier that has ended. -/
abbrev lastPeriod (s : State) (tier : Nat) : Nat := (nowSec s / tierPeriod tier - 1) * tierPeriod tier

theorem summarize_formed {tier : Nat} (h : formed s tier (lastPeriod s tier) = true) : summarize s tier = s :=
  if_pos (by rw [h, Bool.or_true])

theorem summarize_forms {tier : Nat} (h0 : nowSec s ≥ tierPeriod tier) (h : formed s tier (lastPeriod s tier) = false) :
    summarize s tier = (List.range 102).foldl (fun a ch => { a with hlt.tiers := ins a.hlt.tiers (tmKey tier ch (lastPeriod s tier)) (summary a tier ch (lastPeriod s tier)) }) s :=
  if_neg (by rw [h, Bool.or_false, decide_eq_true_eq]; exact Nat.not_lt.mpr h0)

end

/-- Settles O34: what each row of the records writes, and when it writes nothing. -/
theorem recordsComplete : Obligations.RecordsComplete := by
  unfold Obligations.RecordsComplete
  intro s s1 vals ended r g i
  refine ⟨countsWrite_writes, replayGrain_none, fun h => ⟨replayGrain_idle h, fun hc hm hd => ?replay⟩, fun h => next_congr (if_neg (by simp [h])), fun h => next_congr (if_pos h),
    telemetrySecond_forms, ?notFormed, ?hour, ?minute, fun h => next_congr (if_neg (by simp [h]))⟩
  case replay =>
    rw [replayGrain_runs h hc hm hd]
    exact ⟨fun hg => next_congr (runGrain_ends h hg),
      fun hg => ⟨fun hi ht => next_congr (runGrain_evaluates h hg hi ht), fun hi => next_congr (runGrain_writes h hg hi)⟩⟩
  case notFormed => exact fun h => if_pos h
  case hour =>
    intro h5 h0 h1 h2
    rw [telemetrySummary_forms h5, summarize_formed h1, summarize_forms h0 h2]
  case minute =>
    intro h5 h0 h1 hs1
    rw [telemetrySummary_forms h5, summarize_forms h0 h1, hs1]

/-! ### Events of the consoles (R49, R549, R550, R554, R556, R558 to R560, R565) -/

section
variable {s s1 : State} {c code cjn t : Nat} {h : Chal} {k : Cmd}

theorem badLine_reads (hr : readsLine s c = true) : badLine s c code =
    sendReply (bumpWrap (updCon s c (fun k => { k with lastLine := s.tim.ticks, chal := none })) bCON (0x100 + 0x20 * c + 0x0C) 0 32 1) c 0 (reply code [] []) :=
  if_neg (by simp [hr])

theorem badLine_deaf (hr : readsLine s c = false) : exec (.badLine c code) s = .next s := by
  have hbad : badLine s c code = s := if_pos hr
  show Host.Outcome.next (if _ then badLine s c code else s) = _
  rw [hbad, ite_self]

theorem challengeTimeout_none (hc : (getCon s c).chal = none) : exec (.challengeTimeout c) s = .next s := by
  show execChallengeTimeout c s = _
  unfold execChallengeTimeout
  rw [hc]

theorem challengeTimeout_some (hc : (getCon s c).chal = some h) :
    exec (.challengeTimeout c) s = .next (if s.since h.since ≥ ticksOfS 60 then updCon s c (fun k => { k with chal := none }) else s) := by
  show execChallengeTimeout c s = _
  unfold execChallengeTimeout
  rw [hc]

theorem authLockExpire_none (hl : (getCon s c).lockUntil = none) : exec (.authLockExpire c) s = .next s := by
  show execAuthLockExpire c s = _
  unfold execAuthLockExpire
  rw [hl]

theorem authLockExpire_some (hl : (getCon s c).lockUntil = some t) :
    exec (.authLockExpire c) s = .next (if t ≤ s.tim.ticks then updCon s c (fun k => { k with lockUntil := none }) else s) := by
  show execAuthLockExpire c s = _
  unfold execAuthLockExpire
  rw [hl]

theorem commandReplyRelease_none (hk : s.con.cmds.find? (fun c => c.cjn == cjn && c.grained) = none) : exec (.commandReplyRelease cjn) s = .next s := by
  show execCommandReplyRelease cjn s = _
  unfold execCommandReplyRelease
  rw [hk]

theorem commandReplyRelease_some (hk : s.con.cmds.find? (fun c => c.cjn == cjn && c.grained) = some k) :
    exec (.commandReplyRelease cjn) s = .next (if cmdDurable s cjn then
      resetIfAsked (tryCj (sendReply (keepRecord { s with con.cmds := s.con.cmds.filter (fun k => k.cjn ≠ cjn) } k) k.con cjn k.reply)) else s) := by
  show execCommandReplyRelease cjn s = _
  unfold execCommandReplyRelease
  rw [hk]

theorem ticksOfS_900 : ticksOfS 900 = 720000000000 := by norm_num [ticksOfS]

end

/-- Settles O35: what a console's events do to its authority, its challenge and the replies that wait. -/
theorem consoleEventsComplete : Obligations.ConsoleEventsComplete := by
  unfold Obligations.ConsoleEventsComplete
  intro s s1 c code cjn t h k
  refine ⟨?brk, fun h => ⟨next_congr (if_pos h), if_pos h⟩, ?bad, badLine_deaf, ?void, ?keeps, ?idle, ?notIdle, fun h => if_neg h, ?audit, ?expires, ?locked,
    fun hk => ⟨?release, ?waits⟩, commandReplyRelease_none, ?rts⟩
  case brk =>
    rintro hc hh rfl
    exact next_congr (if_neg (by simp [hc, hh]))
  case bad =>
    intro hcode hr
    rw [← badLine_reads hr]
    exact next_congr (if_pos (by simpa using hcode))
  case void =>
    intro hc ht
    rw [challengeTimeout_some hc, ticksOfS_60]
    exact next_congr (if_pos ht)
  case keeps =>
    rintro (hc | ⟨hc, ht⟩)
    · exact challengeTimeout_none hc
    · rw [challengeTimeout_some hc, ticksOfS_60]
      exact next_congr (if_neg (Nat.not_le.mpr ht))
  case idle =>
    intro hc ht
    rw [← ticksOfS_900] at ht
    exact next_congr (if_pos ⟨hc, ht⟩)
  case notIdle =>
    intro h
    rw [← ticksOfS_900] at h
    exact next_congr (if_neg fun ⟨hc, ht⟩ => h.elim (Nat.not_le.mpr hc) (Nat.not_lt.mpr ht))
  case audit =>
    rintro rfl
    refine ⟨fun ha hold => ?_, fun h => ?_⟩
    · exact if_pos (by rw [Bool.and_eq_true]; exact ⟨ha, hold⟩)
    · refine if_neg ?_
      rw [Bool.and_eq_true]
      exact fun ⟨ha, hold⟩ => h.elim (fun h => Bool.false_ne_true (h.symm.trans ha)) fun h => Bool.false_ne_true (h.symm.trans hold)
  case expires =>
    intro hl ht
    rw [authLockExpire_some hl, if_pos ht]
  case locked =>
    rintro (hl | ⟨hl, ht⟩)
    · exact authLockExpire_none hl
    · rw [authLockExpire_some hl, if_neg (Nat.not_le.mpr ht)]
  case release =>
    rintro hd rfl
    rw [commandReplyRelease_some hk, if_pos hd]
  case waits =>
    intro hd
    rw [commandReplyRelease_some hk, if_neg (by simp [hd])]
  case rts =>
    rintro hc hh rfl
    exact if_neg (by simp [hc, hh])

end Sys2Proof.Machine
end

section
/-! PROOFS. Console commands (R57 to R61, R110 to R118, R143 to R155, R557 to R590; O37, O39 to O44): what a line that nothing refuses
replies or waits for, and then each command's action, refusal by refusal. -/
namespace Sys2Proof.Machine

open Sys2Proof

-- Each proof is checked before the next begins, so that no more than one is held in memory.
set_option Elab.async false

/-! ### The reply of a line that nothing refuses before its action -/

section
variable {i : Instr} {l : ConLine} {sp sp' : CmdSpec} {act : Nat → State → ActRes} {s u v : State} {code : Nat} {vals : List Int} {bytes : List Byte}

/-- A line whose action forms its reply at once answers with it. -/
theorem answers_of (hrow : exec i s = .next (runCmd l sp' act s)) (h : Admits l sp s) (hsp : sp' = sp)
    (hu : u = begun l sp.keepChal s) (ha : act s.con.nextCjn u = ⟨v, reply code vals bytes, .formed⟩) : Answers i s v code vals bytes := by
  subst hsp hu
  exact hrow.trans (congrArg _ (runCmd_formed h ha))

/-- A line whose action waits leaves its command in that phase. -/
theorem waits_of {r : ConReply} {p : Phase} (hrow : exec i s = .next (runCmd l sp' act s)) (h : Admits l sp s) (hsp : sp' = sp)
    (hu : u = begun l sp.keepChal s) (ha : act s.con.nextCjn u = ⟨v, r, p⟩) (hp : p ≠ .formed) :
    exec i s = .next { v with con.cmds := v.con.cmds.map (fun k => if k.cjn = s.con.nextCjn then { k with phase := p, reply := r } else k) } := by
  subst hsp hu
  exact hrow.trans (congrArg _ (runCmd_waits h ha hp))

theorem begun_sec {keep : Bool} : (begun l keep s).sec = s.sec := rfl

theorem begun_tim {keep : Bool} : (begun l keep s).tim = s.tim := rfl

end

/-! ### Authority (R557 to R561) -/

section
variable {s u : State} {l : ConLine} {sp : CmdSpec} {act : Nat → State → ActRes} {i : Instr} {level : Auth} {c n : Nat} {sig : List Byte} {h : Chal} {fails : List Nat}

theorem authLine_untagged (ht : l.tag = []) : authLine l sp act s = runCmd l sp act s := if_pos (by simp [ht])

theorem authLine_tagged (ht : l.tag ≠ []) : authLine l sp act s = badLine s l.con 0x0103 := if_neg (by simp [ht])

theorem challenge_locked (h : authLocked s l.con = true) : challenge l level n s = err s eAUTH_LOCKED [] := if_pos h

theorem challenge_draws {u1 u2 u3 u4 : State} {b1 b2 b3 b4 : BitVec 64} (h : authLocked u l.con = false) (h1 : (b1, u1) = drawFree u)
    (h2 : (b2, u2) = drawFree u1) (h3 : (b3, u3) = drawFree u2) (h4 : (b4, u4) = drawFree u3) :
    challenge l level n u = okB (updCon u4 l.con (fun k => { k with chal := some ⟨level, n, [b1, b2, b3, b4], u.tim.ticks⟩ })) []
      (be 8 b1.toNat ++ be 8 b2.toNat ++ be 8 b3.toNat ++ be 8 b4.toNat) := by
  rw [challenge, h, if_neg (by decide)]
  dsimp only
  rw [← h1]
  dsimp only
  rw [← h2]
  dsimp only
  rw [← h3]
  dsimp only
  rw [← h4]
  simp

theorem ticksOfS_600 : ticksOfS 600 = 480000000000 := by norm_num [ticksOfS]

theorem getCon_updCon_self {f : Console → Console} (hc : c < s.con.cons.length) : getCon (updCon s c f) c = f (getCon s c) := by
  unfold getCon
  rw [updCon_con_cons, upd_get, if_pos rfl, List.getElem?_eq_getElem hc]
  rfl

theorem getCon_authFailed (hc : c < s.con.cons.length) (hf : fails = s.tim.ticks :: (getCon s c).fails.filter (fun t => decide (s.tim.ticks - t < 480000000000))) :
    getCon (authFailed s c) c = { getCon s c with chal := none, fails := fails.take 3, lockUntil := if fails.length ≥ 3 then some (s.tim.ticks + 480000000000) else (getCon s c).lockUntil } := by
  rw [← ticksOfS_600] at hf ⊢
  subst hf
  exact getCon_updCon_self hc

theorem responseKey_none (hc : (getCon s c).chal = none) : responseKey s c sig = none := by
  unfold responseKey
  rw [hc]

theorem responseKey_late (hc : (getCon s c).chal = some h) (ht : s.tim.ticks - h.since ≥ ticksOfS 60) : responseKey s c sig = none := by
  unfold responseKey
  rw [hc]
  exact if_pos ht

theorem responseKey_some {key : Digest} {slot : Option Nat} (hc : (getCon s c).chal = some h) (ht : s.tim.ticks - h.since < ticksOfS 60)
    (hk : levelKey s h.level = some (key, slot)) : responseKey s c sig = if Config.keyVerify key (authMessage c h) sig then some (h, slot) else none := by
  unfold responseKey
  rw [hc]
  refine (if_neg (Nat.not_le.mpr ht)).trans ?_
  rw [hk]

end

/-- Settles O37: each AUTH line, and what a failed response leaves. -/
theorem authorityCommandsComplete : Obligations.AuthorityCommandsComplete := by
  unfold Obligations.AuthorityCommandsComplete
  intro s u u1 u2 u3 u4 l n i level cons b1 b2 b3 b4 sig h slot fails hn
  subst hn
  refine ⟨fun hi => ?challenge, fun ht hsig had hu => ⟨?verified, ?failed⟩, fun ht had hu => ?drop, fun hc hlen hf => ?fails,
    fun c => responseKey_none, fun c hc ht => responseKey_late hc (by rwa [ticksOfS_60]), fun c key hc ht hk => responseKey_some hc (by rwa [ticksOfS_60]) hk⟩
  case challenge =>
    have hrow : exec i s = .next (authLine l (authSpec cons false) (challenge l level) s) := by
      rcases hi with ⟨rfl, rfl, rfl⟩ | ⟨rfl, rfl, rfl⟩ | ⟨rfl, rfl, rfl⟩ <;> rfl
    refine ⟨?_, fun ht => by rw [hrow, authLine_tagged ht]⟩
    intro ht had hu
    rw [authLine_untagged ht] at hrow
    exact ⟨fun hl => answers_of hrow had rfl hu (challenge_locked hl), fun hl h1 h2 h3 h4 => answers_of hrow had rfl hu (challenge_draws hl h1 h2 h3 h4)⟩
  case verified =>
    intro hk
    refine answers_of (congrArg _ (authLine_untagged ht)) had (by simp [hsig, authSpec]) hu ?_
    rw [hk]
    rfl
  case failed =>
    intro hk
    refine answers_of (congrArg _ (authLine_untagged ht)) had (by simp [hsig, authSpec]) hu ?_
    rw [hk]
    rfl
  case drop =>
    exact ⟨answers_of (congrArg _ (authLine_untagged ht)) had rfl hu rfl, answers_of (congrArg _ (authLine_untagged ht)) had rfl hu rfl⟩
  case fails =>
    rw [getCon_authFailed (hlen.symm ▸ hc) hf]
    exact ⟨rfl, rfl, fun h3 => if_pos h3, fun h3 => if_neg (Nat.not_le.mpr h3), rfl⟩

/-! ### Commissioning (R110 to R112, R115, R483, R560, R584) -/

section
variable {s : State} {l : ConLine} {f : List Byte → ActRes} {v hold : State} {r : ActRes} {n i role slot : Nat} {hash : Digest} {b : List Byte} {x : Role} {d : Decl} {ok' : Bool}

/-- What a command does with the bytes of a closed buffer, where it refuses. -/
theorem consume1_refuses {code : Nat} {vals : List Int} (h : (stageOf s l.con).st = .closed) (e : f (stagedBytes (stageOf s l.con)) = err v code vals)
    (hcode : code ≠ 0) : consume1 l f s = err v code vals := consume1_err h e hcode

/-- What a command does with the bytes of a closed buffer, where it succeeds: the buffer is empty. -/
theorem consume1_answers {vals : List Int} {bytes : List Byte} (h : (stageOf s l.con).st = .closed) (e : f (stagedBytes (stageOf s l.con)) = okB v vals bytes) :
    consume1 l f s = okB (unstaged v l.con) vals bytes := consume1_ok h e rfl

end

/-- Settles O39: each one-time value is written once, in its order, and a fuse that never reads back enters HOLD. -/
theorem commissioningComplete : Obligations.CommissioningComplete := by
  unfold Obligations.CommissioningComplete
  intro s u hold u1 l n role slot i r hash b x d fuseOk hn hu hhold hb
  subst hn hhold hb
  refine ⟨fun had => ⟨fun h1 h2 => ⟨?jhash, ?jhashHold⟩, answers_of rfl had rfl hu rfl, ?jhashOnce, ?jhashKey⟩, fun had => ⟨fun hst => ?opkeyNo, fun hst => ⟨?opkeyArgs, ?opkeyOrder, ?opkeyOnce, ?opkey⟩⟩,
    fun hx had => ⟨?roleOrder, ?roleOnce, ?roleSet⟩, fun hs had => ⟨?revokeOnce, ?revoke⟩, fun had => ⟨fun hst => ?declNo, fun hst => ⟨?declArgs, ?declSig, ?decl⟩⟩, ?commit⟩
  case jhash => exact answers_of rfl had rfl hu ((if_neg (by decide)).trans ((if_neg (by simp [h1])).trans (if_neg (not_not.mpr h2))))
  case jhashHold => exact answers_of rfl had rfl hu ((if_neg (by decide)).trans ((if_neg (by simp [h1])).trans (if_neg (not_not.mpr h2))))
  case jhashOnce => exact fun h => answers_of rfl had rfl hu ((if_neg (by decide)).trans (if_pos h))
  case jhashKey => exact fun h1 h2 => answers_of rfl had rfl hu ((if_neg (by decide)).trans ((if_neg (by simp [h1])).trans (if_pos h2)))
  case opkeyNo => exact answers_of rfl had rfl hu (consume1_no hst)
  case opkeyArgs => exact fun hlen => answers_of rfl had rfl hu (consume1_refuses hst (if_pos hlen) (by decide))
  case opkeyOrder => exact fun hlen hj => answers_of rfl had rfl hu (consume1_refuses hst ((if_neg (not_not.mpr hlen)).trans (if_pos hj)) (by decide))
  case opkeyOnce =>
    intro hlen hj hf
    refine answers_of rfl had rfl hu (consume1_refuses hst ((if_neg (not_not.mpr hlen)).trans ((if_neg (by rw [hj]; decide)).trans ?_)) (by decide))
    rw [hf]
  case opkey =>
    intro hlen hj hf
    refine ⟨answers_of rfl had rfl hu (consume1_answers hst ((if_neg (not_not.mpr hlen)).trans ((if_neg (by rw [hj]; decide)).trans ?_))),
      answers_of rfl had rfl hu (consume1_refuses hst ((if_neg (not_not.mpr hlen)).trans ((if_neg (by rw [hj]; decide)).trans ?_)) (by decide))⟩
    · rw [hf]
      rfl
    · rw [hf]
      rfl
  case roleOrder => exact fun h => answers_of rfl had (by rw [hx]; rfl) hu (if_pos h)
  case roleOnce => exact fun h h1 => answers_of rfl had (by rw [hx]; rfl) hu ((if_neg h).trans (if_pos h1))
  case roleSet =>
    intro h h1
    refine ⟨answers_of rfl had (by rw [hx]; rfl) hu ((if_neg h).trans ((if_neg (not_not.mpr h1)).trans ?_)),
      answers_of rfl had (by rw [hx]; rfl) hu ((if_neg h).trans (if_neg (not_not.mpr h1)))⟩
    rw [hx]
    rfl
  case revokeOnce => exact fun h => answers_of rfl had (by rw [decide_eq_true hs]) hu (if_pos h)
  case revoke =>
    rintro h rfl
    exact ⟨answers_of rfl had (by rw [decide_eq_true hs]) hu (if_neg (ne_true_of_eq_false h)), answers_of rfl had (by rw [decide_eq_true hs]) hu (if_neg (ne_true_of_eq_false h))⟩
  case declNo => exact answers_of rfl had rfl hu (consume1_no hst)
  case declArgs =>
    intro hd
    refine answers_of rfl had rfl hu (consume1_refuses hst ?_ (by decide))
    rw [hd]
  case declSig =>
    intro hd hsig
    refine answers_of rfl had rfl hu (consume1_refuses hst ?_ (by decide))
    rw [hd]
    exact if_pos hsig
  case decl =>
    rintro hd hsig rfl
    refine ⟨fun hw => ?_, fun hw => ?_⟩
    · refine answers_of rfl had rfl hu (consume1_answers hst ?_)
      rw [hd]
      exact (if_neg hsig).trans (if_pos hw)
    · refine answers_of rfl had rfl hu (consume1_answers hst ?_)
      rw [hd]
      exact (if_neg hsig).trans (if_neg (ne_true_of_eq_false hw))
  case commit =>
    rintro had rfl
    exact ⟨answers_of rfl had rfl hu rfl, answers_of rfl had rfl hu rfl⟩

/-! ### Keys, images, rule programs and dictionaries (R114, R118, R391, R432, R580, R585) -/

section
variable {s u : State} {l : ConLine} {t : Nat}

theorem spec_of_lt {a : Auth} {modes : List DMode} {k : Nat} (h : t < k) : spec a modes (decide (t < k)) = spec a modes true := by
  rw [decide_eq_true h]

theorem specOn_of_lt {a : Auth} {cons : List Nat} {modes : List DMode} {s9 : Bool} {k : Nat} (h : t < k) :
    specOn a cons modes s9 (decide (t < k)) = specOn a cons modes s9 true := by
  rw [decide_eq_true h]

/-- A faulty envelope is refused with a code of its own. -/
theorem envelopeCode_ne (x : Nat) : (if x = mkVERSION then eVERSION else if x = mkSIGNATURE ∨ x = mkUNWRAP then eSIGNATURE else eENVELOPE) ≠ 0 := by
  split
  · decide
  · split <;> decide

theorem imageSlot_begun {slot : Option Nat} (hu : u = begun l false s) : imageSlot u slot = imageSlot s slot := by
  rw [hu]
  rfl

end

/-- Settles O40: what each command does with the bytes of its closed buffer, and its refusals. -/
theorem keysAndImagesComplete : Obligations.KeysAndImagesComplete := by
  unfold Obligations.KeysAndImagesComplete
  intro s u s1 l n t i x b key e slot im r hn hu hb he ht
  subst hn hb he
  refine ⟨fun hst => ⟨fun had => ?_, fun had => ?_, fun hslot had => ?_, fun had => ⟨?_, ?_⟩⟩, fun hst => ⟨fun had => ?importKey, fun had => ?openMgmt, fun hslot had => ?image, fun had => ?rulesDict⟩⟩
  · exact answers_of rfl had (spec_of_lt ht) hu (consume1_no hst)
  · exact answers_of rfl had rfl hu (consume1_no hst)
  · exact answers_of rfl had (by rw [hslot]) hu (consume1_no hst)
  · exact answers_of rfl had (spec_of_lt ht) hu (consume1_no hst)
  · exact answers_of rfl had (spec_of_lt ht) hu (consume1_no hst)
  case importKey =>
    have hsp := spec_of_lt (a := .engineer) (modes := [.live, .quiet]) ht
    refine ⟨fun hl => ?_, fun hl htgt => ?_, fun hl htgt hk => ?_, fun hl htgt hk => ?_⟩
    · exact answers_of rfl had hsp hu (consume1_refuses hst (if_pos hl) (by decide))
    · exact answers_of rfl had hsp hu (consume1_refuses hst ((if_neg (not_not.mpr hl)).trans (if_pos htgt)) (by decide))
    · refine answers_of rfl had hsp hu (consume1_refuses hst ((if_neg (not_not.mpr hl)).trans ((if_neg (not_not.mpr htgt)).trans ?_)) (envelopeCode_ne x))
      rw [hk]
      rfl
    · refine answers_of rfl had hsp hu (consume1_answers hst ((if_neg (not_not.mpr hl)).trans ((if_neg (not_not.mpr htgt)).trans ?_)))
      rw [hk]
      rfl
  case openMgmt =>
    refine ⟨fun hl => ?_, fun hl hk => ?_, fun hl hk => ⟨fun h1 => ?_, fun h1 h2 => ?_, fun h1 h2 => ?_⟩⟩
    · exact answers_of rfl had rfl hu (consume1_refuses hst (if_pos hl) (by decide))
    · refine answers_of rfl had rfl hu (consume1_refuses hst ((if_neg (not_not.mpr hl)).trans ?_) (envelopeCode_ne x))
      rw [hk]
      rfl
    · refine answers_of rfl had rfl hu (consume1_refuses hst ((if_neg (not_not.mpr hl)).trans ?_) (by decide))
      rw [hk]
      exact if_pos h1
    · refine answers_of rfl had rfl hu (consume1_refuses hst ((if_neg (not_not.mpr hl)).trans ?_) (by decide))
      rw [hk]
      exact (if_neg (ne_true_of_eq_false h1)).trans (if_pos h2)
    · refine answers_of rfl had rfl hu (consume1_answers hst ((if_neg (not_not.mpr hl)).trans ?_))
      rw [hk]
      exact (if_neg (ne_true_of_eq_false h1)).trans (if_neg (Nat.not_le.mpr h2))
  case image =>
    have himg := (imageSlot_begun (slot := slot) hu).trans hslot
    have hsome : (imageSlot s slot).isSome = true := by rw [hslot]; rfl
    refine ⟨?_, fun hv => ?_, fun hv hr => ?_, fun hv hr hs1 => ?_⟩
    · exact answers_of rfl had (by rw [hsome]) hu (consume1_refuses hst rfl (by decide))
    · refine answers_of rfl had (by rw [hsome]) hu (consume1_refuses hst ?_ (by decide))
      rw [himg]
      exact if_pos hv
    · refine answers_of rfl had (by rw [hsome]) hu (consume1_refuses hst ?_ (by decide))
      rw [himg]
      exact (if_neg (by rw [hv]; decide)).trans (if_pos hr)
    · have h5 : u.sec.s5done = true := by rw [hu]; exact had.2.1
      subst hs1
      refine waits_of rfl had (by rw [hsome]) hu (consume1_ok hst ?_ rfl) nofun
      rw [himg]
      refine (if_neg (by rw [hv]; decide)).trans ((if_neg (Nat.not_lt.mpr hr)).trans ?_)
      dsimp only
      rw [h5, if_pos rfl]
  case rulesDict =>
    have hsp := spec_of_lt (a := .engineer) (modes := [.quiet]) ht
    refine ⟨fun hp => ?_, fun hp hr => ?_, fun hp hr hs => ?_, fun hp hr hs hs1 => ?_, fun hl => ?_, fun hl hs => ?_, fun hl hs hs1 => ?_⟩
    · refine answers_of rfl had hsp hu (consume1_refuses hst ?_ (by decide))
      rw [hp]
    · refine answers_of rfl had hsp hu (consume1_refuses hst ?_ (by decide))
      rw [hp]
      exact if_pos hr
    · refine answers_of rfl had hsp hu (consume1_refuses hst ?_ (by decide))
      rw [hp]
      exact (if_neg (not_not.mpr hr)).trans (if_pos hs)
    · subst hs1
      refine answers_of rfl had hsp hu (consume1_answers hst ?_)
      rw [hp]
      exact (if_neg (not_not.mpr hr)).trans (if_neg (by rw [hs]; decide))
    · exact answers_of rfl had hsp hu (consume1_refuses hst (if_pos hl) (by decide))
    · exact answers_of rfl had hsp hu (consume1_refuses hst ((if_neg (Nat.not_lt.mpr hl)).trans (if_pos (by rw [hs]; rfl))) (by decide))
    · subst hs1
      exact answers_of rfl had hsp hu (consume1_answers hst ((if_neg (Nat.not_lt.mpr hl)).trans (if_neg (by rw [hs]; decide))))

/-! ### Commands of the time (R143, R144, R153 to R155) -/

theorem stepSpec_keepChal (s : State) (good : Bool) : (stepSpec s good).keepChal = false := by
  unfold stepSpec
  split <;> rfl

/-- Settles O41: LOAD LEAPS, SET TIME, STEP TIME and SET TIMEREF, each with its refusals. -/
theorem timeCommandsComplete : Obligations.TimeCommandsComplete := by
  unfold Obligations.TimeCommandsComplete
  intro s u s1 s2 l n e us ref t v tab b at_ off on hn hu hb
  subst hn hb
  refine ⟨fun had => ⟨fun hst => ?_, fun hst hp => ?_, fun hst hp hbad => ?_, fun hst hp h1 h2 hs1 => ?_⟩, fun ht hus had => ?setTime, fun href had => ?stepTime,
    fun href had hv => ?timeref, fun h => if_pos ?_, fun h1 h2 => if_neg ?_⟩
  · exact answers_of rfl had rfl hu (consume1_no hst)
  · refine answers_of rfl had rfl hu (consume1_refuses hst ?_ (by decide))
    rw [hp]
  · refine answers_of rfl had rfl hu (consume1_refuses hst ?_ (by decide))
    rw [hp]
    exact if_pos hbad
  · subst hs1
    refine answers_of rfl had rfl hu (consume1_answers hst ?_)
    rw [hp]
    exact if_neg (by simp [h1, h2])
  case setTime =>
    have hsp : specOn .regulate [1] [.sealed] false ((toTai s at_).isSome && decide (us < 2 ^ 64)) = specOn .regulate [1] [.sealed] false true := by
      rw [ht, decide_eq_true hus]
      rfl
    have htai : toTai u at_ = some t := by rw [hu]; exact ht
    refine ⟨fun h8 => answers_of rfl had hsp hu (if_pos h8), fun h8 hs1 => answers_of rfl had hsp hu ((if_neg (by rw [h8]; decide)).trans ?_)⟩
    rw [htai]
    subst hs1
    rfl
  case stepTime =>
    have hsp : stepSpec s (decide (ref < 4)) = stepSpec s true := by rw [decide_eq_true href]
    have hu2 : u = begun l (stepSpec s true).keepChal s := by rw [stepSpec_keepChal]; exact hu
    refine ⟨fun hg => answers_of rfl had hsp hu2 (if_pos hg), ?_⟩
    rintro hg rfl rfl
    exact answers_of rfl had hsp hu2 (if_neg (by rw [hg]; decide))
  case timeref =>
    subst hv
    exact answers_of rfl had (specOn_of_lt href) hu rfl
  · rw [Bool.or_eq_true, beq_iff_eq]
    exact h
  · rw [Bool.or_eq_true, beq_iff_eq, h1]
    exact fun h => h.elim Bool.false_ne_true h2

/-! ### Commands of books and tenants (R57 to R61, R161, R586 to R588) -/

section
variable {i : Instr} {l : ConLine} {sp sp' : CmdSpec} {act : Nat → State → ActRes} {s u v : State} {code r n : Nat} {vals : List Int} {bytes : List Byte}
  {t b : Nat} {causes : List Nat} {at_ : Option Instant} {margin : Option Nat}

section
variable (hrow : exec i s = bookLine l sp' act s) (h : Admits l sp s) (hsp : sp' = sp) (hu : u = begun l sp.keepChal s)
include hrow h hsp hu

theorem book_refused (hrole : u.role = .shadow ∨ u.role = .lab) : Answers i s u eROLE [] [] :=
  answers_of hrow h hsp hu (if_pos hrole)

theorem book_answers (hrole : ¬ (u.role = .shadow ∨ u.role = .lab)) (ha : act s.con.nextCjn u = ⟨v, reply code vals bytes, .formed⟩) :
    Answers i s v code vals bytes :=
  answers_of hrow h hsp hu ((if_neg hrole).trans ha)

end

/-! What a BOOKCMD operation answers, by its reason. -/

theorem bookDone_done (h : r = 0) : bookDone v r vals = ok v vals := if_pos h

theorem bookDone_state (h : r = 1) : bookDone v r vals = err v eSTATE [] := by
  subst h
  rfl

theorem bookDone_window (h : r = 2) : bookDone v r vals = err v eWINDOW [] := by
  subst h
  rfl

theorem bookDone_mode (h : r = 3) : bookDone v r vals = err v eMODE [(modeCode v : Int)] := by
  subst h
  rfl

theorem bookDone_quality (h : r > 3) : bookDone v r vals = err v eQUALITY [] := by
  rw [bookDone, if_neg (by omega), bookErr, if_neg (by omega), if_neg (by omega), if_neg (by omega)]

theorem resumed_done (h : bookReason v = 0 ∨ bookReason v = 2) : resumed v n vals = ok v ([(n : Int), bookEff v] ++ vals) := by
  refine bookDone_done ?_
  rcases h with h | h <;> simp [h]

theorem resumed_other (h : bookReason v ≠ 2) : resumed v n vals = bookDone v (bookReason v) ([(n : Int), bookEff v] ++ vals) := by
  rw [resumed, if_neg h]

/-! The arguments of the rows. -/

theorem bookArgs_tenant (h : bookArgs t b = true) : bookArgs t 0 = true ∧ t < 64 := by
  unfold bookArgs at h ⊢
  have ⟨ht, _⟩ := of_decide_eq_true h
  exact ⟨decide_eq_true ⟨ht, by omega⟩, ht⟩

theorem setBookSpec_keepChal : (setBookSpec s t b at_ margin).keepChal = false :=
  (apply_ite CmdSpec.keepChal _ _ _).trans (ite_self _)

theorem resumeSpec_good (hb : bookArgs t b = true) (hc : causes.all (fun c => decide (c < 7)) = true) (hd : causes.Nodup) :
    spec (resumeAuth causes) [.live, .quiet] (bookArgs t b && causes.all (fun c => decide (c < 7)) && decide causes.Nodup) =
      spec (resumeAuth causes) [.live, .quiet] true := by
  rw [hb, hc, decide_eq_true hd]
  rfl

end

/-- Settles O42: one BOOKCMD operation each with its values or the refusal of its reason; on a SHADOW or a LAB only ROLE. -/
theorem bookCommandsComplete : Obligations.BookCommandsComplete := by
  unfold Obligations.BookCommandsComplete
  intro s u v s1 s2 l i sp n t b r k scope mask pb m at_ margin causes body vals hn hu hargs hkeep
  subst hn
  obtain ⟨hargs0, ht⟩ := bookArgs_tenant hargs
  have hdev : bookArgs 0 0 = true := rfl
  refine ⟨fun hi had hrole => ?role, fun hrole => ⟨fun had => ⟨fun hi hr => ?moved, fun hv => ?suspendTenant, fun hst => ?settleNo, fun hst hbody => ?settle, fun hs => ?releaseState,
    fun hs hset => ?releaseNo, fun hs hset hv => ?release⟩, fun had hpb hm hr hv => ?setBook, fun hc hd had hmask hi hr => ?resume⟩⟩
  case role =>
    have hu2 : u = begun l sp.keepChal s := by rw [hkeep]; exact hu
    have hsp : spec .operate [.live, .quiet] (bookArgs t b) = spec .operate [.live, .quiet] true := by rw [hargs]
    rcases hi with ⟨rfl | rfl | rfl | rfl, rfl⟩ | ⟨rfl, rfl⟩ | ⟨rfl, rfl⟩ | ⟨rfl | rfl | rfl, hc, hd, rfl⟩
    · exact book_refused rfl had hsp hu2 hrole
    · exact book_refused rfl had hsp hu2 hrole
    · exact book_refused rfl had hsp hu2 hrole
    · exact book_refused rfl had hsp hu2 hrole
    · exact book_refused rfl had (spec_of_lt ht) hu2 hrole
    · exact book_refused rfl had rfl hu2 hrole
    · exact book_refused rfl had (resumeSpec_good hargs hc hd) hu2 hrole
    · exact book_refused rfl had (resumeSpec_good hargs0 hc hd) hu2 hrole
    · exact book_refused rfl had (resumeSpec_good hdev hc hd) hu2 hrole
  case moved =>
    have hsp : spec .operate [.live, .quiet] (bookArgs t b) = spec .operate [.live, .quiet] true := by rw [hargs]
    have answers : ∀ {code vals bytes}, bookDone v r [(s.con.nextCjn : Int), bookEff v, (k : Int)] = ⟨v, reply code vals bytes, .formed⟩ → Answers i s v code vals bytes := by
      intro code vals bytes ha
      subst hr
      rcases hi with ⟨rfl, rfl, rfl⟩ | ⟨rfl, rfl, rfl⟩
      · exact book_answers rfl had hsp hu hrole ha
      · exact book_answers rfl had hsp hu hrole ha
    exact ⟨fun h => answers (bookDone_done h), fun h => answers (bookDone_state h), fun h => answers (bookDone_window h), fun h => answers (bookDone_mode h), fun h => answers (bookDone_quality h)⟩
  case suspendTenant =>
    subst hv
    exact book_answers rfl had (spec_of_lt ht) hu hrole rfl
  case settleNo => exact book_answers rfl had (by rw [hargs]) hu hrole (consume1_no hst)
  case settle =>
    subst hbody
    refine ⟨fun hl => ?_, fun hl hs => ?_, ?_⟩
    · exact book_answers rfl had (by rw [hargs]) hu hrole (consume1_refuses hst (if_pos hl) (by decide))
    · exact book_answers rfl had (by rw [hargs]) hu hrole (consume1_refuses hst ((if_neg (Nat.not_lt.mpr hl)).trans (if_pos hs)) (by decide))
    · rintro hl hs rfl rfl
      exact book_answers rfl had (by rw [hargs]) hu hrole (consume1_answers hst ((if_neg (Nat.not_lt.mpr hl)).trans (if_neg hs)))
  case releaseState => exact book_answers rfl had (by rw [hargs]) hu hrole (if_pos hs)
  case releaseNo => exact book_answers rfl had (by rw [hargs]) hu hrole ((if_neg (not_not.mpr hs)).trans (if_pos hset))
  case release =>
    subst hv
    exact book_answers rfl had (by rw [hargs]) hu hrole ((if_neg (not_not.mpr hs)).trans (if_neg (by rw [hset]; decide)))
  case setBook =>
    have hu2 : u = begun l (setBookSpec s t b at_ margin).keepChal s := by rw [setBookSpec_keepChal]; exact hu
    have answers : ∀ {code vals bytes}, bookDone v r [(s.con.nextCjn : Int), bookEff v, ((getBook v t b).st.maj : Nat), (pb : Int), (m : Int)] = ⟨v, reply code vals bytes, .formed⟩ →
        Answers (.setBook l t b at_ margin) s v code vals bytes := by
      intro code vals bytes ha
      subst hr hv hm hpb
      exact book_answers rfl had rfl hu2 hrole ha
    exact ⟨fun h => answers (bookDone_done h), fun h => answers (bookDone_state h), fun h => answers (bookDone_window h), fun h => answers (bookDone_mode h)⟩
  case resume =>
    have answers : ∀ {code w bytes}, resumed v s.con.nextCjn vals = ⟨v, reply code w bytes, .formed⟩ → Answers i s v code w bytes := by
      intro code w bytes ha
      subst hmask
      rcases hi with ⟨rfl, rfl, rfl, rfl⟩ | ⟨rfl, rfl, rfl, rfl⟩ | ⟨rfl, rfl, rfl, rfl⟩
      · exact book_answers rfl had (resumeSpec_good hargs hc hd) hu hrole ha
      · exact book_answers rfl had (resumeSpec_good hargs0 hc hd) hu hrole ha
      · exact book_answers rfl had (resumeSpec_good hdev hc hd) hu hrole ha
    subst hr
    refine ⟨fun h => answers (resumed_done h), fun h => answers ?_, fun h => answers ?_, fun h => answers ?_⟩
    · rw [resumed_other (by omega), bookDone_state h]
      rfl
    · rw [resumed_other (by omega), bookDone_mode h]
      rfl
    · rw [resumed_other (by omega), bookDone_quality h]
      rfl

/-! ### Commands of the journal, the replay, the tamper latches and the mesh (R125, R413, R439, R512, R517, R535 to R537, R580, R589) -/

section
variable {s u : State} {l : ConLine} {t seq n : Nat} {pre : List Segment} {g z : Segment} {set journal : Bool}

/-- What RETIRE does with the segments that it names. -/
def retireAct (t seq n : Nat) (s : State) : ActRes :=
  match (retirePrefix s t seq).head?, (retirePrefix s t seq).getLast? with
  | some a, some z =>
    if !((retirePrefix s t seq).all (retireOk s t)) || dictKept s t (retirePrefix s t seq) then err s eRETAIN [] else retireNow s t n (retirePrefix s t seq) a z
  | _, _ => err s eNONE_ELIGIBLE []

theorem retire_row : exec (.retire l t seq) s =
    .next (runCmd l (specOn .regulate [1] [.live, .quiet] false (decide (t ≤ 64 ∧ seq < 2 ^ 64))) (retireAct t seq) s) := rfl

theorem retireAct_none (h : retirePrefix u t seq = []) : retireAct t seq n u = err u eNONE_ELIGIBLE [] := by
  unfold retireAct
  rw [h]
  rfl

theorem retireAct_some (hpre : pre = retirePrefix u t seq) (hg : pre.head? = some g) (hz : pre.getLast? = some z) :
    retireAct t seq n u = if !(pre.all (retireOk u t)) || dictKept u t pre then err u eRETAIN [] else retireNow u t n pre g z := by
  unfold retireAct
  rw [← hpre, hg, hz]

/-- The run, if any, uses tenant t. -/
theorem usesTenant_iff : (match u.rpl.run with | some r => r.tenant == t | none => false) = true ↔ ∃ r, u.rpl.run = some r ∧ r.tenant = t := by
  cases u.rpl.run with
  | none => simp
  | some r => simp

end

/-- Settles O43: the effect and the refusals of each command. -/
theorem journalCommandsComplete : Obligations.JournalCommandsComplete := by
  unfold Obligations.JournalCommandsComplete
  intro s u s0 s1 s2 l n t seq fr th mask kind a no x cross set journal key pre g z b e eui tag hn hu
  subst hn
  refine ⟨fun ht hseq had hpre => ?retire, fun ht had => ?reattach, fun ht hfr hth had hs0 hs1 => ?start, fun ht hany had => ?clear, fun h0 hlt had hs1 hs2 => ?tamper,
    fun hk had => ?pair, fun ha had => ?unpair, fun hno had => ?loopCal⟩
  case retire =>
    have hsp : specOn .regulate [1] [.live, .quiet] false (decide (t ≤ 64 ∧ seq < 2 ^ 64)) = specOn .regulate [1] [.live, .quiet] false true := by
      rw [decide_eq_true ⟨ht, hseq⟩]
    refine ⟨fun hnil => answers_of retire_row had hsp hu (retireAct_none (hpre.symm.trans hnil)), fun hg hz => ⟨fun hkept => ?_, fun hall hdict => ⟨?_, _, rfl⟩⟩⟩
    · refine answers_of retire_row had hsp hu ((retireAct_some hpre hg hz).trans (if_pos ?_))
      rcases hkept with h | h <;> simp [h]
    · exact waits_of retire_row had hsp hu ((retireAct_some hpre hg hz).trans (if_neg (by simp [hall, hdict]))) nofun
  case reattach =>
    refine ⟨fun hr => answers_of rfl had (specOn_of_lt ht) hu (if_pos hr), fun hr hm => answers_of rfl had (specOn_of_lt ht) hu ((if_neg (not_not.mpr hr)).trans (if_pos hm)), ?_⟩
    rintro hr hm rfl rfl
    exact answers_of rfl had (specOn_of_lt ht) hu ((if_neg (not_not.mpr hr)).trans (if_neg (not_not.mpr hm)))
  case start =>
    have hsp : spec .engineer [.replay] (decide (t < 64 ∧ fr < 2 ^ 64 ∧ th < 2 ^ 64)) = spec .engineer [.replay] true := by rw [decide_eq_true ⟨ht, hfr, hth⟩]
    subst hs0 hs1
    refine ⟨fun h1 h2 => answers_of rfl had hsp hu (if_pos ?_), fun h => answers_of rfl had hsp hu (if_neg ?_)⟩
    · rw [Bool.and_eq_true]
      exact ⟨h1, h2⟩
    · rw [Bool.and_eq_true]
      exact h
  case clear =>
    have hsp : spec .engineer [.quiet, .replay] (decide (t < 64) && (set || journal)) = spec .engineer [.quiet, .replay] true := by
      rw [decide_eq_true ht, Bool.or_eq_true .. |>.mpr hany]
      rfl
    refine ⟨fun h => answers_of rfl had hsp hu (if_pos (usesTenant_iff.mpr h)), ?_⟩
    rintro h rfl rfl rfl
    exact answers_of rfl had hsp hu (if_neg fun huse => (usesTenant_iff.mp huse).elim fun r hr => h r hr.1 hr.2)
  case tamper =>
    subst hs1 hs2
    exact answers_of rfl had (by rw [decide_eq_true ⟨h0, hlt⟩]) hu rfl
  case pair =>
    have hsp : spec .engineer [.sealed, .live, .quiet] (kindOk kind) = spec .engineer [.sealed, .live, .quiet] true := by rw [hk]
    refine ⟨fun hst => answers_of rfl had hsp hu (consume1_no hst), fun hst hb he heui => ?_⟩
    subst hb he heui
    refine ⟨fun hl => ?_, fun hl hf => ?_, fun hl hf => ⟨fun hbad => ?_, fun hgood => ⟨fun hp => ?_, fun hp hfree => ?_, fun hp hfree htag => ?_⟩⟩⟩
    · exact answers_of rfl had hsp hu (consume1_refuses hst (if_pos hl) (by decide))
    · refine answers_of rfl had hsp hu (consume1_refuses hst ((if_neg (not_not.mpr hl)).trans ?_) (envelopeCode_ne x))
      rw [hf]
      rfl
    · refine answers_of rfl had hsp hu (consume1_refuses hst ((if_neg (not_not.mpr hl)).trans ?_) (by decide))
      rw [hf]
      exact if_pos hbad
    · refine answers_of rfl had hsp hu (consume1_refuses hst ((if_neg (not_not.mpr hl)).trans ?_) (by decide))
      rw [hf]
      exact (if_neg hgood).trans (if_pos hp)
    · refine answers_of rfl had hsp hu (consume1_refuses hst ((if_neg (not_not.mpr hl)).trans ?_) (by decide))
      rw [hf]
      refine (if_neg hgood).trans ((if_neg (by rw [hp]; decide)).trans ?_)
      rw [hfree]
    · subst htag
      refine answers_of rfl had hsp hu (consume1_answers hst ((if_neg (not_not.mpr hl)).trans ?_))
      rw [hf]
      refine (if_neg hgood).trans ((if_neg (by rw [hp]; decide)).trans ?_)
      rw [hfree]
      rfl
  case unpair =>
    refine ⟨fun h => answers_of rfl had (spec_of_lt ha) hu (if_pos h), ?_⟩
    rintro h rfl
    exact answers_of rfl had (spec_of_lt ha) hu (if_neg h)
  case loopCal =>
    exact waits_of (v := { u with wit.loops := ins u.wit.loops no { getLoop u no with samples := [] } }) (p := .loopcal no) rfl had (spec_of_lt hno) hu rfl nofun

/-! ### The SHOW commands (R264, R575, R590, R603) -/

section
variable {i : Instr} {l : ConLine} {s u v : State} {good : Bool} {f : State → ActRes} {code : Nat} {vals : List Int} {bytes : List Byte}
  {t ctx : Nat} {regs : List Nat}

theorem show_answers (hrow : exec i s = .next (runShow l good f s)) (h : Admits l (spec .observe allModes true) s) (hgood : good = true)
    (hu : u = begun l false s) (ha : f u = ⟨v, reply code vals bytes, .formed⟩) : Answers i s v code vals bytes :=
  answers_of hrow h (by rw [hgood]) hu ha

/-- What SHOW CTX asks of a line, by the mode. -/
theorem showCtx_spec (ht : t < 64) (hne : regs ≠ []) (hregs : ∀ r ∈ regs, r < 32)
    (h : (s.inMode .hold = true ∧ Admits l (spec .engineer [.audit, .hold] true) s) ∨
      (s.inMode .hold = false ∧ Admits l { spec .regulate [.audit, .hold] true with cons := [1] } s)) :
    ∃ sp, (if s.inMode .hold then spec .engineer [.audit, .hold] (decide (t < 64) && !regs.isEmpty && regs.all (fun r => decide (r < 32)))
      else { spec .regulate [.audit, .hold] (decide (t < 64) && !regs.isEmpty && regs.all (fun r => decide (r < 32))) with cons := [1] }) = sp ∧
      Admits l sp s ∧ sp.keepChal = false := by
  have hall : regs.all (fun r => decide (r < 32)) = true := List.all_eq_true.mpr fun r hr => decide_eq_true (hregs r hr)
  have hargs : (decide (t < 64) && !regs.isEmpty && regs.all (fun r => decide (r < 32))) = true := by simp [ht, hne, hall]
  rw [hargs]
  rcases h with ⟨hm, had⟩ | ⟨hm, had⟩
  · exact ⟨_, if_pos hm, had, rfl⟩
  · exact ⟨_, if_neg (by rw [hm]; decide), had, rfl⟩

end

/-- Settles O44: each reply is formed in the state in which its action begins. -/
theorem showsComplete : Obligations.ShowsComplete := by
  unfold Obligations.ShowsComplete
  intro s u l n t b seq sn k ctx die rel body g x bank areas regs acc a hn hu
  subst hn
  refine ⟨fun had => ⟨?time, ?journal, ?tamper, ?mesh, ?tag, ?book, ?grain, ?session, ?media, ?die, ?moves, ?power, ?mirrorOne, ?mirror, ?import_, ?run, ?tenant, ?lane⟩,
    fun ht hne hregs hmode => ?ctx⟩
  case time => exact show_answers rfl had rfl hu rfl
  case journal => exact fun ht => show_answers rfl had (decide_eq_true ht) hu rfl
  case tamper => exact show_answers rfl had rfl hu rfl
  case mesh => exact show_answers rfl had rfl hu rfl
  case tag => exact fun ha => show_answers rfl had (decide_eq_true ha) hu rfl
  case book => exact fun ht hb => show_answers rfl had (by simp [ht, hb]) hu rfl
  case grain =>
    refine fun ht => ⟨fun h => ?_, fun h hg => ?_, fun h hg hr => ?_, fun h hg hr => ?_⟩
    · exact show_answers rfl had (decide_eq_true ht) hu (if_pos h)
    · refine show_answers rfl had (decide_eq_true ht) hu ((if_neg (Nat.not_le.mpr h)).trans ?_)
      rw [hg]
      rfl
    · refine show_answers rfl had (decide_eq_true ht) hu ((if_neg (Nat.not_le.mpr h)).trans ?_)
      rw [hg]
      exact if_pos hr
    · refine show_answers rfl had (decide_eq_true ht) hu ((if_neg (Nat.not_le.mpr h)).trans ?_)
      rw [hg]
      exact if_neg (by rw [hr]; decide)
  case session =>
    refine fun ht => ⟨fun hx => ?_, fun hx => ?_⟩
    · refine show_answers rfl had (decide_eq_true ht) hu ?_
      rw [hx]
      rfl
    · refine show_answers rfl had (decide_eq_true ht) hu ?_
      rw [hx]
      rfl
  case media => exact show_answers rfl had rfl hu rfl
  case die =>
    refine fun hd => show_answers rfl had (by simp [hd]) hu ?_
    dsimp only [Option.isNone]
    rw [List.append_nil]
    rfl
  case moves => exact fun h1 h2 => show_answers rfl had (by simp [h1, h2]) hu rfl
  case power => exact show_answers rfl had rfl hu rfl
  case mirrorOne => exact fun ht => show_answers rfl had (decide_eq_true ht) hu rfl
  case mirror => exact show_answers rfl had rfl hu rfl
  case import_ => exact fun ht => show_answers rfl had (decide_eq_true ht) hu rfl
  case run => exact show_answers rfl had rfl hu rfl
  case tenant => exact fun ht => show_answers rfl had (decide_eq_true ht) hu rfl
  case lane => exact fun hk => show_answers rfl had (decide_eq_true hk) hu rfl
  case ctx =>
    obtain ⟨sp, hsp, had, hkeep⟩ := showCtx_spec ht hne hregs hmode
    have hu2 : u = begun l sp.keepChal s := by rw [hkeep]; exact hu
    refine ⟨fun hb => answers_of rfl had hsp hu2 ?_, fun hb hareas hacc => answers_of rfl had hsp hu2 ?_⟩
    · rw [hb]
      rfl
    · rw [hb, hacc, hareas]
      rfl

end Sys2Proof.Machine
end

section
/-! PROOFS. Frames of the terminals and of management (Table 1.1, R20, R361, R374 to R397, R529 to R533; O45, O47): the checks A1 to A5 in
their order, what sequencing a wager changes, exports and imports. -/
namespace Sys2Proof.Machine

open Sys2Proof

-- Each proof is checked before the next begins, so that no more than one is held in memory.
set_option Elab.async false

/-! ### Frames of the terminals (Table 1.1, R20, R22, R32 to R34, R383, R385 to R388, R394, R397) -/

section
variable {s u : State} {f : Frame} {mgmt : Bool} {cs : List SClass} {go : State → State} {x : Session} {i : Instr} {e : Envelope} {key : Option (BitVec 256)}
  {reads : List FlashRead} {mt ms : Nat}

/-- Every AWP row is the check of its frame, and then the row's own step. -/
theorem frame_ingress
    (h : ((i = .offer f ∨ i = .cancel f ∨ i = .query f reads ∨ i = .heartbeat f) ∧ mgmt = false ∧ cs = [.terminal]) ∨
      ((i = .keyimp f e ∨ i = .impdata f) ∧ mgmt = true ∧ cs = [.devmgmt]) ∨
      ((i = .sessload f key ∨ i = .sessdrop f mt ms ∨ i = .expreq f) ∧ mgmt = true ∧ cs = [.devmgmt, .mgmt])) :
    ∃ go, exec i s = .next (ingress s f mgmt cs go) := by
  rcases h with ⟨rfl | rfl | rfl | rfl, rfl, rfl⟩ | ⟨rfl | rfl, rfl, rfl⟩ | ⟨rfl | rfl | rfl, rfl, rfl⟩ <;> exact ⟨_, rfl⟩

theorem ingress_down (h : etherUp s f.lane = false) : ingress s f mgmt cs go = s := if_pos h

section
variable (hup : etherUp s f.lane = true)
include hup

theorem ingress_backlog (h : f.backlog + frameBytes f > 262144) : ingress s f mgmt cs go = bumpWrap s bAWP (0x40C + 0x10 * f.lane) 0 32 1 :=
  (if_neg (by simp [hup])).trans (if_pos h)

theorem ingress_A1 (hb : f.backlog + frameBytes f ≤ 262144) (h : passA1 s f = false) :
    ingress s f mgmt cs go = bumpWrap s bAWP (0x400 + 0x10 * f.lane) 0 32 1 :=
  (if_neg (by simp [hup])).trans ((if_neg (Nat.not_lt.mpr hb)).trans (if_pos h))

theorem ingress_A2 (hb : f.backlog + frameBytes f ≤ 262144) (h1 : passA1 s f = true) (h : passA2 s f mgmt = false) :
    ingress s f mgmt cs go = bumpWrap s bAWP (0x404 + 0x10 * f.lane) 0 32 1 :=
  (if_neg (by simp [hup])).trans ((if_neg (Nat.not_lt.mpr hb)).trans ((if_neg (by simp [h1])).trans (if_pos h)))

end

section
variable (hr : ReachesA3 s f mgmt)
include hr

theorem ingress_A3 (h : passA3 (looked s f) f cs = none) : ingress s f mgmt cs go = bumpWrap (looked s f) bAWP (0x408 + 0x10 * f.lane) 0 32 1 := by
  rw [ingress_lookup hr, h]

variable (h3 : passA3 (looked s f) f cs = some x)
include h3

theorem ingress_A4 (h : (f.tagOk && x.keyHeld) = false) : ingress s f mgmt cs go =
    countDrop (bumpWrap (updSess (looked s f) (skey f.tenant f.session) (fun x => { x with a4 := x.a4 + 1 })) bAWP 0x20 0 32 1) f.tenant f.session 0 := by
  rw [ingress_lookup hr, h3]
  exact if_pos h

theorem ingress_A5 (h4 : (f.tagOk && x.keyHeld) = true) (h : window x.high x.bitmap f.counter = none) : ingress s f mgmt cs go =
    countDrop (bumpWrap (updSess (looked s f) (skey f.tenant f.session) (fun x => { x with a5 := x.a5 + 1 })) bAWP 0x24 0 32 1) f.tenant f.session 1 := by
  rw [ingress_lookup hr, h3]
  refine (if_neg (by simp [h4])).trans ?_
  rw [h]

end

/-! What sequencing a wager changes. -/

section
variable {typ acc uu t2 b2 : Nat}

theorem lkD_ins_self {α : Type} (m : Map α) (k : Nat) (a d : α) : lkD (ins m k a) k d = a := by rw [lkD, lk_ins_self]; rfl

theorem lkD_ins_of_ne {α : Type} (m : Map α) {k j : Nat} (a d : α) (h : j ≠ k) : lkD (ins m k a) j d = lkD m j d := by
  rw [lkD, lk_ins_of_ne m a h, lkD]

theorem updSess_jrn (k : Nat) (g : Session → Session) : (updSess u k g).jrn = u.jrn := by unfold updSess; split <;> rfl

theorem updSess_books (k : Nat) (g : Session → Session) : (updSess u k g).books = u.books := by unfold updSess; split <;> rfl

theorem updSess_inputs (k : Nat) (g : Session → Session) : (updSess u k g).awp.inputs = u.awp.inputs := by unfold updSess; split <;> rfl

theorem updSess_runq (k : Nat) (g : Session → Session) : (updSess u k g).awp.runq = u.awp.runq := by unfold updSess; split <;> rfl

/-- Sequencing is the entry of the input, then its session's count, then its book's count. -/
theorem sequence_books_get : ∃ w : State, w.books = u.books ∧ sequence u f typ acc uu = bumpWrap (putBook w f.tenant f.book
    { getBook w f.tenant f.book with lastSeq := some (strm u f.tenant).next, count := (getBook w f.tenant f.book).count + 1 }) bSEQ (0x800 + 0x10 * f.tenant) 0 32 1 :=
  ⟨updSess _ (skey f.tenant f.session) _, updSess_books (u := { setStrm u f.tenant _ with awp.inputs := _, awp.runq := _ }) _ _, rfl⟩

theorem sequence_streams : (sequence u f typ acc uu).jrn.streams =
    ins u.jrn.streams f.tenant { strm u f.tenant with next := (strm u f.tenant).next + 1 } := congrArg JrnSt.streams (updSess_jrn _ _)

theorem sequence_runq : (sequence u f typ acc uu).awp.runq = ins u.awp.runq f.tenant (lkD u.awp.runq f.tenant [] ++ [(strm u f.tenant).next]) :=
  updSess_runq _ _

theorem sequence_books : (sequence u f typ acc uu).books = ins u.books (bkey f.tenant f.book)
    { getBook u f.tenant f.book with lastSeq := some (strm u f.tenant).next, count := (getBook u f.tenant f.book).count + 1 } := by
  obtain ⟨w, hw, h⟩ := sequence_books_get (u := u) (f := f) (typ := typ) (acc := acc) (uu := uu)
  rw [h, getBook, hw]
  exact congrArg (ins · _ _) hw

theorem strm_sequence_self : strm (sequence u f typ acc uu) f.tenant = { strm u f.tenant with next := (strm u f.tenant).next + 1 } := by
  rw [strm, sequence_streams, lkD_ins_self]

theorem strm_sequence_of_ne (h : t2 ≠ f.tenant) : strm (sequence u f typ acc uu) t2 = strm u t2 := by
  rw [strm, sequence_streams, lkD_ins_of_ne _ _ _ h, strm]

theorem runq_sequence : lkD (sequence u f typ acc uu).awp.runq f.tenant [] = lkD u.awp.runq f.tenant [] ++ [(strm u f.tenant).next] := by
  rw [sequence_runq, lkD_ins_self]

theorem getBook_sequence_self : getBook (sequence u f typ acc uu) f.tenant f.book =
    { getBook u f.tenant f.book with lastSeq := some (strm u f.tenant).next, count := (getBook u f.tenant f.book).count + 1 } := by
  rw [getBook, sequence_books, lkD_ins_self]

theorem getBook_sequence_of_ne (h : bkey t2 b2 ≠ bkey f.tenant f.book) : getBook (sequence u f typ acc uu) t2 b2 = getBook u t2 b2 := by
  rw [getBook, sequence_books, lkD_ins_of_ne _ _ _ h, getBook]

end

/-! What a QUERY is answered. -/

section
variable {tsess tctr st : Nat} {a : Nat × Option Grain × Bool}

theorem query_body (hl : f.payload.length = 12) (hs : tsess = ofBe (f.payload.take 4)) (hc : tctr = ofBe ((f.payload.drop 4).take 6))
    (ha : a = queryAnswer u f tsess tctr) : query f reads u =
      if a.1 = 4 then refuse u f rjQUERY_RANGE 0 0
      else
        let s0 := if a.1 = 0 then flashReads u reads else u
        let s1 := if a.2.2 then updSess u (skey f.tenant tsess) (fun x => { x with bitmap := x.bitmap ||| ((1 : Word32) <<< (x.high - tctr)) }) else s0
        let g : Nat × Nat := match a.2.1 with
          | some g => (g.seq, match grainAt s0 f.tenant g.seq with | some y => if y.unreadable then 0 else dig8 y.digest | none => dig8 g.digest)
          | none => (0, 0)
        answer s1 f mtANSWER (answerBody f.counter a.1 tsess tctr g.1 g.2) := by
  subst hs hc ha
  exact if_neg (not_not.mpr hl)

section
variable (hl : f.payload.length = 12) (hs : tsess = ofBe (f.payload.take 4)) (hc : tctr = ofBe ((f.payload.drop 4).take 6)) (ha : a = queryAnswer u f tsess tctr)
include hl hs hc ha

theorem query_range (h : a.1 = 4) : query f reads u = refuse u f rjQUERY_RANGE 0 0 := (query_body hl hs hc ha).trans (if_pos h)

theorem query_other (h4 : a.1 ≠ 4) (h0 : a.1 ≠ 0) (hg : a.2.1 = none) (hm : a.2.2 = false) :
    query f reads u = answer u f mtANSWER (answerBody f.counter a.1 tsess tctr 0 0) := by
  rw [query_body hl hs hc ha, if_neg h4]
  dsimp only
  rw [if_neg h0, hg, hm]
  rfl

theorem query_marks (h4 : a.1 ≠ 4) (hg : a.2.1 = none) (hm : a.2.2 = true) : query f reads u =
    answer (updSess u (skey f.tenant tsess) (fun y => { y with bitmap := y.bitmap ||| ((1 : Word32) <<< (y.high - tctr)) })) f mtANSWER (answerBody f.counter a.1 tsess tctr 0 0) := by
  rw [query_body hl hs hc ha, if_neg h4]
  dsimp only
  rw [hg, hm]
  rfl

theorem query_chained {g : Grain} (h0 : a.1 = 0) (hg : a.2.1 = some g) (hm : a.2.2 = false)
    (hst : st = (match grainAt (flashReads u reads) f.tenant g.seq with | some y => if y.unreadable then 0 else dig8 y.digest | none => dig8 g.digest)) :
    query f reads u = answer (flashReads u reads) f mtANSWER (answerBody f.counter 0 tsess tctr g.seq st) := by
  rw [query_body hl hs hc ha, h0, if_neg (by decide)]
  dsimp only
  rw [if_pos rfl, hg, hm, hst]
  rfl

end

end

end

/-- Settles O45: the first check that a frame fails drops it; a frame that passes A1 to A5 does what its message says. -/
theorem terminalFramesComplete : Obligations.TerminalFramesComplete := by
  unfold Obligations.TerminalFramesComplete
  intro s u t f reads i typ acc uu n st tsess tctr x v a e key mt ms mgmt cs
  refine ⟨fun hi => ?drops, fun hp => ⟨fun hi hacc huu hv hn => ?wager, fun hl => ?_, fun hl hs hc ha => ?query, fun hl => ?_, fun hl => ?_⟩⟩
  case drops =>
    obtain ⟨go, hrow⟩ := frame_ingress (s := s) hi
    rw [hrow]
    exact ⟨fun h => next_congr (ingress_down h), fun hup h => next_congr (ingress_backlog hup h), fun hup hb h => next_congr (ingress_A1 hup hb h),
      fun hup hb h1 h => next_congr (ingress_A2 hup hb h1 h), fun hr h => next_congr (ingress_A3 hr h), fun hr h3 h => next_congr (ingress_A4 hr h3 h),
      fun hr h3 h4 h => next_congr (ingress_A5 hr h3 h4 h)⟩
  case wager =>
    have hrow : exec i s = .next (wager typ f u) := by
      rcases hi with ⟨rfl, rfl⟩ | ⟨rfl, rfl⟩ <;> exact next_congr (ingress_pass hp)
    subst hacc huu hv hn
    rw [hrow]
    refine ⟨fun h => next_congr (if_neg h), ?_⟩
    rintro h rfl
    refine ⟨next_congr (if_pos h), ?_, runq_sequence, ⟨_, updSess_inputs _ _, rfl, rfl, rfl, rfl, rfl, rfl, rfl, rfl, rfl, rfl⟩, ?_, ?_, fun t2 => strm_sequence_of_ne, fun t2 b2 => getBook_sequence_of_ne⟩
    · rw [strm_sequence_self]
    · rw [getBook_sequence_self]
    · rw [getBook_sequence_self]
  · exact next_congr ((ingress_pass hp).trans (if_pos hl))
  case query =>
    have hrow : exec (.query f reads) s = .next (query f reads u) := next_congr (ingress_pass hp)
    rw [hrow]
    exact ⟨fun h => next_congr (query_range hl hs hc ha h), fun h4 h0 hg hm => next_congr (query_other hl hs hc ha h4 h0 hg hm),
      fun h4 hg hm => next_congr (query_marks hl hs hc ha h4 hg hm), fun g h0 hg hm hst => next_congr (query_chained hl hs hc ha h0 hg hm hst)⟩
  · exact next_congr ((ingress_pass hp).trans (if_pos hl))
  · exact next_congr ((ingress_pass hp).trans (if_neg (not_not.mpr hl)))

/-! ### Management frames (R361, R374, R375, R381, R389 to R392, R529 to R533) -/

section
variable {s u : State} {f : Frame} {cs : List SClass} {ms : List DMode} {go : State → State}

theorem mgmt_mode (h : PassesA5 s u f true cs) (hm : ms.any (fun m => u.inMode m) = false) : mgmtFrame s f cs ms go = mack u f mkMODE := by
  unfold mgmtFrame
  exact (ingress_pass h).trans (if_neg (by simp [hm]))

end

section
variable {u : State} {f : Frame} {e : Envelope} {key : Option (BitVec 256)} {k : BitVec 256} {t cls id fl part lo hi x : Nat} {p : List Byte}

/-! IMPDATA. -/

theorem impdata_scope (h : u.role ≠ .lab) : impdata f u = mack u f mkSCOPE := if_pos h

section
variable (hr : u.role = .lab)
include hr

theorem impdata_form (h : impBad u f.payload = true ∨ impCont u f.payload = none) : impdata f u = mack u f mkFORMAT := by
  refine (if_neg (not_not.mpr hr)).trans ?_
  cases hb : impBad u f.payload with
  | true => rfl
  | false => rw [if_neg (by simp), h.resolve_left (by simp [hb])]

theorem impdata_part {c : Nat × Nat} {len : Nat} (hb : impBad u f.payload = false) (hc : impCont u f.payload = some c) (hl : len = f.payload.length - 12) : impdata f u =
    if imageSegs (c.1 + len) > areaFree u then mack (putStat { u with rpl.recv := none } c.2 ⟨0, 0, 0⟩) f mkTABLE_FULL
    else takePart u f (ofBe (f.payload.take 4)) (ofBe ((f.payload.drop 4).take 4)) len c.2 c.1 (ofBe ((f.payload.drop 8).take 1) == 1) := by
  subst hl
  refine (if_neg (not_not.mpr hr)).trans ?_
  rw [if_neg (by simp [hb]), hc]

end

/-! SESSLOAD. -/

section
variable (hp : p = f.payload) (ht : t = ofBe (p.take 1)) (hcls : cls = ofBe ((p.drop 1).take 1)) (hid : id = ofBe ((p.drop 4).take 4))
include hp ht hcls

theorem sessload_form (h : p.length ≠ 80 ∨ t ≥ 64 ∨ cls > 1 ∨ ofBe ((p.drop 2).take 2) ≠ 0) : sessload f key u = mack u f mkFORMAT := by
  subst hp ht hcls
  exact if_pos h

variable (hf : ¬ (p.length ≠ 80 ∨ t ≥ 64 ∨ cls > 1 ∨ ofBe ((p.drop 2).take 2) ≠ 0))
include hf

theorem sessload_scope (h : f.tenant ≠ tDEV ∧ f.tenant ≠ t) : sessload f key u = mack u f mkSCOPE := by
  subst hp ht hcls
  exact (if_neg hf).trans (if_pos h)

variable (hs : ¬ (f.tenant ≠ tDEV ∧ f.tenant ≠ t))
include hs

theorem sessload_unwrap (h : lk u.awp.kek t = none ∨ key = none) : sessload f key u = mack u f mkUNWRAP := by
  subst hp ht hcls
  refine (if_neg hf).trans ((if_neg hs).trans ?_)
  rcases h with h | h
  · rw [h]
    rfl
  · rw [h, ite_self]

variable (hk : lk u.awp.kek t ≠ none) (hkey : key = some k)
include hk hkey

theorem sessload_full (h : sessCount u t ≥ fget u bAWP (0x1000 + 4 * t) 0 23 ∨ u.awp.sessions.length ≥ 4194304) : sessload f key u = mack u f mkTABLE_FULL := by
  subst hp ht hcls hkey
  refine (if_neg hf).trans ((if_neg hs).trans ?_)
  rw [if_pos (Option.isSome_iff_ne_none.mpr hk)]
  exact if_pos h

variable (hn : ¬ (sessCount u t ≥ fget u bAWP (0x1000 + 4 * t) 0 23 ∨ u.awp.sessions.length ≥ 4194304))
include hid hn

theorem sessload_reused (h : sessUsed u t id = true) : sessload f key u = mack u f mkSESSION_REUSED := by
  subst hp ht hcls hkey hid
  refine (if_neg hf).trans ((if_neg hs).trans ?_)
  rw [if_pos (Option.isSome_iff_ne_none.mpr hk)]
  exact (if_neg hn).trans (if_pos h)

theorem sessload_opens (h : sessUsed u t id = false) : sessload f key u = mack { u with awp.sessions := ins u.awp.sessions (skey t id) (newSession (if cls = 0 then .terminal else .mgmt) t (ofBe ((p.drop 8).take 4)) k
    (BitVec.ofNat 32 (ofBe ((p.drop 12).take 4))) (BitVec.ofNat 32 (ofBe ((p.drop 16).take 4)))) } f mkOK := by
  subst hp ht hcls hkey hid
  refine (if_neg hf).trans ((if_neg hs).trans ?_)
  rw [if_pos (Option.isSome_iff_ne_none.mpr hk)]
  exact (if_neg hn).trans (if_neg (by simp [h]))

end

/-! EXPREQ. -/

section
variable (hp : p = f.payload) (ht : t = ofBe (p.take 1)) (hfl : fl = ofBe ((p.drop 1).take 1)) (hid : id = ofBe ((p.drop 4).take 4)) (hpart : part = ofBe ((p.drop 8).take 4))
  (hlo : lo = ofBe ((p.drop 16).take 8)) (hhi : hi = ofBe ((p.drop 24).take 8))
include hp ht hfl

theorem expreq_form (h : p.length ≠ 32 ∨ t ≥ 64 ∨ fl > 1 ∨ ofBe ((p.drop 2).take 2) ≠ 0 ∨ ofBe ((p.drop 12).take 4) ≠ 0) : expreq f u = mack u f mkFORMAT := by
  subst hp ht hfl
  exact if_pos h

variable (hf : ¬ (p.length ≠ 32 ∨ t ≥ 64 ∨ fl > 1 ∨ ofBe ((p.drop 2).take 2) ≠ 0 ∨ ofBe ((p.drop 12).take 4) ≠ 0))
include hf hid

theorem expreq_scope (h : (f.tenant ≠ tDEV ∧ f.tenant ≠ t) ∨ u.rpl.closedReq.contains id = true) : expreq f u = mack u f mkSCOPE := by
  subst hp ht hfl hid
  refine (if_neg hf).trans ?_
  by_cases hs : f.tenant ≠ tDEV ∧ f.tenant ≠ ofBe (f.payload.take 1)
  · exact if_pos hs
  · exact (if_neg hs).trans (if_pos (h.resolve_left hs))

variable (hs : ¬ (f.tenant ≠ tDEV ∧ f.tenant ≠ t)) (hc : u.rpl.closedReq.contains id = false)
include hs hc

section
variable {ex : Export} (hx : u.rpl.exports.find? (fun y => y.reqid == id) = some ex)
include hx hlo hhi

theorem expreq_other (h : ex.tenant ≠ t ∨ ex.rj ≠ (fl == 1) ∨ ex.lo ≠ lo ∨ ex.hi ≠ hi) : expreq f u = mack u f mkFORMAT := by
  subst hp ht hfl hid hlo hhi
  refine (if_neg hf).trans ((if_neg hs).trans ((if_neg (by rw [hc]; decide)).trans ?_))
  rw [hx]
  exact if_pos h

include hpart

theorem expreq_again (h : ¬ (ex.tenant ≠ t ∨ ex.rj ≠ (fl == 1) ∨ ex.lo ≠ lo ∨ ex.hi ≠ hi)) : expreq f u =
    sendParts { u with rpl.exports := u.rpl.exports.map (fun y => if y.reqid = id then { y with lastReq := u.tim.ticks } else y) } f ex part := by
  subst hp ht hfl hid hlo hhi hpart
  refine (if_neg hf).trans ((if_neg hs).trans ((if_neg (by rw [hc]; decide)).trans ?_))
  rw [hx]
  exact if_neg h

end

section
variable {gs : List Segment} {g : Segment} (hx : u.rpl.exports.find? (fun y => y.reqid == id) = none) (hgs : gs = exportSegs u t (fl == 1) lo hi)
include hx hgs hlo hhi

theorem expreq_absent (h : gs.head? = none ∨ lo > hi) : expreq f u = mack u f mkFORMAT := by
  subst hp ht hfl hid hlo hhi
  refine (if_neg hf).trans ((if_neg hs).trans ((if_neg (by rw [hc]; decide)).trans ?_))
  rw [hx, ← hgs]
  cases gs with
  | nil => rfl
  | cons a as => exact if_pos (h.resolve_left (by simp))

variable (hg : gs.head? = some g) (hle : lo ≤ hi)
include hg hle

theorem expreq_full (h : u.rpl.exports.length ≥ 4) : expreq f u = mack u f mkTABLE_FULL := by
  obtain ⟨as, rfl⟩ := List.head?_eq_some_iff.mp hg
  subst hp ht hfl hid hlo hhi
  refine (if_neg hf).trans ((if_neg hs).trans ((if_neg (by rw [hc]; decide)).trans ?_))
  rw [hx, ← hgs]
  exact (if_neg (Nat.not_lt.mpr hle)).trans (if_pos h)

include hpart

theorem expreq_begins {ex : Export} (h : u.rpl.exports.length < 4) (hex : ex = ⟨id, t, fl == 1, lo, hi, gs.map (·.no), decide (g.first = 0), u.tim.ticks⟩) :
    expreq f u = sendParts { u with rpl.exports := u.rpl.exports ++ [ex] } f ex part := by
  obtain ⟨as, rfl⟩ := List.head?_eq_some_iff.mp hg
  subst hp ht hfl hid hlo hhi hpart hex
  refine (if_neg hf).trans ((if_neg hs).trans ((if_neg (by rw [hc]; decide)).trans ?_))
  rw [hx, ← hgs]
  exact (if_neg (Nat.not_lt.mpr hle)).trans (if_neg (Nat.not_le.mpr h))

end

end

end

section
variable {s u s1 : State} {f : Frame} {e : Envelope} {key : Option (BitVec 256)} {x mt ms : Nat}

theorem keyimp_live (h : PassesA5 s u f true [.devmgmt]) (hm : u.inMode .live = true ∨ u.inMode .quiet = true) :
    exec (.keyimp f e) s = .next (if f.plen ≠ 354 then mack u f mkFORMAT else match kekFault u e with
      | some x => mack u f x
      | none => mack (importKek u e 0) f mkOK) :=
  next_congr (mgmt_pass h (by simpa using hm))

theorem sessdrop_live (h : PassesA5 s u f true [.devmgmt, .mgmt]) (hm : u.inMode .live = true ∨ u.inMode .quiet = true) :
    exec (.sessdrop f mt ms) s = .next (if f.tenant ≠ tDEV ∧ f.tenant ≠ mt then mack u f mkSCOPE
      else if (sessOf u mt ms).isNone then mack u f mkFORMAT
      else freeIfDone (mack (updSess u (skey mt ms) (fun x => { x with opened := false })) f mkOK) (skey mt ms)) :=
  next_congr (mgmt_pass h (by simpa using hm))

/-! The verification of an import's last part. -/

theorem importVerify_taken {set : Option ImpSet} {reason seg : Nat} {r : Recv} (hr : s.rpl.recv = some r) (hl : r.last = true) (h1 : s1 = { s with rpl.recv := none }) :
    exec (.importVerify set reason seg) s = .next (match set with
      | some x => freeIfDone (sendAwp (putStat { s1 with rpl.sets := ins s1.rpl.sets r.tenant x } r.tenant ⟨3, 0, x.segs⟩) tDEV r.session r.route mtMACK (be 6 r.echo ++ be 1 mkOK ++ be 1 0)) (skey tDEV r.session)
      | none => freeIfDone (sendAwp (putStat s1 r.tenant ⟨4, reason, seg⟩) tDEV r.session r.route mtMACK (be 6 r.echo ++ be 1 mkSIGNATURE ++ be 1 0)) (skey tDEV r.session)) := by
  subst h1
  show execImportVerify set reason seg s = _
  unfold execImportVerify
  rw [hr]
  refine (if_neg (by simp [hl])).trans ?_
  cases set with
  | none => rfl
  | some x => rfl

theorem importVerify_stays {set : Option ImpSet} {reason seg : Nat} {r : Recv} (h : s.rpl.recv = none ∨ (s.rpl.recv = some r ∧ r.last = false)) :
    exec (.importVerify set reason seg) s = .next s := by
  show execImportVerify set reason seg s = _
  unfold execImportVerify
  rcases h with h | ⟨h, hl⟩
  · rw [h]
  · rw [h]
    exact if_pos hl

end

/-! Frames beside AWP (R361). -/

section
variable {s : State} {lane : Nat} {a b : BitVec 128} {i : Instr} {v6 : Bool}

theorem address_row (h : (i = .arpRequest lane a ∧ v6 = false) ∨ (i = .neighbourSolicitation lane a ∧ v6 = true)) :
    exec i s = .next (if etherUp s lane && enabledAddr s (etherPort s lane) v6 a then emitOut s (.arp lane a) else s) := by
  rcases h with ⟨rfl, rfl⟩ | ⟨rfl, rfl⟩ <;> rfl

theorem echo_answered (hu : etherUp s lane = true) (he : enabledAddr s (etherPort s lane) v6 a = true) (h : fget s bAWP 0x10 16 1 = 1) :
    exec (.echoRequest lane v6 a b) s = .next (emitOut s (.echo lane b)) :=
  next_congr (if_pos (by simp [hu, he, h]))

theorem echo_ignored (h : etherUp s lane = false ∨ enabledAddr s (etherPort s lane) v6 a = false ∨ fget s bAWP 0x10 16 1 ≠ 1) :
    exec (.echoRequest lane v6 a b) s = .next s :=
  next_congr (if_neg (by rcases h with h | h | h <;> simp [h]))

end

/-- Settles O47: a management frame's MACK and its effect, what leaves and enters by EXPREQ and IMPDATA, and the frames beside AWP. -/
theorem managementComplete : Obligations.ManagementComplete := by
  unfold Obligations.ManagementComplete
  intro s u s1 f e key k i t id cls fl part lo hi x reqid lane len reason seg mt ms p c g gs ex r set a b v6 atA2
  refine ⟨fun h hl hq => ?modes, fun h => ?devmgmt, fun h hm hp ht => ?sessions, fun h hm hp ht hfl hid hpart hlo hhi hgs => ?exports, ?idle, fun hr hl h1 => ?verify, fun hi h => ?_,
    fun h => ?address, fun hu he h => echo_answered hu he h, fun h => echo_ignored h, fun h => ⟨next_congr (if_pos h), next_congr (if_pos h)⟩,
    fun h => ⟨next_congr (if_neg (by simp [h])), next_congr (if_neg (by simp [h]))⟩⟩
  case modes =>
    exact ⟨next_congr (mgmt_mode h (by simp [hl, hq])), next_congr (mgmt_mode h (by simp [hl, hq])), fun ha hr => next_congr (mgmt_mode h (by simp [hl, hq, ha, hr]))⟩
  case devmgmt =>
    refine ⟨fun hl hq => next_congr (mgmt_mode h (by simp [hl, hq])), fun hq hr => next_congr (mgmt_mode h (by simp [hq, hr])), fun hm => ⟨fun hp => ?_, fun hp hk => ?_, fun hp hk => ?_⟩, fun hm hp => ?_⟩
    · exact (keyimp_live h hm).trans (next_congr (if_pos hp))
    · exact (keyimp_live h hm).trans (next_congr ((if_neg (not_not.mpr hp)).trans (by rw [hk])))
    · exact (keyimp_live h hm).trans (next_congr ((if_neg (not_not.mpr hp)).trans (by rw [hk])))
    · have hrow : exec (.impdata f) s = .next (impdata f u) := next_congr (mgmt_pass h (by simpa using hm))
      subst hp
      rw [hrow]
      exact ⟨fun hr => next_congr (impdata_scope hr), fun hr hb => next_congr (impdata_form hr hb),
        fun hr hb hc hlen => ⟨fun hf => next_congr ((impdata_part hr hb hc hlen).trans (if_pos hf)), fun hf => next_congr ((impdata_part hr hb hc hlen).trans (if_neg (Nat.not_lt.mpr hf)))⟩⟩
  case sessions =>
    have hrow : exec (.sessload f key) s = .next (sessload f key u) := next_congr (mgmt_pass h (by simpa using hm))
    rw [hrow, sessdrop_live h hm]
    refine ⟨fun hcls hid => ⟨fun hf => next_congr (sessload_form hp ht hcls hf), fun hf => ⟨fun hs => next_congr (sessload_scope hp ht hcls hf hs),
      fun hs => ⟨fun hk => next_congr (sessload_unwrap hp ht hcls hf hs hk), fun hk hkey => ⟨fun hn => next_congr (sessload_full hp ht hcls hf hs hk hkey hn),
        fun hn => ⟨fun hd => next_congr (sessload_reused hp ht hcls hid hf hs hk hkey hn hd), fun hd => next_congr (sessload_opens hp ht hcls hid hf hs hk hkey hn hd)⟩⟩⟩⟩⟩,
      fun hs => next_congr (if_pos hs), fun hs ho => next_congr ((if_neg hs).trans (if_pos (by simp [ho]))), fun hs ho => next_congr ((if_neg hs).trans (if_neg (by simpa using ho)))⟩
  case exports =>
    have hrow : exec (.expreq f) s = .next (expreq f u) := next_congr (mgmt_pass h (by simpa [or_assoc] using hm))
    rw [hrow]
    exact ⟨fun hf => next_congr (expreq_form hp ht hfl hf), fun hf => ⟨fun hs => next_congr (expreq_scope hp ht hfl hid hf hs), fun hs hc =>
      ⟨fun hx => ⟨fun ho => next_congr (expreq_other hp ht hfl hid hlo hhi hf hs hc hx ho), fun ho => next_congr (expreq_again hp ht hfl hid hpart hlo hhi hf hs hc hx ho)⟩,
       fun hx => ⟨fun hn => next_congr (expreq_absent hp ht hfl hid hlo hhi hf hs hc hx hgs hn), fun hg hle hn => next_congr (expreq_full hp ht hfl hid hlo hhi hf hs hc hx hgs hg hle hn),
        fun hg hle hn hex => next_congr (expreq_begins hp ht hfl hid hpart hlo hhi hf hs hc hx hgs hg hle hn hex)⟩⟩⟩⟩
  case idle => rw [← ticksOfS_60]; rfl
  case verify => exact ⟨importVerify_taken hr hl h1, importVerify_taken hr hl h1⟩
  · rcases hi with rfl | rfl
    · exact importVerify_stays h
    · exact importVerify_stays h
  case address =>
    rw [address_row h]
    refine ⟨fun hu he => next_congr (if_pos (by simp [hu, he])), fun h => next_congr (if_neg ?_)⟩
    rcases h with h | h <;> simp [h]

end Sys2Proof.Machine
end

section
/-! PROOFS. The time base, the SEALED steps and the sequencer, and register space (R31, R70 to R107, R133 to R174, R279, R303, R309, R393,
R442, R445; O48 to O50). -/
namespace Sys2Proof.Machine

open Sys2Proof

-- Each proof is checked before the next begins, so that no more than one is held in memory.
set_option Elab.async false

/-! ### The time base's events (R133, R136 to R138, R140, R141, R143, R144, R147, R152, R156, Table 5.2) -/

theorem ticksOfS_1 : ticksOfS 1 = 800000000 := by norm_num [ticksOfS]
theorem ticksOfS_3 : ticksOfS 3 = 2400000000 := by norm_num [ticksOfS]
theorem ticksOfS_3600 : ticksOfS 3600 = 2880000000000 := by norm_num [ticksOfS]
theorem ticksOfMs_50 : ticksOfMs 50 = 40000000 := by norm_num [ticksOfMs]
theorem ticksOfMs_950 : ticksOfMs 950 = 760000000 := by norm_num [ticksOfMs]

section
variable {s s1 : State} {m : PtpMsg} {i : Instr} {r : Nat} {go : Nat → State} {sent d t1 offset : Int} {var t : Nat} {scale w : Bool} {k : TimeRef}

/-! PTP messages. -/

/-- Every message but PDELAY_REQ is the check of its reference, and then the message's own step. -/
theorem ptp_row (h : i = .sync m ∨ i = .followUp m ∨ i = .delayResp m sent var ∨ i = .pdelayResp m sent var ∨ i = .announce m scale offset) :
    ∃ go, exec i s = .next (ptpMsg s m go) := by
  rcases h with rfl | rfl | rfl | rfl | rfl <;> exact ⟨_, rfl⟩

theorem ptpMsg_down (h : laneUp s m.lane = false) : ptpMsg s m go = s := if_pos h

section
variable (hup : laneUp s m.lane = true)
include hup

theorem ptpMsg_unknown (h : ptpRef s m = none) : ptpMsg s m go = ptpIgnored s m.lane := by
  unfold ptpMsg
  rw [if_neg (by simp [hup]), h]

theorem ptpMsg_known (h : ptpRef s m = some r) : ptpMsg s m go = if refEnabled s r then go r else s := by
  unfold ptpMsg
  rw [if_neg (by simp [hup]), h]

theorem ptpMsg_enabled (h : ptpRef s m = some r) (he : refEnabled s r = true) : ptpMsg s m go = go r :=
  (ptpMsg_known hup h).trans (if_pos he)

theorem ptpMsg_disabled (h : ptpRef s m = some r) (he : refEnabled s r = false) : ptpMsg s m go = s :=
  (ptpMsg_known hup h).trans (if_neg (by simp [he]))

theorem pdelayReq_unknown (h : ptpRef s m = none) : exec (.pdelayReq m) s = .next (ptpIgnored s m.lane) := by
  show execPdelayReq m s = _
  unfold execPdelayReq
  rw [if_neg (by simp [hup]), h]

theorem pdelayReq_known (h : ptpRef s m = some r) : exec (.pdelayReq m) s = .next (emitOut s (.pdelay m.lane m.seqId)) := by
  show execPdelayReq m s = _
  unfold execPdelayReq
  rw [if_neg (by simp [hup]), h]

variable (hr : ptpRef s m = some r) (he : refEnabled s r = true)
include hr he

theorem sync_interval (h : m.logSync < -4 ∨ m.logSync > 1) : exec (.sync m) s = .next (ptpIgnored s m.lane) :=
  next_congr ((ptpMsg_enabled hup hr he).trans (if_pos h))

theorem sync_taken (hlo : -4 ≤ m.logSync) (hhi : m.logSync ≤ 1)
    (h1 : s1 = updRef s r (fun x => { x with syncSeq := some m.seqId, syncRx := rxStamp s m.lane m.age m.var * 80000, syncTx := none, logSync := m.logSync })) :
    exec (.sync m) s = .next (if m.twoStep then s1 else syncDone s1 r (m.stamp * 80000)) := by
  subst h1
  exact next_congr ((ptpMsg_enabled hup hr he).trans (if_neg (not_or.mpr ⟨not_lt.mpr hlo, not_lt.mpr hhi⟩)))

theorem announce_row (h1 : s1 = updRef s r (fun x => { x with lastAnn := some (s.tim.ticks + if m.logSync ≥ 0 then 2400000000 * 2 ^ m.logSync.toNat else 2400000000 / 2 ^ (-m.logSync).toNat), annPtp := scale }))
    (hw : w = (match (getRef s r).utcEvt with | some t => decide (s.tim.ticks - t < 2880000000000) | none => false)) :
    exec (.announce m scale offset) s = .next (if scale && decide (offset ≠ (leapNow s).1) && !w then
      eventD (updRef s1 r (fun x => { x with utcEvt := some s.tim.ticks })) 9 0x0C 0x0585 [r - 2, satSigned 64 offset, satSigned 64 (leapNow s).1] 0
      else s1) := by
  rw [← ticksOfS_3] at h1
  rw [← ticksOfS_3600] at hw
  subst h1 hw
  exact next_congr (ptpMsg_enabled hup hr he)

variable (hk : k = getRef s r)
include hk

theorem followUp_row : exec (.followUp m) s = .next (if k.syncSeq = some m.seqId ∧ k.syncTx = none then syncDone s r (m.stamp * 80000) else s) := by
  subst hk
  exact next_congr (ptpMsg_enabled hup hr he)

theorem delayResp_e2e (hp : isP2p s r = false) (ht : k.syncTx = some t1) : exec (.delayResp m sent var) s =
    .next (ptpSample (updRef s r (fun x => { x with syncTx := none, syncSeq := none })) r t1 k.syncRx (((k.syncRx - t1) + (m.stamp - txStamp s m.lane sent var) * 80000) / 2)) := by
  subst hk
  refine next_congr ((ptpMsg_enabled hup hr he).trans ?_)
  dsimp only
  rw [hp, ht]

theorem delayResp_stays (h : isP2p s r = true ∨ k.syncTx = none) : exec (.delayResp m sent var) s = .next s := by
  subst hk
  refine next_congr ((ptpMsg_enabled hup hr he).trans ?_)
  dsimp only
  rcases h with h | h
  · rw [h]
  · rw [h]
    cases isP2p s r <;> rfl

section
variable (hp : isP2p s r = true) (hd : d = (rxStamp s m.lane m.age m.var - txStamp s m.lane sent var - m.stamp) * 80000 / 2) (h1 : s1 = updRef s r (fun x => { x with msDelay := some d }))
include hp hd h1

theorem pdelayResp_first (hm : k.msDelay = none) (ht : k.syncTx = some t1) : exec (.pdelayResp m sent var) s = .next (ptpSample s1 r t1 k.syncRx d) := by
  subst hk h1 hd
  refine next_congr ((ptpMsg_enabled hup hr he).trans ((if_pos hp).trans ?_))
  dsimp only
  rw [hm, ht]

theorem pdelayResp_later (h : k.msDelay ≠ none ∨ k.syncTx = none) : exec (.pdelayResp m sent var) s = .next s1 := by
  subst hk h1 hd
  refine next_congr ((ptpMsg_enabled hup hr he).trans ((if_pos hp).trans ?_))
  dsimp only
  split
  · next hm ht => simp [hm, ht] at h
  · rfl

end

end

/-! Samples, edges and lines. -/

theorem ptpSampleTimeout_row {gm : Nat} (ht : (getRef s (2 + gm)).lastSample = some t) : exec (.ptpSampleTimeout gm) s =
    if gm < 2 ∧ (getRef s (2 + gm)).good = true ∧ s.tim.ticks - t ≥ 2400000000 * 2 ^ ((getRef s (2 + gm)).logSync + 4).toNat / 16 then
      .next (recompute (bumpSat (updRef s (2 + gm) (fun x => { x with good := false, valid := 0 })) bTIM 0x88 0 32 1))
    else .next s := by
  show execPtpSampleTimeout gm s = _
  unfold execPtpSampleTimeout
  dsimp only
  rw [ht, ticksOfS_3]
  rfl

theorem ptpSampleTimeout_none {gm : Nat} (ht : (getRef s (2 + gm)).lastSample = none) : exec (.ptpSampleTimeout gm) s = .next s := by
  show execPtpSampleTimeout gm s = _
  unfold execPtpSampleTimeout
  dsimp only
  rw [ht]

theorem ppsEdge_taken {good : Bool} (hr : r < 2) (he : refEnabled s r = true) (h1 : s1 = lineLost s r)
    (hg : good = (match (getRef s r).lastEdge with | some t => !(getRef s r).missed && decide (s.tim.ticks - t + 800 ≥ 800000000 ∧ s.tim.ticks - t ≤ 800000800) | none => false)) :
    exec (.ppsEdge r) s = .next (updRef s1 r (fun x => { x with lastEdge := some s.tim.ticks, missed := false, edgeOk := good, waiting := true })) := by
  subst h1 hg
  show execPpsEdge r s = _
  unfold execPpsEdge
  rw [if_neg (by simp [hr, he]), ticksOfS_1]
  rfl

section
variable {sec : Nat} {locked crcOk : Bool}

theorem todLine_stays (h : r ≥ 2 ∨ refEnabled s r = false ∨ (getRef s r).waiting = false ∨ (getRef s r).lastEdge = none) : exec (.todLine r sec locked crcOk) s = .next s := by
  show execTodLine r sec locked crcOk s = _
  unfold execTodLine
  dsimp only
  split
  · next ht => exact if_pos (by simpa [ht] using h)
  · rfl

theorem todLine_taken (hr : r < 2) (he : refEnabled s r = true) (hw : (getRef s r).waiting = true) (ht : (getRef s r).lastEdge = some t)
    (hwin : w = decide (40000000 ≤ s.tim.ticks - t ∧ s.tim.ticks - t ≤ 760000000))
    (h1 : s1 = updRef s r (fun x => { x with waiting := false, todSec := if crcOk && w then some sec else none })) :
    exec (.todLine r sec locked crcOk) s = if (getRef s r).edgeOk && w && crcOk && locked && decide ((getRef s r).todSec = some (sec - 1) ∧ sec > 0) then
        .next (checkS8 (validSample s1 r (((sec : Int) - 1) * 80000000000000 + 100000 * ((s.tim.ticks - t : Nat) : Int) - s.tim.tai)))
      else .next (invalidSample s1 r) := by
  subst h1 hwin
  show execTodLine r sec locked crcOk s = _
  unfold execTodLine
  dsimp only
  rw [ht]
  dsimp only
  rw [if_neg (by simp [hr, he, hw]), ticksOfMs_50, ticksOfMs_950]
  rfl

end

theorem ppsMissing_row (ht : (getRef s r).lastEdge = some t) : exec (.ppsMissing r) s =
    if r ≥ 2 ∨ refEnabled s r = false ∨ s.tim.ticks - t ≤ 800000800 then .next s
    else .next (invalidSample (updRef (lineLost s r) r (fun x => { x with lastEdge := some (t + 800000000), missed := true, todSec := none })) r) := by
  show execPpsMissing r s = _
  unfold execPpsMissing
  rw [ht, ticksOfS_1]
  rfl

theorem ppsMissing_stays (h : r ≥ 2 ∨ refEnabled s r = false ∨ (getRef s r).lastEdge = none ∨ ((getRef s r).lastEdge = some t ∧ s.tim.ticks - t ≤ 800000800)) :
    exec (.ppsMissing r) s = .next s := by
  cases hl : (getRef s r).lastEdge with
  | none =>
    show execPpsMissing r s = _
    unfold execPpsMissing
    rw [hl]
  | some t' =>
    refine (ppsMissing_row hl).trans (if_pos ?_)
    rcases h with h | h | h | ⟨h, hle⟩
    · exact .inl h
    · exact .inr (.inl h)
    · simp [hl] at h
    · rw [hl] at h
      cases h
      exact .inr (.inr hle)

/-! The recomputation of u and the end of the acquisition. -/

theorem uRecompute_some {e k0 : Nat} (h : s.tim.uHist.head? = some (e, k0)) : exec .uRecompute s = .next (if s.tim.ticks - e ≥ 1024 then recompute s else s) := by
  obtain ⟨l, hl⟩ := List.head?_eq_some_iff.mp h
  show execURecompute s = _
  unfold execURecompute
  rw [hl]
  rfl

theorem uRecompute_none (h : s.tim.uHist.head? = none) : exec .uRecompute s = .next (recompute s) := by
  show execURecompute s = _
  unfold execURecompute
  rw [List.head?_eq_none_iff.mp h]

theorem acqWaitExpire_some (h : s.tim.acqFirst = some t) :
    exec .acqWaitExpire s = .next (if inS8 s && decide (s.tim.ticks - t ≥ 800000000 * fget s bTIM 0x30 16 8) then endS8 s else s) := by
  show execAcqWaitExpire s = _
  unfold execAcqWaitExpire
  rw [h, ticksOfS, Nat.mul_comm]
  rfl

theorem acqWaitExpire_none (h : s.tim.acqFirst = none) : exec .acqWaitExpire s = .next s := by
  show execAcqWaitExpire s = _
  unfold execAcqWaitExpire
  rw [h]

/-! The inputs of the root PLL. -/

section
variable {inp : Nat}

theorem refInputLoss_other (hi : inp < 3) (h1 : s1 = { s with tim.usable := setBits s.tim.usable inp 1 0 }) (h : s.tim.pllSrc ≠ inp) : exec (.refInputLoss inp) s = .next s1 := by
  subst h1
  exact (if_neg (Nat.not_le.mpr hi)).trans (if_pos h)

theorem refInputLoss_source (hi : inp < 3) (h1 : s1 = { s with tim.usable := setBits s.tim.usable inp 1 0 }) (h : s.tim.pllSrc = inp) :
    exec (.refInputLoss inp) s = match bestInput s1 with
      | some j => .next (switchInput s1 j)
      | none => .next { s1 with tim.pllSrc := 3, tim.pllLock := false } := by
  subst h1
  refine (if_neg (Nat.not_le.mpr hi)).trans ((if_neg (not_not.mpr h)).trans ?_)
  rfl

theorem refInputReturn_usable (hi : inp < 3) (hs : s.tim.pllSrc ≠ 3) (hb : bit s.tim.usable inp = true) : exec (.refInputReturn inp) s =
    if (inputOrder s).idxOf inp < (inputOrder s).idxOf s.tim.pllSrc ∧ s.tim.ticks - (s.tim.usableSince[inp]?).getD 0 ≥ 48000000000 then .next (switchInput s inp) else .next s := by
  rw [← ticksOfS_60]
  exact (if_neg (not_or.mpr ⟨Nat.not_le.mpr hi, hs⟩)).trans (if_neg (by simp [hb]))

end

end

/-- Settles O48: what each event of the time base does, and where it does nothing. -/
theorem timeEventsComplete : Obligations.TimeEventsComplete := by
  unfold Obligations.TimeEventsComplete
  intro s s1 m i r gm sec inp j k0 sent d t1 offset var scale locked crcOk good w k e t
  refine ⟨fun hi => ?message, fun h => next_congr (if_pos h), fun hup h => pdelayReq_unknown hup h, fun hup h => pdelayReq_known hup h, fun hup hr he hk => ?grandmaster, fun hk => ?timeout, fun h => if_pos h,
    fun hr he h1 hg => ppsEdge_taken hr he h1 hg, fun hk => ?line, ?recompute, fun h hlt => (uRecompute_some h).trans (next_congr (if_neg (Nat.not_le.mpr hlt))),
    fun h => next_congr (if_pos h), fun h => next_congr (if_neg h), rfl, fun h h8 hge => (acqWaitExpire_some h).trans (next_congr (if_pos (by simp [h8, hge]))), fun h => ?acq,
    fun h => if_pos h, fun h => if_neg (by simp [h]), fun h => ?_, fun hi h1 => ⟨fun h => refInputLoss_other hi h1 h, fun h hb => ?_, fun h hb => ?_⟩, fun hi h3 => ?returns, fun hi h3 => ?hold⟩
  case message =>
    obtain ⟨go, hrow⟩ := ptp_row (s := s) hi
    rw [hrow]
    exact ⟨fun h => next_congr (ptpMsg_down h), fun hup h => next_congr (ptpMsg_unknown hup h), fun hup h he => next_congr (ptpMsg_disabled hup h he)⟩
  case grandmaster =>
    refine ⟨fun h => sync_interval hup hr he h, fun hlo hhi h1 => ⟨fun h2 => (sync_taken hup hr he hlo hhi h1).trans (next_congr (if_pos h2)),
        fun h2 => (sync_taken hup hr he hlo hhi h1).trans (next_congr (if_neg (by simp [h2])))⟩,
      fun hq ht => (followUp_row hup hr he hk).trans (next_congr (if_pos ⟨hq, ht⟩)), fun h => (followUp_row hup hr he hk).trans (next_congr (if_neg (fun hc => ?_))),
      fun hp ht => delayResp_e2e hup hr he hk hp ht, fun h => delayResp_stays hup hr he hk h, fun hp => next_congr ((ptpMsg_enabled hup hr he).trans (if_neg (by simp [hp]))),
      fun hp hd h1 => ⟨fun hm ht => pdelayResp_first hup hr he hk hp hd h1 hm ht, fun h => pdelayResp_later hup hr he hk hp hd h1 h⟩, fun h1 hw => ?_⟩
    · exact h.elim (· hc.1) (· hc.2)
    · subst hk
      refine ⟨fun hs ho hq => (announce_row hup hr he h1 hw).trans (next_congr (if_pos (by simp [hs, ho, hq]))),
        fun h => (announce_row hup hr he h1 hw).trans (next_congr (if_neg ?_))⟩
      rcases h with h | h | h <;> simp [h]
  case timeout =>
    subst hk
    refine ⟨fun t ht hg hgood hlate => (ptpSampleTimeout_row ht).trans (if_pos ⟨hg, hgood, hlate⟩), fun h => ?_⟩
    cases hl : (getRef s (2 + gm)).lastSample with
    | none => exact ptpSampleTimeout_none hl
    | some t =>
      refine (ptpSampleTimeout_row hl).trans (if_neg ?_)
      rintro ⟨hg, hgood, hlate⟩
      rcases h with h | h | h | ⟨t', ht, h⟩
      · exact Nat.not_le.mpr hg h
      · simp [hgood] at h
      · simp [hl] at h
      · rw [hl] at ht
        cases ht
        exact Nat.not_le.mpr h hlate
  case line =>
    subst hk
    refine ⟨fun h => todLine_stays h, fun hr he hw ht hwin h1 => ⟨fun ho hin hc hl hsec hpos => (todLine_taken hr he hw ht hwin h1).trans (if_pos (by simp [ho, hin, hc, hl, hsec, hpos])),
        fun h => (todLine_taken hr he hw ht hwin h1).trans (if_neg (by simpa [and_assoc] using h))⟩,
      fun hr he ht hlate => (ppsMissing_row ht).trans (if_neg (not_or.mpr ⟨Nat.not_le.mpr hr, not_or.mpr ⟨by simp [he], Nat.not_le.mpr hlate⟩⟩)), fun h => ppsMissing_stays h⟩
  case recompute =>
    rintro (h | ⟨h, hge⟩)
    · exact uRecompute_none h
    · exact (uRecompute_some h).trans (next_congr (if_pos hge))
  case acq =>
    rcases h with h | h | ⟨h, hlt⟩
    · exact acqWaitExpire_none h
    · cases ht : s.tim.acqFirst with
      | none => exact acqWaitExpire_none ht
      | some t => exact (acqWaitExpire_some ht).trans (next_congr (if_neg (by simp [h])))
    · exact (acqWaitExpire_some h).trans (next_congr (if_neg (by simp [Nat.not_le.mpr hlt])))
  · exact ⟨if_pos h, if_pos (.inl h), if_neg (fun hc => Nat.not_le.mpr hc.1 h)⟩
  · rw [refInputLoss_source hi h1 h, hb]
  · rw [refInputLoss_source hi h1 h, hb]
  case returns =>
    exact ⟨fun h => (if_neg (not_or.mpr ⟨Nat.not_le.mpr hi, h3⟩)).trans (if_pos h), fun hb ho hs => (refInputReturn_usable hi h3 hb).trans (if_pos ⟨ho, hs⟩),
      fun hb h => (refInputReturn_usable hi h3 hb).trans (if_neg h), if_neg (fun hc => h3 hc.2.1)⟩
  case hold =>
    exact ⟨if_pos (.inr h3), fun hr => if_pos ⟨hi, h3, hr⟩, fun hr => if_neg (fun hc => by simp [hr] at hc)⟩

/-! ### The SEALED steps (R105 to R107, R142, R303, R309, Table 4.2) -/

/-- The work of the SEALED step n (Table 4.2). -/
def stepWork (f : BootFacts) (s : State) : Nat → State
  | 0 => stepS0 s
  | 1 => stepS1 f s
  | 2 => stepS2 f s
  | 3 => stepS3 f s
  | 4 => stepS4 s
  | 5 => stepS5 f s
  | 6 => stepS6 s
  | 7 => if waitsDecl s then s else stepS7 f s
  | 8 => checkS8 s
  | _ => stepS9 s

section
variable {s s1 : State} {f : BootFacts} {failed : Bool} {n : Nat}

theorem sealedStep_row (hb : booting s = true) : exec (.sealedStepComplete f) s = .next (stepWork f s s.sec.step) :=
  if_neg (by simp [hb])

theorem sealedStep_of (hb : booting s = true) (hs : s.sec.step = n) : exec (.sealedStepComplete f) s = .next (stepWork f s n) := by
  rw [sealedStep_row hb, hs]

theorem stepS1_none (h1 : s1 = { s with tim.usable := f.usable % 8 }) (h : bestInput s1 = none) : stepS1 f s = bootFail s := by
  subst h1
  unfold stepS1
  dsimp only
  rw [h]

theorem stepS1_some {i : Nat} (h1 : s1 = { s with tim.usable := f.usable % 8 }) (h : bestInput s1 = some i) : stepS1 f s =
    beginStep (putLeap { s1 with tim.usableSince := [s.tim.ticks, s.tim.ticks, s.tim.ticks], tim.pllSrc := i, tim.pllLock := true, tim.running := true, tim.tai := 0, tim.rem := 0, sec.coldWait := (match s.hlt.temps with | [] => false | x :: l => decide (l.foldl max x < 0)) }) 2 := by
  subst h1
  unfold stepS1
  dsimp only
  rw [h] <;> rfl

theorem stepS2_cold (h : s.sec.coldWait = true) : stepS2 f s = s := if_pos h

theorem stepS2_found (hc : s.sec.coldWait = false) (hp : [1, 3, 15, 255].contains f.pop = true) (hd : [1, 2, 4, 8].contains f.dimm = true) (hs : f.speed ≤ 2) :
    stepS2 f s = beginStep (rawSet (rawSet s bMEM 0x10 (f.pop + 2 ^ 8 * f.speed + 2 ^ 16 * f.dimm + 2 ^ 24)) bMEM 0x14 (chanCount f.pop * f.dimm * 16)) 3 := by
  refine (if_neg (by simp [hc])).trans (if_pos ?_)
  rw [hp, hd]
  simpa using hs

theorem stepS2_fails (hc : s.sec.coldWait = false) (h : [1, 3, 15, 255].contains f.pop = false ∨ [1, 2, 4, 8].contains f.dimm = false ∨ 2 < f.speed) : stepS2 f s = bootFail s := by
  refine (if_neg (by simp [hc])).trans (if_neg ?_)
  rcases h with h | h | h
  · rw [h]
    simp
  · rw [h]
    simp
  · simp [Nat.not_le.mpr h]

theorem stepS5_found (h : scanOk f s = true) (ht : f.tailFail = none) (hh : (flashScan f s).inMode .hold = false) : stepS5 f s = endS5 f (flashScan f s) := by
  refine (if_neg (by simp [h])).trans ?_
  dsimp only
  rw [ht]
  exact if_neg (by simp [hh])

theorem stepS5_tail (h : scanOk f s = true) (ht : f.tailFail = some n) : stepS5 f s = bootFail (fset (fset (flashScan f s) bJRN 0x3C 1 1 1) bJRN 0x3C 8 7 n) := by
  refine (if_neg (by simp [h])).trans ?_
  dsimp only
  rw [ht]

/-- A step that waits, for 0 °C or for the declaration, does not time out. -/
theorem bootTimeout_waits (h : booting s = false ∨ s.sec.coldWait = true ∨ waitsDecl s = true) : exec (.bootStepTimeout failed) s = .next s :=
  next_congr (if_neg (by rcases h with h | h | h <;> simp [h]))

theorem bootTimeout_early (hf : failed = false) (h : s.tim.ticks - s.sec.stepSince ≤ stepLimit s s.sec.step) : exec (.bootStepTimeout failed) s = .next s := by
  refine next_congr (if_neg ?_)
  rw [hf]
  simp only [Bool.false_or, Bool.and_eq_true, decide_eq_true_eq, not_and]
  exact fun _ => Nat.not_lt.mpr h

section
variable (hb : booting s = true) (hc : s.sec.coldWait = false) (hw : waitsDecl s = false)
include hb hc hw

theorem bootTimeout_fails (h : failed = true ∨ s.tim.ticks - s.sec.stepSince > stepLimit s s.sec.step) : exec (.bootStepTimeout failed) s = .next (bootFail s) := by
  refine next_congr (if_pos ?_)
  rw [hb, hc, hw]
  simpa [State.since] using h

end

end

/-! ### Partings, the sequencer and replies (R31, R168 to R171, R393, R442, R445) -/

section
variable {s s1 : State} {t b n sn : Nat} {k : Book} {g : Grain} {q : GReq} {qs : List GReq} {r : Reply} {clear : Bool} {st : Stream}

theorem parting_now (hk : k = getBook s t b) (ho : onSale k = true) (hp : k.pb ≤ s.now) (hf : followsRecord s t = false) (ha : s.tim.acquired = true) (hh : s.inMode .hold = false) (hs : s.inMode .sealed = false) :
    exec (.partingInstant t b) s = .next (partBook s t b (uAtTick s (s.tim.ticks - ticksOfNs (s.now - k.pb))) false 0) := by
  subst hk
  exact next_congr (if_pos (by simp [ho, hp, hf, ha, hh, hs]))

theorem parting_not (hk : k = getBook s t b) (h : onSale k = false ∨ s.now < k.pb ∨ followsRecord s t = true ∨ s.tim.acquired = false ∨ s.inMode .hold = true ∨ s.inMode .sealed = true) :
    exec (.partingInstant t b) s = .next s := by
  subst hk
  refine next_congr (if_neg ?_)
  rcases h with h | h | h | h | h | h <;> simp [h]

theorem partNumber_now (hk : k = getBook s t b) (hc : clear = true) (hw : k.partWait = true) (he : (booksOf s t).any (fun x => decide (x < b) && (getBook s t x).partWait && (getBook s t x).pb == k.pb) = false)
    (hst : streamStill s t = false) (hj : s.jrn.closed = false) (hh : s.inMode .hold = false) (hs : s.inMode .sealed = false) :
    exec (.partNumber t b clear) s = .next (mediaGate s t (numberPart s t b 0)) := by
  subst hk
  exact next_congr (if_pos (by rw [hc, hw, he, hst, hj, hh, hs]; rfl))

theorem partNumber_not (hk : k = getBook s t b) (h : clear = false ∨ k.partWait = false ∨ (booksOf s t).any (fun x => decide (x < b) && (getBook s t x).partWait && (getBook s t x).pb == k.pb) = true ∨
    streamStill s t = true ∨ s.jrn.closed = true ∨ s.inMode .hold = true ∨ s.inMode .sealed = true) : exec (.partNumber t b clear) s = .next s := by
  subst hk
  refine next_congr (if_neg ?_)
  rcases h with h | h | h | h | h | h | h <;> rw [h] <;> simp

theorem bookClose_at (hk : k = getBook s t b) (hn : k.partSeq = some n) (hg : grainAt s t n = some g) : exec (.bookClose t b) s =
    .next (if k.sales = .parting ∧ isDurable s t n = true ∧ s.inMode .hold = false ∧ s.inMode .sealed = false then
        eventOwn (changeBook s t b (taiAt s g.durAt) (fun k => { k with st := votedOf Sales.closed.code })) t 9 3 0x0383 [b, n] (taiAt s g.durAt) (uAtTick s g.durAt) b 0 0
      else s) := by
  subst hk
  show execBookClose t b s = _
  unfold execBookClose
  dsimp only
  rw [hn]
  dsimp only
  rw [hg]

theorem bookClose_none (hk : k = getBook s t b) (h : k.partSeq = none ∨ (k.partSeq = some n ∧ grainAt s t n = none)) : exec (.bookClose t b) s = .next s := by
  subst hk
  show execBookClose t b s = _
  unfold execBookClose
  dsimp only
  rcases h with h | ⟨h, hg⟩
  · rw [h]
  · rw [h]
    dsimp only
    rw [hg]

theorem bookClose_not (hk : k = getBook s t b)
    (h : k.partSeq = none ∨ (k.partSeq = some n ∧ (grainAt s t n = none ∨ k.sales ≠ .parting ∨ isDurable s t n = false ∨ s.inMode .hold = true ∨ s.inMode .sealed = true))) :
    exec (.bookClose t b) s = .next s := by
  rcases h with h | ⟨hn, h⟩
  · exact bookClose_none (n := n) hk (.inl h)
  · cases hg : grainAt s t n with
    | none => exact bookClose_none hk (.inr ⟨hn, hg⟩)
    | some g =>
      refine (bookClose_at hk hn hg).trans (next_congr (if_neg ?_))
      rcases h with h | h | h | h | h
      · simp [hg] at h
      all_goals simp [h]

theorem grainNumber_head (h : (strm s t).reqs = q :: qs) : exec (.grainRequestNumber t) s = .next (if roomFor s t q.body then mediaGate s t (numberHead s t) else s) := by
  show execGrainRequestNumber t s = _
  unfold execGrainRequestNumber
  rw [h]

theorem grainNumber_empty (h : (strm s t).reqs = []) : exec (.grainRequestNumber t) s = .next s := by
  show execGrainRequestNumber t s = _
  unfold execGrainRequestNumber
  rw [h]

theorem grainDurable_at (hst : st = strm s t) (h : grainAt s t st.dur = some g) : exec (.grainDurable t) s =
    .next (if g.flash then s
      else if occUpTo s t g ≤ cwinBytes s then nowDurable s t (st.dur + 1)
      else if g.waited then s
      else bumpWrap (setStrm s t { st with grains := st.grains.map (fun x => if x.seq = g.seq then { x with waited := true } else x) }) bJRN 0x4C 0 32 1) := by
  subst hst
  show execGrainDurable t s = _
  unfold execGrainDurable
  dsimp only
  rw [h]

theorem grainDurable_none (hst : st = strm s t) (h : grainAt s t st.dur = none) : exec (.grainDurable t) s = .next s := by
  subst hst
  show execGrainDurable t s = _
  unfold execGrainDurable
  dsimp only
  rw [h]

theorem replyRelease_at (hr : nextReply s t sn = some r) (hg : grainAt s t r.seq = some g) (h1 : s1 = { s with awp.replies := s.awp.replies.filter (fun x => !(x.tenant == t && x.seq == r.seq)) }) :
    exec (.replyRelease t sn) s = .next (if mayRelease s t r.seq then replyGone (sendReceipt s1 r g) t sn else s) := by
  subst h1
  show execReplyRelease t sn s = _
  unfold execReplyRelease
  rw [hr]
  dsimp only
  rw [hg]

theorem replyRelease_none (h : nextReply s t sn = none ∨ (nextReply s t sn = some r ∧ grainAt s t r.seq = none)) : exec (.replyRelease t sn) s = .next s := by
  show execReplyRelease t sn s = _
  unfold execReplyRelease
  rcases h with h | ⟨h, hg⟩
  · rw [h]
  · rw [h]
    dsimp only
    rw [hg]

theorem replyRelease_not (h : nextReply s t sn = none ∨ (nextReply s t sn = some r ∧ (grainAt s t r.seq = none ∨ isDurable s t r.seq = false ∨ (syncOn s t = true ∧ firstUnmatched s t ≤ r.seq)))) :
    exec (.replyRelease t sn) s = .next s := by
  rcases h with h | ⟨hr, h⟩
  · exact replyRelease_none (r := r) (.inl h)
  · cases hg : grainAt s t r.seq with
    | none => exact replyRelease_none (.inr ⟨hr, hg⟩)
    | some g =>
      refine (replyRelease_at hr hg rfl).trans (next_congr (if_neg ?_))
      rcases h with h | h | ⟨h, hle⟩
      · simp [hg] at h
      · simp [mayRelease, h]
      · simp [mayRelease, h, Nat.not_lt.mpr hle]

end

/-- Settles O49: the SEALED steps and their failures, partings, numbering, durability and the release of replies. -/
theorem bootAndSequencerComplete : Obligations.BootAndSequencerComplete := by
  unfold Obligations.BootAndSequencerComplete
  intro s s1 f t b n sn k g q qs r failed clear st
  refine ⟨fun h => ⟨if_pos h, bootTimeout_waits (.inl h)⟩, fun hb => ?steps, fun hh hm => next_congr (if_pos ⟨hh, hm⟩), fun h => next_congr (if_neg (fun hc => ?_)), fun hk => ?book,
    fun h hr => (grainNumber_head h).trans (next_congr (if_pos hr)), fun h => ?number, fun hst => ?durable, fun hr hg hd hm h1 => ?reply, fun h => replyRelease_not h⟩
  case steps =>
    refine ⟨fun h => sealedStep_of hb h, fun h h1 => ⟨fun hi => ?_, fun i hi => ?_⟩, fun h => ⟨fun hc => ?_, fun hc hp hd hs => ?_, fun hc hf => ?_⟩, fun h => sealedStep_of hb h, fun h => sealedStep_of hb h,
      fun h hs => ?_, fun h hs ht hh => ?_, fun h hs ht => ?_, fun h => sealedStep_of hb h, fun h hw => ⟨?_, bootTimeout_waits (.inr (.inr hw))⟩, fun h hw => ?_, fun h => sealedStep_of hb h, fun h => sealedStep_of hb h,
      fun hc => bootTimeout_waits (.inr (.inl hc)), fun hc hw => ⟨fun hf => ⟨fun h4 => ?_, fun h4 => ?_⟩, fun hf hl => bootTimeout_early hf hl⟩⟩
    · exact (sealedStep_of hb h).trans (next_congr (stepS1_none h1 hi))
    · exact (sealedStep_of hb h).trans (next_congr (stepS1_some h1 hi))
    · exact (sealedStep_of hb h).trans (next_congr (stepS2_cold hc))
    · exact (sealedStep_of hb h).trans (next_congr (stepS2_found hc hp hd hs))
    · exact (sealedStep_of hb h).trans (next_congr (stepS2_fails hc hf))
    · exact (sealedStep_of hb h).trans (next_congr (if_pos hs))
    · exact (sealedStep_of hb h).trans (next_congr (stepS5_found hs ht hh))
    · exact (sealedStep_of hb h).trans (next_congr (stepS5_tail hs ht))
    · exact (sealedStep_of hb h).trans (next_congr (if_pos hw))
    · exact (sealedStep_of hb h).trans (next_congr (if_neg (by simp [hw])))
    · exact (bootTimeout_fails hb hc hw hf).trans (next_congr (if_pos h4))
    · exact (bootTimeout_fails hb hc hw hf).trans (next_congr (if_neg (Nat.not_le.mpr h4)))
  · rcases h with h | h
    · simp [h] at hc
    · exact hc.2 h
  case book =>
    exact ⟨fun ho hp hf ha hh hs => parting_now hk ho hp hf ha hh hs, fun h => parting_not hk h, fun hc hw he hst hj hh hs => partNumber_now hk hc hw he hst hj hh hs, fun h => partNumber_not hk h,
      fun hn hg hsl hd hh hs => (bookClose_at hk hn hg).trans (next_congr (if_pos ⟨hsl, hd, hh, hs⟩)), fun h => bookClose_not hk h⟩
  case number =>
    rcases h with h | ⟨h, hr⟩
    · exact grainNumber_empty h
    · exact (grainNumber_head h).trans (next_congr (if_neg (by simp [hr])))
  case durable =>
    refine ⟨fun h hf ho => (grainDurable_at hst h).trans (next_congr ((if_neg (by simp [hf])).trans (if_pos ho))),
      fun h hf ho hw => (grainDurable_at hst h).trans (next_congr ((if_neg (by simp [hf])).trans ((if_neg (Nat.not_le.mpr ho)).trans (if_neg (by simp [hw]))))), ?_⟩
    rintro (h | ⟨h, hf | ⟨ho, hw⟩⟩)
    · exact grainDurable_none hst h
    · exact (grainDurable_at hst h).trans (next_congr (if_pos hf))
    · refine (grainDurable_at hst h).trans (next_congr ?_)
      rw [if_neg (Nat.not_le.mpr ho), if_pos hw, ite_self]
  case reply =>
    have hmay : mayRelease s t r.seq = true := by
      rcases hm with hm | hm <;> simp [mayRelease, hd, hm]
    have hrow := (replyRelease_at hr hg h1).trans (next_congr (if_pos hmay))
    rw [hrow]
    exact ⟨fun hb => next_congr (congrArg (replyGone · t sn) (if_pos hb)), fun hb => next_congr (congrArg (replyGone · t sn) (if_neg (by simp [hb])))⟩

/-! ### Register space (R70 to R101, R174, R279) -/

section
variable {s : State} {req b off width val : Nat}

/-- The registers that a write of the management requester alone may reach (Table 3.2). -/
def MgmtOnly (b off : Nat) : Prop := (b = bSYS ∧ off = 0x20) ∨ (b = bPRT ∧ (off = 0x20 ∨ off = 0x24)) ∨ (b = bRPL ∧ off = 0x28)

theorem forbidden_none (hd : dataSpace s b off = none) (hsec : ¬ (b = bSEC ∧ off = 0x50)) (h : req = 0x60 ∨ ¬ MgmtOnly b off) : forbidden s req b off false = false := by
  rw [← Bool.not_eq_true]
  intro hf
  simp only [forbidden, hd, Bool.false_and, Bool.false_or, Bool.or_false, Bool.or_eq_true, Bool.and_eq_true, beq_iff_eq, decide_eq_true_eq] at hf
  rcases hf with hf | ⟨hne, hf⟩
  · exact hsec hf
  · exact h.elim hne (fun h => h (or_assoc.mp hf))

theorem forbidden_mgmt (hne : req ≠ 0x60) (h : MgmtOnly b off) : forbidden s req b off false = true := by
  rcases h with ⟨rfl, rfl⟩ | ⟨rfl, rfl | rfl⟩ | ⟨rfl, rfl⟩ <;> simp [forbidden, reqMgmt, hne, bSYS, bPRT, bRPL, bSEC]

theorem fabric_held (h : req > 0x60 ∨ s.pwr.held = true) : fabricWrite s req b off width val = .next s := if_pos h

section
variable (hreq : req ≤ 0x60) (hheld : s.pwr.held = false)
include hreq hheld

theorem fabric_row : fabricWrite s req b off width val = wrote req (busWrite s req b off width val false 0) :=
  if_neg (not_or.mpr ⟨Nat.not_lt.mpr hreq, by simp [hheld]⟩)

theorem fabric_refused {r : Nat} (h : accessReason b off width true = r) (hr : r ≠ 0) :
    fabricWrite s req b off width val = .next (emitOut (busErr s req (regAddr b off) true r).st (.busErr req r)) := by
  subst h
  rw [fabric_row hreq hheld, busWrite, if_pos hr, wrote, busErr, if_neg hr]

variable (ha : accessReason b off width true = 0)
include ha

theorem fabric_forbidden (h : forbidden s req b off false = true) :
    fabricWrite s req b off width val = .next (emitOut (busErr s req (regAddr b off) true 7).st (.busErr req 7)) := by
  rw [fabric_row hreq hheld, busWrite, if_neg (not_not.mpr ha), if_pos h]
  rfl

variable (hf : forbidden s req b off false = false)
include hf

theorem fabric_unlock (h : off = 4) : fabricWrite s req b off width val = .next (unlockWrite s req b (val % 2 ^ 32)) := by
  rw [fabric_row hreq hheld, busWrite, if_neg (not_not.mpr ha), hf, if_neg Bool.false_ne_true, if_pos h]
  rfl

variable (h4 : off ≠ 4) (hd : dataSpace s b off = none)
include h4 hd

theorem fabric_plain : fabricWrite s req b off width val =
    wrote req (if isPosted b off then ⟨postWrite s req b off (val % 2 ^ 32), 0, 0⟩
      else if isKw b off then
        if guardOk s req b then ⟨guardedWrite (disarm s b) b off (val % 2 ^ 32) 0, 0, 0⟩ else ⟨setStat s b 2, 0, 0⟩
      else ⟨openWrite s req b off (val % 2 ^ 32) 0, 0, 0⟩) := by
  rw [fabric_row hreq hheld, busWrite, if_neg (not_not.mpr ha), hf, if_neg Bool.false_ne_true, if_neg h4, hd]

theorem fabric_posted (hp : isPosted b off = true) : fabricWrite s req b off width val = .next (postWrite s req b off (val % 2 ^ 32)) := by
  rw [fabric_plain hreq hheld ha hf h4 hd, if_pos hp]
  rfl

variable (hp : isPosted b off = false)
include hp

theorem fabric_guarded (hk : isKw b off = true) (hg : guardOk s req b = true) : fabricWrite s req b off width val = .next (guardedWrite (disarm s b) b off (val % 2 ^ 32) 0) := by
  rw [fabric_plain hreq hheld ha hf h4 hd, hp, if_neg Bool.false_ne_true, if_pos hk, if_pos hg]
  rfl

theorem fabric_unguarded (hk : isKw b off = true) (hg : guardOk s req b = false) : fabricWrite s req b off width val = .next (setStat s b 2) := by
  rw [fabric_plain hreq hheld ha hf h4 hd, hp, if_neg Bool.false_ne_true, if_pos hk, hg]
  rfl

theorem fabric_open (hk : isKw b off = false) : fabricWrite s req b off width val = .next (openWrite s req b off (val % 2 ^ 32) 0) := by
  rw [fabric_plain hreq hheld ha hf h4 hd, hp, hk]
  rfl

end

end

/-! The indirect spaces and their registers. -/

/-- Where an indirect space of a block has its address register. -/
def SpaceAt (b off : Nat) : Prop :=
  (b = bPRT ∧ (off = 0x10 ∨ off = 0x18)) ∨ (b = bSEC ∧ off = 0x40) ∨ (b = bUCD ∧ off = 0x20) ∨ ((0x20 ≤ b ∧ b ≤ 0x2B) ∧ off = 0x200) ∨ (b = bFLC ∧ off = 0x200) ∨ (b = bWIT ∧ off = 0x200) ∨
    (b = bHLT ∧ (off = 0x300 ∨ off = 0x310))

section
variable {s : State} {req b off val lane : Nat} {sp : Space}

theorem spaceAt_of_mem (h : sp ∈ spacesOf s b) : SpaceAt b sp.addrOff := by
  unfold spacesOf at h
  unfold SpaceAt
  split_ifs at h with h1 h2 h3 h4 h5 h6 h7 <;> simp only [List.mem_cons, List.not_mem_nil, or_false] at h
  all_goals grind

theorem spaceAt_of_addrSpace (h : addrSpace s b off = some sp) : SpaceAt b off ∧ sp.addrOff = off := by
  have ho : sp.addrOff = off := by simpa using List.find?_some h
  exact ⟨ho ▸ spaceAt_of_mem (List.mem_of_find?_eq_some h), ho⟩

theorem spaceAt_of_dataSpace (h : dataSpace s b off = some sp) : ∃ o, SpaceAt b o ∧ off = o + 4 := by
  have ho : sp.addrOff + 4 = off := by simpa using List.find?_some h
  exact ⟨_, spaceAt_of_mem (List.mem_of_find?_eq_some h), ho.symm⟩

theorem dataSpace_none (h : ∀ o, SpaceAt b o → off ≠ o + 4) : dataSpace s b off = none := by
  refine Option.eq_none_iff_forall_ne_some.mpr fun sp hsp => ?_
  obtain ⟨o, ho, hoff⟩ := spaceAt_of_dataSpace hsp
  exact h o ho hoff

theorem addrSpace_none (h : ¬ SpaceAt b off) : addrSpace s b off = none :=
  Option.eq_none_iff_forall_ne_some.mpr fun _ hsp => h (spaceAt_of_addrSpace hsp).1

/-- A space's address register is a register of its block that takes a write without a key, and its data register one that answers both ways. -/
theorem spaceAt_access (h : SpaceAt b off) : accessReason b off 32 true = 0 ∧ isKw b off = false ∧ isPosted b off = decide (b = bFLC ∨ b = bWIT) ∧
    accessReason b (off + 4) 32 true = 0 ∧ accessReason b (off + 4) 32 false = 0 := by
  rcases h with ⟨rfl, rfl | rfl⟩ | ⟨rfl, rfl⟩ | ⟨rfl, rfl⟩ | ⟨⟨hlo, hhi⟩, rfl⟩ | ⟨rfl, rfl⟩ | ⟨rfl, rfl⟩ | ⟨rfl, rfl | rfl⟩
  case inr.inr.inr.inl =>
    have hall : ∀ b < 0x2C, 0x20 ≤ b → accessReason b 0x200 32 true = 0 ∧ isKw b 0x200 = false ∧ isPosted b 0x200 = decide (b = bFLC ∨ b = bWIT) ∧
      accessReason b (0x200 + 4) 32 true = 0 ∧ accessReason b (0x200 + 4) 32 false = 0 := by decide
    exact hall b (by omega) hlo
  all_goals decide

theorem spaceAt_offset (h : SpaceAt b off) : off ≠ 4 ∧ off ≠ 8 ∧ off < 0x400 ∧ ¬ (b = bSEC ∧ off = 0x50) ∧ ¬ MgmtOnly b off ∧ ¬ MgmtOnly b (off + 4) ∧ ¬ (b = bSYS ∧ off = 0x30) ∧ ¬ (b = bSYS ∧ off = 0x40) ∧
    (∀ o, SpaceAt b o → off ≠ o + 4) := by
  simp only [SpaceAt, MgmtOnly, bPRT, bSEC, bUCD, bFLC, bWIT, bHLT, bSYS, bRPL] at h ⊢
  refine ⟨?_, ?_, ?_, ?_, ?_, ?_, ?_, ?_, fun o ho => ?_⟩ <;> omega

theorem openWrite_space (h : SpaceAt b off) (hsp : addrSpace s b off = some sp) (v cjn : Nat) : openWrite s req b off v cjn = addrWrite s req b sp v := by
  obtain ⟨-, h8, -, -, hm, -, h30, h40, -⟩ := spaceAt_offset h
  unfold openWrite
  rw [if_neg h30, if_neg h40, if_neg (fun hc => hm (.inr (.inr hc))), if_neg h8, hsp]

/-! The registers of a lane. -/

theorem laneWrites (h : lane < 48) : accessReason (bLQ + lane / 4) (laneOff (lane % 4) 0) 32 true = 0 ∧ accessReason (bLQ + lane / 4) (laneOff (lane % 4) 4) 32 true = 0 ∧
    isKw (bLQ + lane / 4) (laneOff (lane % 4) 0) = false ∧ isKw (bLQ + lane / 4) (laneOff (lane % 4) 4) = true := by
  have hall : ∀ q < 12, ∀ i < 4, accessReason (bLQ + q) (laneOff i 0) 32 true = 0 ∧ accessReason (bLQ + q) (laneOff i 4) 32 true = 0 ∧
    isKw (bLQ + q) (laneOff i 0) = false ∧ isKw (bLQ + q) (laneOff i 4) = true := by decide
  exact hall (lane / 4) (by omega) (lane % 4) (Nat.mod_lt _ (by decide))

end

/-! ### The rows of register space (R70 to R101, R174, R279) -/

section
variable {s s1 t : State} {req b off width val v o a lane scope tenant book n : Nat} {i : Instr} {sp : Space} {g : Guard} {p : Posted} {x : BusRes}

theorem accessReason_unlock (h : assigned b = true) : accessReason b 4 32 true = 0 := by simp [accessReason, known, h]

theorem dataSpace_unlock : dataSpace s b 4 = none := dataSpace_none fun o ho => by
  simp only [SpaceAt] at ho
  omega

theorem not_mgmtOnly_unlock : ¬ MgmtOnly b 4 := by simp [MgmtOnly]

theorem bookWord_lt (ho : o ≤ 5) : bookWord o scope tenant book < 2 ^ 32 := by
  unfold bookWord
  omega

/-- A BOOKCMD row writes its operation's word. -/
theorem bookcmd_row (h : (i = .bookcmdOpen req scope tenant book ∧ o = 1) ∨ (i = .bookcmdSetcause req scope tenant book ∧ o = 2) ∨ (i = .bookcmdClearcause req scope tenant book ∧ o = 3) ∨
    (i = .bookcmdRelease req scope tenant book ∧ o = 4) ∨ (i = .bookcmdRestore req scope tenant book ∧ o = 5)) :
    o ≤ 5 ∧ exec i s = fabricWrite s req bPRT 0x20 32 (bookWord o scope tenant book) := by
  rcases h with ⟨rfl, rfl⟩ | ⟨rfl, rfl⟩ | ⟨rfl, rfl⟩ | ⟨rfl, rfl⟩ | ⟨rfl, rfl⟩ <;> exact ⟨by decide, rfl⟩

/-- A device that is held, or another requester, takes no access. -/
theorem register_held (h : req > 0x60 ∨ s.pwr.held = true)
    (hi : i = .unlock req b val ∨ i = .update req val ∨ i = .snap req ∨ i = .modeWrite req val ∨ i = .registerWrite req b off width val ∨ i = .indirectAddrWrite req b off val ∨ i = .indirectDataWrite req b off val ∨ i = .indirectDataRead req b off ∨
      i = .bookcmdOpen req scope tenant book ∨ i = .bookcmdSetcause req scope tenant book ∨ i = .bookcmdClearcause req scope tenant book ∨ i = .bookcmdRelease req scope tenant book ∨ i = .bookcmdRestore req scope tenant book ∨ i = .refenWrite req val ∨
      i = .eclassWrite req val ∨ i = .freezeWrite req lane val ∨ i = .lmargWrite req lane val ∨ i = .rplRunWrite req val) : exec i s = .next s := by
  have hguard {c : Prop} [Decidable c] {b off width val : Nat} : (if c then fabricWrite s req b off width val else .next s) = .next s := by
    rw [fabric_held h, ite_self]
  rcases hi with rfl | rfl | rfl | rfl | rfl | rfl | rfl | rfl | rfl | rfl | rfl | rfl | rfl | rfl | rfl | rfl | rfl | rfl
  case inr.inr.inr.inr.inr.inl => exact hguard
  case inr.inr.inr.inr.inr.inr.inl => exact hguard
  case inr.inr.inr.inr.inr.inr.inr.inl => exact if_neg fun hc => h.elim (Nat.not_lt.mpr hc.2.1) fun hh => by simp [hh] at hc
  case inr.inr.inr.inr.inr.inr.inr.inr.inr.inr.inr.inr.inr.inr.inr.inl => exact hguard
  case inr.inr.inr.inr.inr.inr.inr.inr.inr.inr.inr.inr.inr.inr.inr.inr.inl => exact hguard
  all_goals exact fabric_held h

section
variable (hreq : req ≤ 0x60) (hheld : s.pwr.held = false)
include hreq hheld

/-- The rows that no requester but the management one may write. -/
theorem register_mgmt (hne : req ≠ 0x60)
    (hi : (i = .modeWrite req val ∧ a = bSYS ∧ o = 0x20) ∨ ((i = .bookcmdOpen req scope tenant book ∨ i = .bookcmdSetcause req scope tenant book ∨ i = .bookcmdClearcause req scope tenant book ∨ i = .bookcmdRelease req scope tenant book ∨ i = .bookcmdRestore req scope tenant book) ∧ a = bPRT ∧ o = 0x20) ∨
      (i = .rplRunWrite req val ∧ a = bRPL ∧ o = 0x28)) : exec i s = .next (emitOut (busErr s req (regAddr a o) true 7).st (.busErr req 7)) := by
  have hbook {val : Nat} := fabric_forbidden (val := val) hreq hheld (show accessReason bPRT 0x20 32 true = 0 by decide) (forbidden_mgmt hne (.inr (.inl ⟨rfl, .inl rfl⟩)))
  rcases hi with ⟨rfl, rfl, rfl⟩ | ⟨rfl | rfl | rfl | rfl | rfl, rfl, rfl⟩ | ⟨rfl, rfl, rfl⟩
  · exact fabric_forbidden hreq hheld (by decide) (forbidden_mgmt hne (.inl ⟨rfl, rfl⟩))
  · exact hbook
  · exact hbook
  · exact hbook
  · exact hbook
  · exact hbook
  · exact fabric_forbidden hreq hheld (by decide) (forbidden_mgmt hne (.inr (.inr ⟨rfl, rfl⟩)))

theorem unlock_row (h : assigned b = true) : exec (.unlock req b val) s = .next (unlockWrite s req b (val % 2 ^ 32)) :=
  fabric_unlock hreq hheld (accessReason_unlock h) (forbidden_none dataSpace_unlock (by simp) (.inr not_mgmtOnly_unlock)) rfl

theorem update_row : exec (.update req val) s = .next (updateWrite s req (val % 2 ^ 32) 0) :=
  fabric_open hreq hheld (by decide) (forbidden_none rfl (by decide) (.inr (by simp [MgmtOnly, bSYS, bRPL, bPRT]))) (by decide) rfl (by decide) (by decide)

theorem snap_row : exec (.snap req) s = .next (snapAll s) :=
  fabric_open hreq hheld (by decide) (forbidden_none rfl (by decide) (.inr (by simp [MgmtOnly, bSYS, bRPL, bPRT]))) (by decide) rfl (by decide) (by decide)

/-! The rows of the management requester. -/

section
variable (h60 : req = 0x60)
include h60

theorem modeWrite_row (hg : guardOk s req bSYS = true) (h1 : s1 = disarm s bSYS) (hv : v = val % 2 ^ 32) :
    exec (.modeWrite req val) s = .next (modeWrite (if bit v 8 then fset s1 bSYS 0x20 8 1 0 else s1) (v % 8)) := by
  subst h1 hv
  exact fabric_guarded hreq hheld (by decide) (forbidden_none rfl (by decide) (.inl h60)) (by decide) rfl (by decide) (by decide) hg

theorem modeWrite_unguarded (hg : guardOk s req bSYS = false) : exec (.modeWrite req val) s = .next (setStat s bSYS 2) :=
  fabric_unguarded hreq hheld (by decide) (forbidden_none rfl (by decide) (.inl h60)) (by decide) rfl (by decide) (by decide) hg

theorem bookcmd_guarded (ho : o ≤ 5) (hg : guardOk s req bPRT = true) : fabricWrite s req bPRT 0x20 32 (bookWord o scope tenant book) =
    .next (bookCmd (disarm s bPRT) (bookWord o scope tenant book) (fun _ => true) 0) := by
  rw [fabric_guarded hreq hheld (by decide) (forbidden_none rfl (by decide) (.inl h60)) (by decide) rfl (by decide) (by decide) hg, Nat.mod_eq_of_lt (bookWord_lt ho)]
  rfl

theorem bookcmd_unguarded (hg : guardOk s req bPRT = false) : fabricWrite s req bPRT 0x20 32 val = .next (setStat s bPRT 2) :=
  fabric_unguarded hreq hheld (by decide) (forbidden_none rfl (by decide) (.inl h60)) (by decide) rfl (by decide) (by decide) hg

theorem rplRunWrite_row : exec (.rplRunWrite req val) s = .next (if bit (val % 2 ^ 32) 0 then replayStart s else s) :=
  fabric_open hreq hheld (by decide) (forbidden_none rfl (by decide) (.inl h60)) (by decide) rfl (by decide) (by decide)

end

theorem refenWrite_row (hg : guardOk s req bTIM = true) : exec (.refenWrite req val) s = .next (refenWrite (disarm s bTIM) (val % 2 ^ 32 % 16) 0) :=
  fabric_guarded hreq hheld (by decide) (forbidden_none rfl (by decide) (.inr (by simp [MgmtOnly, bTIM, bSYS, bRPL, bPRT]))) (by decide) rfl (by decide) (by decide) hg

theorem refenWrite_unguarded (hg : guardOk s req bTIM = false) : exec (.refenWrite req val) s = .next (setStat s bTIM 2) :=
  fabric_unguarded hreq hheld (by decide) (forbidden_none rfl (by decide) (.inr (by simp [MgmtOnly, bTIM, bSYS, bRPL, bPRT]))) (by decide) rfl (by decide) (by decide) hg

theorem eclassWrite_row (hg : guardOk s req bPWR = true) (h1 : s1 = disarm s bPWR) (hv : v = val % 2 ^ 32) :
    exec (.eclassWrite req val) s = .next (eclassWrite (if bit v 8 then fset s1 bPWR 0x10 8 1 0 else s1) (v % 4) 0) := by
  subst h1 hv
  exact fabric_guarded hreq hheld (by decide) (forbidden_none rfl (by decide) (.inr (by simp [MgmtOnly, bPWR, bSYS, bRPL, bPRT]))) (by decide) rfl (by decide) (by decide) hg

theorem eclassWrite_unguarded (hg : guardOk s req bPWR = false) : exec (.eclassWrite req val) s = .next (setStat s bPWR 2) :=
  fabric_unguarded hreq hheld (by decide) (forbidden_none rfl (by decide) (.inr (by simp [MgmtOnly, bPWR, bSYS, bRPL, bPRT]))) (by decide) rfl (by decide) (by decide) hg

/-! The registers of a lane. -/

section
variable (hl : lane < 48)
include hl

omit hreq hheld in
theorem lane_plain (hr : off = 0 ∨ off = 4) : forbidden s req (bLQ + lane / 4) (laneOff (lane % 4) off) false = false ∧ laneOff (lane % 4) off ≠ 4 ∧
    dataSpace s (bLQ + lane / 4) (laneOff (lane % 4) off) = none ∧ isPosted (bLQ + lane / 4) (laneOff (lane % 4) off) = false ∧
    laneReg (bLQ + lane / 4) (laneOff (lane % 4) off) = some (lane % 4, off) ∧ addrSpace s (bLQ + lane / 4) (laneOff (lane % 4) off) = none := by
  have hlane : lane % 4 < 4 := Nat.mod_lt _ (by decide)
  have hd : dataSpace s (bLQ + lane / 4) (laneOff (lane % 4) off) = none := dataSpace_none fun o ho => by
    simp only [SpaceAt, laneOff, bLQ, bPRT, bSEC, bUCD, bFLC, bWIT, bHLT] at ho ⊢
    omega
  refine ⟨forbidden_none hd ?_ (.inr ?_), ?_, hd, ?_, ?_, addrSpace_none ?_⟩
  · simp only [bLQ, bSEC]
    omega
  · simp only [MgmtOnly, laneOff, bLQ, bSYS, bPRT, bRPL]
    omega
  · unfold laneOff
    omega
  · have h1 : bLQ + lane / 4 ≠ bFLC ∧ bLQ + lane / 4 ≠ bWIT := by
      simp only [bLQ, bFLC, bWIT]
      omega
    simp [isPosted, h1]
  · unfold laneReg
    rw [if_pos (by simp only [bLQ, laneOff]; omega)]
    simp only [laneOff, Option.some.injEq, Prod.mk.injEq]
    omega
  · simp only [SpaceAt, laneOff, bLQ, bPRT, bSEC, bUCD, bFLC, bWIT, bHLT]
    omega

theorem freezeWrite_row : exec (.freezeWrite req lane val) s = .next (freezeWrite s (lane / 4) (lane % 4) (val % 2 ^ 32 % 2)) := by
  obtain ⟨ha, -, hk, -⟩ := laneWrites hl
  obtain ⟨hf, h4, hd, hp, hreg, haddr⟩ := lane_plain (s := s) (req := req) hl (.inl rfl)
  refine (if_pos hl).trans ((fabric_open hreq hheld ha hf h4 hd hp hk).trans (next_congr ?_))
  unfold openWrite
  rw [if_neg (by simp only [bLQ, bSYS]; omega), if_neg (by simp only [bLQ, bSYS]; omega), if_neg (by simp only [laneOff]; omega), if_neg (by simp only [laneOff]; omega), haddr, hreg, Nat.add_sub_cancel_left]
  rfl

theorem lmargWrite_row (hg : guardOk s req (bLQ + lane / 4) = true) :
    exec (.lmargWrite req lane val) s = .next (lmargWrite (disarm s (bLQ + lane / 4)) (lane / 4) (lane % 4) (val % 2 ^ 32) 0) := by
  obtain ⟨-, ha, -, hk⟩ := laneWrites hl
  obtain ⟨hf, h4, hd, hp, hreg, -⟩ := lane_plain (s := s) (req := req) hl (.inr rfl)
  refine (if_pos hl).trans ((fabric_guarded hreq hheld ha hf h4 hd hp hk hg).trans (next_congr ?_))
  unfold guardedWrite
  rw [if_neg (by simp only [bLQ, bSYS]; omega), if_neg (by simp only [bLQ, bPRT]; omega), if_neg (by simp only [bLQ, bTIM]; omega), if_neg (by simp only [bLQ, bPWR]; omega),
    if_neg (by simp only [bLQ, bSEC]; omega), hreg, Nat.add_sub_cancel_left]
  rfl

theorem lmargWrite_unguarded (hg : guardOk s req (bLQ + lane / 4) = false) : exec (.lmargWrite req lane val) s = .next (setStat s (bLQ + lane / 4) 2) := by
  obtain ⟨-, ha, -, hk⟩ := laneWrites hl
  obtain ⟨hf, h4, hd, hp, -, -⟩ := lane_plain (s := s) (req := req) hl (.inr rfl)
  exact (if_pos hl).trans (fabric_unguarded hreq hheld ha hf h4 hd hp hk hg)

end

/-! Indirect spaces. -/

theorem indirectAddr_row (h : addrSpace s b off = some sp) :
    exec (.indirectAddrWrite req b off val) s = .next (if b = bFLC ∨ b = bWIT then postWrite s req b off (val % 2 ^ 32) else addrWrite s req b sp (val % 2 ^ 32)) := by
  obtain ⟨hat, -⟩ := spaceAt_of_addrSpace h
  obtain ⟨ha, hk, hp, -⟩ := spaceAt_access hat
  obtain ⟨h4, -, -, hsec, hm, -, -, -, hd⟩ := spaceAt_offset hat
  have hdata : dataSpace s b off = none := dataSpace_none hd
  have hf : forbidden s req b off false = false := forbidden_none hdata hsec (.inr hm)
  refine (if_pos (by rw [h]; rfl)).trans ?_
  by_cases hb : b = bFLC ∨ b = bWIT
  · rw [if_pos hb]
    exact fabric_posted hreq hheld ha hf h4 hdata (hp.trans (decide_eq_true hb))
  · rw [if_neg hb, fabric_open hreq hheld ha hf h4 hdata (hp.trans (decide_eq_false hb)) hk, openWrite_space hat h]

theorem indirectData_readonly (h : dataSpace s b off = some sp) (hro : sp.writable = false ∨ b = bUCD) :
    exec (.indirectDataWrite req b off val) s = .next (emitOut (busErr s req (regAddr b off) true 7).st (.busErr req 7)) := by
  obtain ⟨o, hat, rfl⟩ := spaceAt_of_dataSpace h
  obtain ⟨-, -, -, ha, -⟩ := spaceAt_access hat
  refine (if_pos (by rw [h]; rfl)).trans (fabric_forbidden hreq hheld ha ?_)
  unfold forbidden
  rw [h]
  simpa using Or.inr hro

theorem indirectData_row (h : dataSpace s b off = some sp) (hw : sp.writable = true) (hb : b ≠ bUCD)
    (hx : x = (if b = bPRT then ptDataWrite s req (regAddr b off) sp (val % 2 ^ 32) else phyDataWrite s req (regAddr b off) b sp (val % 2 ^ 32))) :
    exec (.indirectDataWrite req b off val) s = wrote req x := by
  obtain ⟨o, hat, rfl⟩ := spaceAt_of_dataSpace h
  obtain ⟨-, -, -, ha, -⟩ := spaceAt_access hat
  obtain ⟨-, -, -, -, -, hm, -⟩ := spaceAt_offset hat
  have hf : forbidden s req b (o + 4) false = false := by
    have hsec : ¬ (b = bSEC ∧ o + 4 = 0x50) := by
      simp only [SpaceAt, bPRT, bSEC, bUCD, bFLC, bWIT, bHLT] at hat ⊢
      omega
    rw [← Bool.not_eq_true]
    intro hc
    simp only [forbidden, h, hw, Bool.false_and, Bool.false_or, Bool.not_true, Bool.or_eq_true, Bool.and_eq_true, beq_iff_eq, or_assoc] at hc
    rcases hc with hc | ⟨-, hc⟩ | hc
    · exact hsec hc
    · exact hm hc
    · exact hb hc
  subst hx
  refine (if_pos (by rw [h]; rfl)).trans ((fabric_row hreq hheld).trans ?_)
  rw [busWrite, if_neg (not_not.mpr ha), hf, if_neg Bool.false_ne_true, if_neg (by simp only [SpaceAt] at hat; omega), h]

theorem indirectRead_row (h : dataSpace s b off = some sp) (hx : x = dataRead s req (regAddr b off) b sp) : exec (.indirectDataRead req b off) s = sawRead req x := by
  obtain ⟨o, hat, rfl⟩ := spaceAt_of_dataSpace h
  obtain ⟨-, -, -, -, ha⟩ := spaceAt_access hat
  obtain ⟨-, -, hlt, -⟩ := spaceAt_offset hat
  subst hx
  refine (if_pos ⟨by rw [h]; rfl, hreq, hheld⟩).trans ?_
  rw [busRead, if_neg (not_not.mpr ha), if_neg (by omega), h]

end

/-! The guard and the slow domains. -/

theorem keyguard_some (h : lk s.sys.guards b = some g) : exec (.keyguardExpire b) s = .next (if s.sys.cycle - g.since ≥ 256 then disarm s b else s) := by
  show execKeyguardExpire b s = _
  unfold execKeyguardExpire
  rw [h]

theorem keyguard_none (h : lk s.sys.guards b = none) : exec (.keyguardExpire b) s = .next s := by
  show execKeyguardExpire b s = _
  unfold execKeyguardExpire
  rw [h]

theorem domainReset_row (hp : p = getPosted s b) (h1 : s1 = putPosted (domainReset s b) b ⟨[], false, true⟩) (hd : hasDomain b = true) :
    exec (.postedDomainReset b) s = .next (if p.xfer || !p.pend.isEmpty then setStat s1 b 4 else s1) := by
  subst hp h1
  exact if_pos hd

theorem domainResetEnd_row (hp : p = getPosted s b) (hr : p.rst = true) :
    exec (.domainResetEnd b) s = .next (if b = bWIT ∧ s.sec.s5done then meshStart (putPosted s b { p with rst := false }) else putPosted s b { p with rst := false }) := by
  subst hp
  exact if_pos hr

/-! IPISEND. -/

theorem ipisend_retires {core : Nat} {rd : BitVec 5} {w : TWord} (hat : AtInsn s t core (encI 0x32 ⟨rd, 0, 0x016⟩)) (hw : reg t core rd.toNat = w) (hl : 1 ≤ lvlOf t core) (htag : w.tag = tRAW ∨ w.tag = tINT)
    (hipi : ¬ (bit w.val.toNat 8 = true ∧ bit w.val.toNat 9 = false ∧ lvlOf t core ≠ 2)) : Retires (.ipisend core rd) s t (ipiWrite t core w.val.toNat) core := by
  have hends : Ends (.ipisend core rd) s t core (chk t (crChecks t core ⟨rd, 0, 0x016⟩ true) (consume t [reg t core rd.toNat] (crWrite t core 0x016 (reg t core rd.toNat)))) :=
    runInsn_end hat (definedOp_encI _ _ (by decide) (by decide) (by decide))
  have huse : Usable w := by rcases htag with h | h <;> exact usable_of_tag h (by decide)
  have hok : (bit w.val.toNat 8 && !bit w.val.toNat 9 && lvlOf t core != 2) = false := by
    rw [← Bool.not_eq_true]
    simpa [and_assoc] using hipi
  refine hends.retires ?_
  rw [chk_no (crChecks_none (n := 0x016) rfl rfl (by decide) rfl hl (fun _ => by decide) fun _ => rfl), hw, consume_one huse]
  refine chk_no ?_
  simp only [firstTrap, tagIf, rawOrInt_of htag, prv, hok]
  rfl

end

/-- Settles O50: each row of register space, the guard, the slow domains, IPISEND, SET REG and SHOW REG. -/
theorem registerRowsComplete : Obligations.RegisterRowsComplete := by
  unfold Obligations.RegisterRowsComplete
  intro s s1 t req b off width v val a o r scope tenant book lane core n i sp g p rd w x l key hv
  refine ⟨fun h hi => register_held h hi, fun hreq hheld => ?rows, fun h hge => (keyguard_some h).trans (next_congr (if_pos hge)), fun h => ?guard, rfl, fun hp h1 => ?domain,
    fun hat hw hl htag hipi => ipisend_retires hat hw hl htag hipi, fun hlt h hn h1 hx => ?setReg, fun h hx => ?showReg⟩
  case rows =>
    subst hv
    refine ⟨fun h hr => fabric_refused hreq hheld h hr, fun ha hf => fabric_forbidden hreq hheld ha hf,
      fun ha hf => ⟨fun h4 => fabric_unlock hreq hheld ha hf h4, fun h4 hd => ⟨fun hp => fabric_posted hreq hheld ha hf h4 hd hp, fun hp hk hg => fabric_guarded hreq hheld ha hf h4 hd hp hk hg,
        fun hp hk hg => fabric_unguarded hreq hheld ha hf h4 hd hp hk hg, fun hp hk => fabric_open hreq hheld ha hf h4 hd hp hk⟩⟩,
      fun h => unlock_row hreq hheld h, update_row hreq hheld, snap_row hreq hheld, fun hne hi => register_mgmt hreq hheld hne hi,
      fun h60 => ⟨fun h1 hg => modeWrite_row hreq hheld h60 hg h1 rfl, fun hg => modeWrite_unguarded hreq hheld h60 hg, fun hi => ?book, rplRunWrite_row hreq hheld h60⟩,
      fun hg => refenWrite_row hreq hheld hg, fun hg => refenWrite_unguarded hreq hheld hg, fun h1 hg => eclassWrite_row hreq hheld hg h1 rfl, fun hg => eclassWrite_unguarded hreq hheld hg,
      fun hl => ⟨freezeWrite_row hreq hheld hl, fun hg => lmargWrite_row hreq hheld hl hg, fun hg => lmargWrite_unguarded hreq hheld hl hg⟩,
      fun hl => ⟨if_neg (Nat.not_lt.mpr hl), if_neg (Nat.not_lt.mpr hl)⟩, fun h => if_neg (by simp [h]), fun h => ⟨if_neg (by simp [h]), if_neg (by simp [h])⟩,
      fun h => indirectAddr_row hreq hheld h, fun h hro => indirectData_readonly hreq hheld h hro, fun h hw hb hx => ?_, fun h hx => ?_⟩
    case book =>
      obtain ⟨ho, hrow⟩ := bookcmd_row (s := s) hi
      rw [hrow]
      exact ⟨fun hg => bookcmd_guarded hreq hheld h60 ho hg, fun hg => bookcmd_unguarded hreq hheld h60 hg⟩
    · rw [indirectData_row hreq hheld h hw hb hx]
      exact ⟨fun h0 => next_congr (if_pos h0), fun h0 => next_congr (if_neg h0)⟩
    · rw [indirectRead_row hreq hheld h hx]
      exact ⟨fun h0 => next_congr (congrArg _ (if_pos h0)), fun h0 => next_congr (congrArg _ (if_neg h0))⟩
  case guard =>
    rcases h with h | ⟨h, hlt⟩
    · exact keyguard_none h
    · exact (keyguard_some h).trans (next_congr (if_neg (Nat.not_le.mpr hlt)))
  case domain =>
    refine ⟨fun hd hb => (domainReset_row hp h1 hd).trans (next_congr (if_pos (by simpa using hb))), fun hd hx hpe => (domainReset_row hp h1 hd).trans (next_congr (if_neg (by simp [hx, hpe]))),
      fun hd => if_neg (by simp [hd]), fun hr => ?_, fun hr hb => (domainResetEnd_row hp hr).trans (next_congr (if_neg fun hc => ?_)), fun hr hb h5 => (domainResetEnd_row hp hr).trans (next_congr (if_pos ⟨hb, h5⟩))⟩
    · subst hp
      exact if_neg (by simp [hr])
    · rcases hb with hb | hb
      · exact hb hc.1
      · simp [hb] at hc
  case setReg =>
    have hsp := spec_of_lt (a := setRegAuth b off) (modes := [.sealed, .live, .quiet, .replay, .hold]) hlt
    subst hn h1 hx
    refine ⟨fun h0 => answers_of rfl h hsp rfl (if_pos h0), fun h0 hb => answers_of rfl h hsp rfl ((if_neg (not_not.mpr h0)).trans ?_), fun h0 hb ho => answers_of rfl h hsp rfl ((if_neg (not_not.mpr h0)).trans ?_)⟩
    · rw [if_neg hb]
      rfl
    · rw [if_pos (And.intro hb ho)]
      rfl
  case showReg =>
    subst hx
    exact ⟨fun h0 => answers_of rfl h rfl rfl (if_pos h0), fun h0 => answers_of rfl h rfl rfl (if_neg (not_not.mpr h0))⟩

end Sys2Proof.Machine
end
